-- ==== Sys2Proof/Word.lean ====
section
/-! DEFINITION. The word types of the ZF-4064 (00_scope.md R7, R8; 02_register_pages.md R52). -/

namespace Sys2Proof

/-- A register word: every register access is one 32-bit access (R52). -/
abbrev Word := BitVec 32

/-- A byte. -/
abbrev Byte := BitVec 8

end Sys2Proof
end

