-- ==== Sys2Proof/Machine/Store.lean ====
section
/-! DEFINITION. Sparse maps: lists of (key, value) pairs with strictly rising keys, the one form in which the state
holds everything that is indexed by a number (register words, flash units, map entries, zones, tables). -/

namespace Sys2Proof.Machine

/-- A sparse map from numbers. -/
abbrev FMap (α : Type) := List (Nat × α)

/-- The value at a key, if the map lists one. -/
def mget {α : Type} : FMap α → Nat → Option α
  | [], _ => none
  | (k', v) :: t, k => if k = k' then some v else mget t k

/-- The value at a key, or the value that an unlisted key has. -/
def mgetD {α : Type} (m : FMap α) (k : Nat) (d : α) : α := (mget m k).getD d

/-- Set a key, keeping the keys strictly rising. -/
def mset {α : Type} : FMap α → Nat → α → FMap α
  | [], k, v => [(k, v)]
  | (k', v') :: t, k, v =>
    if k < k' then (k, v) :: (k', v') :: t
    else if k = k' then (k, v) :: t
    else (k', v') :: mset t k v

/-- Remove a key. -/
def mdel {α : Type} (m : FMap α) (k : Nat) : FMap α := m.filter (fun p => p.1 ≠ k)

/-- Set a key; a value equal to what an unlisted key has is not listed. -/
def mput {α : Type} [DecidableEq α] (m : FMap α) (k : Nat) (d v : α) : FMap α :=
  if v = d then mdel m k else mset m k v

/-- Set the keys `k`, `k + 1`, … to the values of a list. -/
def msetList {α : Type} (m : FMap α) (k : Nat) : List α → FMap α
  | [] => m
  | v :: t => msetList (mset m k v) (k + 1) t

/-- Change the value at a key that the map lists. -/
def mmod {α : Type} (m : FMap α) (k : Nat) (f : α → α) : FMap α :=
  m.map (fun p => if p.1 = k then (p.1, f p.2) else p)

/-- Remove every key of a range: `n` keys from `k` on. -/
def mdelRange {α : Type} (m : FMap α) (k n : Nat) : FMap α := m.filter (fun p => p.1 < k ∨ k + n ≤ p.1)

/-- The canonical form: strictly rising keys. -/
abbrev Mwf {α : Type} (m : FMap α) : Prop := (m.map Prod.fst).Pairwise (· < ·)

/-- Replace element `i` of a list (no change outside it). -/
def lset {α : Type} (l : List α) (i : Nat) (v : α) : List α := l.set i v

/-- Element `i` of a list of numbers, 0 outside it. -/
def lget (l : List Nat) (i : Nat) : Nat := l.getD i 0

end Sys2Proof.Machine
end

