-- ==== Sys2Proof/Machine/OpTypes.lean ====
section
/-! DEFINITION. The operands that commands carry, as data: frames, capsules, sideband transactions, key agreement
requests, media results, the environment a start-up finds. They are what the world outside hands to the block. -/

namespace Sys2Proof.Machine

/-! ### Nimbus (01_part_and_chiplets.md R25–R32) -/

/-- The two directions of a Nimbus link. A direction has its transmitter at one end and its receiver at the other. -/
inductive NimWay
  | toTile
  | toHub
  deriving DecidableEq, Repr

/-- The opposite direction. -/
def NimWay.flip : NimWay → NimWay
  | .toTile => .toHub
  | .toHub => .toTile

/-- What a block hands to a link transmitter for one data frame (R25, R26). -/
structure NimMsg where
  som : Bool
  eom : Bool
  tag : Nat
  lane : Nat
  vc : Nat
  payload : List Nat
  deriving DecidableEq, Repr

/-- The sync phases that a training finds at the tile and at the hub (R29, R30). -/
structure Phases where
  tile : Nat
  hub : Nat
  deriving DecidableEq, Repr

/-! ### Register access (02_register_pages.md R51, R61, R89) -/

/-- The path a register access takes: MF with the command identifier of its REG_READ or REG_WRITE, the sideband over
I3C or SMBus with the 7-bit address that the controller used, or control-core firmware. -/
inductive Path
  | mf (conn cid : Nat)
  | i3c (addr : Nat)
  | smbus (addr : Nat)
  | firmware
  deriving DecidableEq, Repr

/-- The protocol of a sideband transaction, with the address used and, over SMBus, whether its PEC is right (R88). -/
inductive SbBus
  | i3c (addr : Nat)
  | smbus (addr : Nat) (pecOk : Bool)
  deriving DecidableEq, Repr

/-! ### Ethernet (03_ethernet_transport.md) -/

/-- What a received packet acknowledges of what the part has sent on its connection (R131, R134). -/
inductive Acks
  | nothing
  | part
  | all
  deriving DecidableEq, Repr

/-- What an accepted frame carries above IP (R116–R118, R128, R130): a RoCEv2 packet with its UDP destination port, or a
TCP segment with its ECE and CWR flags; `past` says that it acknowledges data sent after the last halving of the window. -/
inductive FrameBody
  | other
  | roce (conn udp : Nat) (isSend dataBearing : Bool) (acks : Acks)
  | tcp (conn : Nat) (dataBearing ece cwr past : Bool) (acks : Acks)
  deriving DecidableEq, Repr

/-- The connection of a packet. -/
def FrameBody.conn : FrameBody → Option Nat
  | .other => none
  | .roce c _ _ _ _ => some c
  | .tcp c _ _ _ _ _ => some c

/-- A received Ethernet frame, as far as the part's rules look at it (R102, R105–R108, R114, R116). Addresses are
numbers; an IPv4 address is in its IPv4-mapped form. `tags` are the VLAN tags outermost first, each with its PCP and
VLAN ID; `fecCorr` FEC codewords were corrected in it, `fecUnc` were uncorrectable. -/
structure EthFrame where
  port : Fin 2
  fecCorr : Nat
  fecUnc : Nat
  bytes : Nat
  dst : Nat
  src : Nat
  tags : List (Nat × Nat)
  etherType : Nat
  v6 : Bool
  ipLen : Nat
  options : Bool
  fragment : Bool
  dstIp : Nat
  ce : Bool
  wakeKey : Nat
  wakeSubtype : Nat
  body : FrameBody
  deriving DecidableEq, Repr

/-- A PFC frame: its destination MAC address and the quanta of each priority that it names (R113). -/
structure PfcFrame where
  dst : Nat
  quanta : List (Nat × Nat)
  deriving DecidableEq, Repr

/-- An ARP request: the IPv4 address it asks for and its source MAC address (R109). -/
structure ArpAsk where
  ip : Nat
  src : Nat
  deriving DecidableEq, Repr

/-- A Neighbor Solicitation: its destination IP address, the address it asks for and its source MAC address (R109). -/
structure NbrAsk where
  dstIp : Nat
  target : Nat
  src : Nat
  deriving DecidableEq, Repr

/-- An ICMP Echo request: its destination IP address and its destination and source MAC addresses (R109). -/
structure EchoAsk where
  ip : Nat
  dst : Nat
  src : Nat
  deriving DecidableEq, Repr

/-- Where a new connection comes from: its name, the port, VLAN and IP address it arrives on, the peer's MAC address,
and whether it names the discovery service (R110, R119, R123). -/
structure NewConn where
  conn : Nat
  port : Fin 2
  vlan : Nat
  dstIp : Nat
  peerMac : Nat
  service : Nat
  deriving DecidableEq, Repr

/-- What an RDMA CM connect request asks for (R128): its path MTU, whether the queue pair is Reliable Connected, and
whether it asks for a shared receive queue or for atomics. -/
structure RdmaReq where
  mtu : Nat
  rc : Bool
  srq : Bool
  atomics : Bool
  deriving DecidableEq, Repr

/-- An RDMA CM connect request (R128). -/
structure RdmaConnect where
  conn : NewConn
  qp : RdmaReq
  deriving DecidableEq, Repr

/-- A TCP option that a SYN carries (R132). -/
inductive TcpOpt
  | mss (n : Nat)
  | wscale (n : Nat)
  | sack
  | timestamps
  | fastOpen
  | mptcp
  deriving DecidableEq, Repr

/-- A SYN with its options (R132). -/
structure SynSegment where
  conn : NewConn
  opts : List TcpOpt
  deriving DecidableEq, Repr

/-- Whether the header digest and the data digest of a PDU hold (R133). -/
structure Digests where
  hdr : Bool
  data : Bool
  deriving DecidableEq, Repr

/-- A received TLS record: the bytes of its plaintext, and whether it authenticates (R138). -/
structure TlsRecord where
  len : Nat
  authOk : Bool
  deriving DecidableEq, Repr

/-- What a TLS ClientHello offers (R135), and the identity number of its PSK. -/
structure Hello where
  psk : Nat
  pskKe : Bool
  pskDheKe : Bool
  secp384r1 : Bool
  aes128 : Bool
  aes256 : Bool
  deriving DecidableEq, Repr

/-! ### NVMe commands (04_commands_and_ordering.md) -/

/-- An NVMe command capsule: the connection it arrives on, the command identifier, the namespace, command dwords 10 to
15, the length of the data buffer its SGL describes, the number of keyed SGL descriptors, whether a reserved bit
outside the dwords is set, the bytes of in-capsule data (R129, R132), whether the digests of its PDU hold (R133), and
whether its opcode is in fact none that R159 and R160 accept, so that the command it comes as says nothing. -/
structure Capsule where
  conn : Nat
  cid : Nat
  nsid : Nat
  dw10 : Nat
  dw11 : Nat
  dw12 : Nat
  dw13 : Nat
  dw14 : Nat
  dw15 : Nat
  len : Nat
  keyed : Nat
  reserved : Bool
  icd : Nat := 0
  hdgstOk : Bool := true
  ddgstOk : Bool := true
  unknown : Bool := false
  deriving DecidableEq, Repr

/-- A Set Features with the host identifier in its data buffer, which feature 0x81 reads (R159). -/
structure FeatureSet where
  cap : Capsule
  hostId : Nat
  deriving DecidableEq, Repr

/-- An SPDM request in a Security Send (R461). -/
structure SpdmAsk where
  cap : Capsule
  req : List Nat
  deriving DecidableEq, Repr

/-- How an activation's copy of its image ends: whether it is good, and the byte offset of a word of the code SRAM found
uncorrectable as the cores start the image, if any (R188, R696). -/
structure CopyEnd where
  good : Bool
  ue : Option Nat
  deriving DecidableEq, Repr

/-- The zones that an IMPORT_ZONE carries: the first one and how many (R517). -/
structure ZoneSpan where
  first : Nat
  count : Nat
  deriving DecidableEq, Repr

/-- The data of a fabrics Connect (R121, R122). -/
structure ConnectData where
  subsys : Nat
  cntlid : Nat
  hostNqn : Nat
  hostId : Nat
  qid : Nat
  sqsize : Nat
  kato : Nat
  deriving DecidableEq, Repr

/-- A DH-HMAC-CHAP message from the host (R140): negotiate, with the identifiers of the hash functions and DH groups it
offers and whether it asks for secure channel concatenation; a reply, with whether it verifies under the installed secret
and the host's own challenge when the exchange is bidirectional; the host's confirmation; or its failure message. -/
inductive AuthStep
  | negotiate (hashes groups : List Nat) (secure : Bool)
  | reply (good : Bool) (challenge : Option Nat)
  | success
  | failure
  deriving DecidableEq, Repr

/-- The I/O commands of R160, and Abort, whose completion is committed like theirs (R183, R184). -/
inductive IoOp
  | read
  | write
  | writeZeroes (deac : Bool)
  | dsm
  | append
  | flush
  | zmSend (action : Nat) (all : Bool)
  | zmRecv
  | abort
  deriving DecidableEq, Repr

/-- The counters that keep a mark (R352). -/
inductive MarkOf
  | wseq (slot : Nat)
  | nonce (slot : Nat)
  | band
  | deferSeq (tenant : Nat)
  | sealing
  deriving DecidableEq, Repr

/-! ### Flash (09_flash_lanes_thyme.md R392, R396) -/

/-- What a Thyme word finds at its lane: the conditions of R392 that the descriptor and the bus decide, the status byte a
Read Status Enhanced returns, and the descriptor field an ALU word reads. -/
structure ThymeEnv where
  slc : Bool
  otherSet : Bool
  lastItem : Bool
  xferDone : Bool
  flags : Nat
  status : Nat
  field : Nat
  deriving DecidableEq, Repr

/-- How the hard decode of a diagnostic read ends: the zero bits of the raw codeword, and the bits corrected if it
decoded. -/
structure DiagResult where
  zeros : Nat
  corrected : Option Nat
  deriving DecidableEq, Repr

/-! ### Key agreement and credentials (12_sorrel_keys_cipher.md R467, R473) -/

/-- The CTR of a key agreement request and its 48 bytes of MAC (R467). -/
structure KaHdr where
  ctr : Nat
  mac : List Nat
  deriving DecidableEq, Repr

/-- A cipher job that arrives: the decryption of one sector of a read, or other work with its slot address, class and
blocks. -/
inductive JobReq
  | dec (conn cid off : Nat)
  | other (id addr cls blocks : Nat)
  deriving DecidableEq, Repr

/-! ### Memories and caches (14_memories_buffers_dram.md, 15_caches.md) -/

/-- The two caches (R569). -/
inductive CacheId
  | ccc
  | mcc
  deriving DecidableEq, Repr

/-- A write of MAINT_CTRL: its value, and the lines that its reads of the cache's arrays find uncorrectable (R576, R581). -/
structure MaintWrite where
  word : Nat
  bad : List Nat
  deriving DecidableEq, Repr

/-- What an uncorrectable transit SRAM word held (R528). -/
inductive SramContent
  | capsule (conn : Nat)
  | readData (conn cid off : Nat)
  | parity (band code : Nat)
  | tables
  deriving DecidableEq, Repr

/-- What a DRAM line that reads uncorrectable held (R547): sectors and entries by key slot, a write by connection and
command identifier, a migration's copies by tenant with whether it is the snapshot's. -/
inductive DramContent
  | mapSegment
  | table
  | acked (slot : Nat) (sectors : List Nat)
  | unacked (conn cid : Nat)
  | stagingWrite (conn cid : Nat)
  | readData (conn cid off : Nat)
  | migBitmap (tenant nsid unit : Nat) (snap : Bool)
  | migRing (tenant : Nat) (snap : Bool)
  | firmware
  | parity (band code : Nat)
  deriving DecidableEq, Repr

/-- What a patrol read of a sealed memory finds in a byte (R552, R555). -/
inductive ReadFinds
  | good
  | corrected
  | uncorrectable
  deriving DecidableEq, Repr

/-! ### Lane bring-up (09_flash_lanes_thyme.md R376, R377, R602) -/

/-- A parameter page, as far as R374, R378 and R398 use it: data and spare bytes of a page, planes, blocks per plane, density
in Gbit, word lines per block, LUNs per CE_n, the bit positions at which a row address holds page, plane, block and LUN,
and the maximum times of a read, a program and an erase in µs. -/
structure ParamPage where
  data : Nat
  spare : Nat
  planes : Nat
  blocks : Nat
  gbit : Nat
  wl : Nat
  luns : Nat
  pageAt : Nat
  planeAt : Nat
  blkAt : Nat
  lunAt : Nat
  tR : Nat
  tProg : Nat
  tBers : Nat
  deriving DecidableEq, Repr

/-- A flash die that answers at bring-up: its CELUN, Read ID, unique ID, and the first copy of its parameter page with a
valid CRC, if one has (R376). -/
structure DieFind where
  celun : Nat
  id : Nat
  unique : Nat
  page : Option ParamPage
  deriving DecidableEq, Repr

/-- A flash die model record (R369, R416, R417, R426): the Read ID it matches, the highest rate it allows (1 to 4, as
LANnn.LINK.RATE), the modes as GEOM2.MODES, PAIR_WL, the latency of a suspension and of a resume and the time of an SLC
program in µs; the command bytes of one-shot programming, of the selection of SLC, TLC and QLC, of the threshold sets (the
default, A to D, then −δ, +δ, −2δ, +2δ, −3δ, +3δ), and of suspending and resuming a program and an erase; and the initial
detector tables by table number. -/
structure ModelRec where
  id : Nat
  rate : Nat
  modes : Nat
  pairWl : Nat
  tSusp : Nat
  tRes : Nat
  tProgSlc : Nat
  oneShot : List Nat
  modeSel : List (List Nat)
  thrSets : List (List Nat)
  suspends : List (List Nat)
  resumes : List (List Nat)
  tables : FMap (List Int)
  deriving DecidableEq, Repr

/-- What bringing up a lane finds: the rate its training ends at (0 when it fails at 1,600 MT/s), the populated CE_n as a
bitmap, and the flash dies that answer. -/
structure LaneFind where
  lane : Nat
  rate : Nat
  ces : Nat
  dies : List DieFind
  deriving DecidableEq, Repr

/-! ### Firmware (20_boot_and_firmware.md R702) -/

/-- How the write of a slot ends (R702, R709): it reads back with every DIGEST matching, it does not, or power is lost
while it runs. -/
inductive SlotEnd
  | matched
  | mismatch
  | cut
  deriving DecidableEq, Repr

end Sys2Proof.Machine
end

