-- ==== Sys2Proof/Machine/Types.lean ====
section
/-! DEFINITION. The data types the state is made of, block by block, each with the rules that name what it holds. -/

namespace Sys2Proof.Machine

/-! ### Completions -/

/-- An NVMe status: status code type, status code, Do Not Retry. -/
structure Status where
  sct : Nat
  sc : Nat
  dnr : Bool
  deriving DecidableEq, Repr

/-- A completion queue entry, with the data the command returned to the host. `data` holds one number per sector for
a Read, and one number per byte otherwise. -/
structure Cqe where
  conn : Nat
  cid : Nat
  st : Status
  dw0 : Nat
  dw1 : Nat
  data : List Nat
  deriving DecidableEq, Repr

/-! ### Nimbus links (R25–R40) -/

/-- The states of NIMn.LINK_STAT.STATE (R37); HUNT is UP with a receiver hunting. -/
inductive NimState
  | down | training | up | retrain | failed
  deriving DecidableEq, Repr

/-- One direction of a link: its transmitter and its receiver (R28–R32). -/
structure NimDir where
  waiting : List NimMsg := []
  nextSeq : Nat := 0
  retry : List (Nat × NimMsg) := []
  resend : List (Nat × NimMsg) := []
  rxNext : Nat := 0
  phase : Nat := 0
  hunting : Bool := false
  seen : Option Nat := none
  confirm : Bool := false
  request : Option Nat := none
  deriving DecidableEq, Repr

/-- One Nimbus link. `events` are the times of the link events within the running 1 ms window (R33); `fails` counts
consecutive failed training attempts (R35). -/
structure NimLink where
  state : NimState := .down
  toTile : NimDir := {}
  toHub : NimDir := {}
  events : List Nat := []
  fails : Nat := 0
  deriving DecidableEq, Repr

/-! ### Sideband and interrupt routing (R88–R100) -/

/-- The sideband's last result (R89), the levels of ALERT_N and FAULT_N as driven by the part, the condition of R99
at the last step, and whether the register-interrupt event is armed (R98). -/
structure Mgmt where
  lastResult : List Nat := [0, 0, 0, 0, 0]
  aenArmed : Bool := true
  intCond : Bool := false
  alertLow : Bool := false
  faultLow : Bool := false
  deriving DecidableEq, Repr

/-! ### Central fault log (R674–R677) -/

/-- One fault log entry (R674). `seq` is given when the entry is written to the log. -/
structure FaultEntry where
  seq : Nat
  pcyc : Nat
  pos : Nat
  type : Nat
  page : Nat
  info : Nat
  addrLo : Nat
  addrHi : Nat
  rep : Nat
  span : Nat
  deriving DecidableEq, Repr

/-- The fault queue in hub SRAM, the entries whose source holds them for want of a place, and the log in MRAM. -/
structure FaultUnit where
  queue : List FaultEntry := []
  held : List FaultEntry := []
  log : List FaultEntry := []
  nextSeq : Nat := 1
  dropped : Nat := 0
  deriving DecidableEq, Repr

/-! ### Ethernet ports, transports and connections (R101–R157) -/

/-- One port. `serAt` is when it last was in high symbol error rate (R103); `txEq` the transmit equalisation of its lanes
(R104); `paused` holds, per priority that a received PFC frame stopped, the time at which its pause ends; `level`
the bytes of each priority in the real-time port FIFO; `xoff` the time of the next PFC refresh per priority paused by
the part. `wakeStaged` are the key words written and not yet committed (R142). -/
structure EthPort where
  amLock : Bool := false
  linkUp : Bool := false
  serAt : Option Nat := none
  txEq : List Nat := []
  holdUntil : Option Nat := none
  paused : FMap Nat := []
  level : FMap Nat := []
  xoff : FMap Nat := []
  panic : Bool := false
  wakeKey : Nat := 0
  wakeStaged : FMap Nat := []
  serdesUntil : Option Nat := none
  deriving DecidableEq, Repr

/-- One committed entry of the interface table (R106, R156). -/
structure IfEntry where
  addr : Nat := 0
  cfg : Nat := 0
  deriving DecidableEq, Repr

/-- What the frames that the part sends carry in their headers (R106, R110, R115, R116): the port, the MAC addresses, the
VLAN (0 untagged) with the PCP, and on IP packets the DSCP and the ECN field; on TCP segments the ECE and CWR flags. -/
structure TxHdr where
  port : Nat
  dst : Nat
  src : Nat
  vlan : Nat := 0
  pcp : Nat := 0
  dscp : Nat := 0
  ecn : Nat := 0
  ece : Bool := false
  cwr : Bool := false
  deriving DecidableEq, Repr

/-- A TLS session: its transport key slot, the sequence numbers of both directions, the key generation of the
receiving direction, and whether the sending direction has come to its last record (R137–R139, R475). -/
structure Tls where
  slot : Nat
  rxSeq : Nat
  txSeq : Nat
  rxGen : Nat
  ending : Bool := false
  deriving DecidableEq, Repr

/-- A queue pair or connection (R110, R118, R119, R130–R134). `fn` is the function it is connected to, with `qid`.
`pmtu` is the path MTU of a queue pair and `opts` the TCP options in use; `retries` counts consecutive transport retries,
`ackAt` is the time from which what is outstanding waits for its acknowledgement, `rto` the retransmission timeout in ns;
`ece` the ECE latch, `reduced` a window halved and not yet acknowledged past, `cwr` a CWR flag to be sent (R116, R118). -/
structure Conn where
  port : Nat := 0
  ifIdx : Nat := 0
  vlan : Nat := 0
  peerMac : Nat := 0
  rdma : Bool := true
  disc : Bool := false
  mgmt : Bool := false
  fn : Option Nat := none
  qid : Nat := 0
  hostNqn : Nat := 0
  sqsize : Nat := 0
  ready : Bool := true
  rate : Nat := 400000000000
  rateAt : Nat := 0
  lastDrop : Option Nat := none
  lastCnp : Option Nat := none
  recvBufs : Nat := 0
  retries : Nat := 0
  pmtu : Nat := 0
  opts : List TcpOpt := []
  ackAt : Option Nat := none
  rto : Nat := 1000000
  cwnd : Nat := 0
  ece : Bool := false
  reduced : Bool := false
  cwr : Bool := false
  hdgst : Bool := false
  ddgst : Bool := false
  hello : Option Nat := none
  tls : Option Tls := none
  deriving DecidableEq, Repr

/-! ### Controllers (R158–R199) -/

/-- A controller's association (R122, R125, R140): the admin connection while there is one, the host, its keep-alive
timeout in ms and the time it last restarted, the step of the authentication and whether it has succeeded, when the admin
connection was lost, the hash function and DH group agreed, and the host's challenge (R140). -/
structure Assoc where
  conn : Option Nat
  hostNqn : Nat
  hostId : Nat
  kato : Nat
  kaAt : Nat
  authStep : Nat
  authDone : Bool
  lostAt : Option Nat
  authHash : Nat := 0
  authDh : Nat := 0
  authChallenge : Option Nat := none
  deriving DecidableEq, Repr

/-- One controller. `cc` is the CC property, `shst` CSTS.SHST, `feats` the features set, `ioqs` the connection of each
I/O queue, `aers` the outstanding Asynchronous Event Requests oldest first, `resetting` a reset of R185 in progress,
`shutdown` the admin connection and time of a CC.SHN whose shutdown runs. `events` are events posted with no Asynchronous
Event Request outstanding to carry them, oldest first; `notice` whether a throttle notice may be posted (R630); `hostId` a
Host Identifier that Set Features gave (R159). -/
structure Ctrl where
  cc : Nat := 0
  rdy : Bool := false
  shst : Nat := 0
  feats : FMap Nat := []
  assoc : Option Assoc := none
  ioqs : FMap Nat := []
  aers : List (Nat × Nat) := []
  events : List Nat := []
  critWarn : Nat := 0
  notice : Bool := true
  hostId : Option Nat := none
  resetting : Bool := false
  shutdown : Bool := false
  deriving DecidableEq, Repr

/-! ### Tenants (R200–R238, R175–R181) -/

/-- A counter that never repeats (R352): its next value, its durable mark, the mark being written, if any, and
whether an assignment that waits for it has been counted. -/
structure Counter where
  next : Nat := 0
  mark : Nat := 1048576
  wanted : Option Nat := none
  waits : Bool := false
  deriving DecidableEq, Repr

/-- TFn.STAT.STATE (R235). -/
inductive TState
  | free | active | quiescing | quiesced | resetting | removing
  deriving DecidableEq, Repr

/-- The tenant parameter block (R211). A host NQN is the number its zero-filled 256 bytes spell. -/
structure TParams where
  flags : Nat := 0
  maxClass : Nat := 0
  ioqGrant : Nat := 0
  maxNs : Nat := 0
  ifMask : Nat := 0
  openZones : Nat := 0
  activeZones : Nat := 0
  mapMib : Nat := 0
  credits : Nat := 0
  rateMbps : Nat := 0
  iopsK : Nat := 0
  allow : List Nat := []
  deriving DecidableEq, Repr

/-- One entry of log page 0xC0 (R181). -/
structure DeferEntry where
  seq : Nat
  slba : Nat
  nlb : Nat
  nsid : Nat
  pos : Nat
  cause : Nat
  deriving DecidableEq, Repr

/-- The enrollment of a function (R470): the 97 bytes of its TPK, Sorrel's private key SSK, and the last accepted CTR. The
agreement keys follow from them. -/
structure Enroll where
  tpk : List Nat
  ssk : Nat
  ctr : Nat
  deriving DecidableEq, Repr

/-- What a key record holds (R459): a namespace's data key with GEN and the erase cut, a function's enrollment, a tenant's
credentials, or the private key EK of an import. -/
inductive RecBody
  | ns (key gen cut : Nat)
  | enroll (e : Enroll)
  | creds (psk secrets : FMap Nat)
  | ek (d : Nat)
  deriving DecidableEq, Repr

/-- One copy of a key record: its generation, the value of the seal counter that is its IV, what is sealed. -/
structure KeyCopy where
  gen : Nat
  iv : Nat
  body : RecBody
  deriving DecidableEq, Repr

/-- A key record (R459): its two copies; one whose tag fails is none. -/
structure KeyRec where
  a : Option KeyCopy := none
  b : Option KeyCopy := none
  deriving DecidableEq, Repr

/-- One tenant. `drain` are the commands that a quiesce waits for; `endHeld` is a QUIESCE write of 0 held under R224;
`removeStep` the last committed step of a running TENANT_REMOVE (R229) and `cmd` the connection and command identifier of a
running TENANT_RESET or TENANT_REMOVE; `defer`, `deferLost`, `deferSeq`, `deferArmed` are log page 0xC0 (R180, R181); `viol`
and `resets` count since creation (R233). `psk` and `secrets` are the installed credentials: identity, and HASH + 4 × the
secret (R215, R474). `sanitize` is the status of log page 0x81: 0 never, 1 completed, 2 in progress. -/
structure Tenant where
  state : TState := .free
  par : TParams := {}
  ver : Nat := 0
  quiesced : Bool := false
  drain : List Nat := []
  endHeld : Bool := false
  removeStep : Nat := 0
  cmd : Option (Nat × Nat) := none
  defer : List DeferEntry := []
  deferLost : Nat := 0
  deferSeq : Counter := { next := 1 }
  deferArmed : Bool := true
  viol : Nat := 0
  resets : Nat := 0
  psk : FMap Nat := []
  secrets : FMap Nat := []
  enroll : Option Enroll := none
  sanitize : Nat := 0
  deriving DecidableEq, Repr

/-! ### Namespaces and zones (R216, R239–R262, R291–R296, R344, R352, R743) -/

/-- The zone states (R243). -/
inductive ZState
  | empty | implicit | explicit | closed | full | readOnly | offline
  deriving DecidableEq, Repr

/-- A zone descriptor: state, write pointer counted from the zone start, epoch (R248). -/
structure Zone where
  state : ZState := .empty
  wp : Nat := 0
  epoch : Nat := 0
  deriving DecidableEq, Repr

/-- A map entry (R292): unmapped entries are not listed. `at pua sub` is a mapped entry. -/
inductive MapEnt
  | unreadable
  | lost
  | at (pua sub : Nat)
  deriving DecidableEq, Repr

/-- Which command began a crypto-erase (R484, check 10 of R161). -/
inductive EraseKind
  | format | bind | sanitize
  deriving DecidableEq, Repr

/-- A namespace, kept under its key slot (R218). `map` is its forward map; unlisted entries are unmapped. `recovered` is
false until it is ready after a start-up (R362). `dirty` are the segments of a conventional map that changed since their
checkpoint, each with the record number at its first change (R345). `defer` is the deferred error pending flag and
`deferNewest` the newest SEQ made for it (R181). `changed`, `changedOver`, `noticeArmed` are its Changed Zone List (R249,
R743). `wp` is write protection (check 11). `erase` is a crypto-erase under way, `eraseWait` the commands it waits for,
`eraseDone` says that its commit is past, and `eraseCut` is the record number below which recovery ignores the key slot's
records (R485, R486). -/
structure Ns where
  tenant : Nat
  nsid : Nat
  zoned : Bool
  zsize : Nat
  parity : Nat
  cls : Nat
  dieSet : Nat
  capacity : Nat
  recovered : Bool := true
  defer : Bool := false
  deferNewest : Nat := 0
  erase : Option EraseKind := none
  eraseWait : List Nat := []
  eraseDone : Bool := false
  eraseCut : Nat := 0
  wp : Bool := false
  wseq : Counter := {}
  nonce : Counter := {}
  zones : FMap Zone := []
  map : FMap MapEnt := []
  dirty : FMap Nat := []
  changed : List Nat := []
  changedOver : Bool := false
  noticeArmed : Bool := true
  deriving DecidableEq, Repr

/-! ### Moving a live tenant (R501–R525) -/

/-- The migration states (R501). -/
inductive MigState
  | idle | copying | frozen | handedOff | importing
  deriving DecidableEq, Repr

/-- An entry of a zone event ring (R506). -/
structure MigEvent where
  nsid : Nat
  event : Nat
  zone : Nat
  epoch : Nat
  deriving DecidableEq, Repr

/-- A bitmap over a namespace's units (R504, R505): every bit, or the units whose bit is set. -/
structure MigBits where
  full : Bool := false
  units : List Nat := []
  deriving DecidableEq, Repr

/-- A copy of the written-unit log: bitmaps by NSID, the zone event ring, its OVF flag (R504–R508). -/
structure MigLog where
  bits : FMap MigBits := []
  ring : List MigEvent := []
  ovf : Bool := false
  deriving DecidableEq, Repr

/-- An entry of a key package (R521). -/
structure PkgEntry where
  nsid : Nat
  gen : Nat
  key : Nat
  nonce : Nat
  wseq : Nat
  zoned : Bool
  zsize : Nat
  deriving DecidableEq, Repr

/-- A tenant's migration: its state, the NSMASK, the live log and the snapshot, the ephemeral private key of an import, the EPK
whose package was exported, whether a freeze still drains and the commands it waits
for (R519), the record number at the last commit of the import, and a commit under way with the units it waits for and the
key package that IMPORT_KEY brought (R518, R523). -/
structure Mig where
  state : MigState := .idle
  mask : Nat := 0
  live : MigLog := {}
  snap : MigLog := {}
  ek : Option Nat := none
  peer : Option (List Nat) := none
  draining : Bool := false
  waitFor : List Nat := []
  commitAt : Nat := 0
  committing : Bool := false
  commitUnits : List Nat := []
  pkgIn : Option (List Nat) := none
  deriving DecidableEq, Repr

/-! ### Flash contents, die sets, bands (R263–R288, R304–R325) -/

/-- One sector as it is stored: its metadata (R407), with its 4,096 bytes of ciphertext and its tag as little-endian numbers
(R476). -/
structure Sector where
  nsk : Nat
  lsa : Nat
  wseq : Nat
  nonce : Nat
  conv : Bool
  zsize : Nat
  cls : Nat
  life : Nat
  group : Nat
  rgen : Nat
  ct : Nat := 0
  tag : Nat := 0
  deriving DecidableEq, Repr

/-- One codeword of a plane page: filler, parity, a stored sector, or programmed cells that verify as nothing. Parity is the
byte-wise XOR of the codewords it lists (R274, R409), `none` for filler: a codeword cancels itself. An erased codeword belongs
to a page the flash does not list. -/
inductive Cw
  | filler
  | parity (xor : List (Option Sector))
  | data (s : Sector)
  | garbled
  deriving DecidableEq, Repr

/-- A die set (R264, R267). `initSpare` holds each member's initial spare pool, `spare` its present one; `sys` each
member's SLC system blocks; `full` the state of R323 to R325; `running` whether relocation runs (R314); `freeWas` the
free bands at the end of the last step (R286). -/
structure DieSet where
  mode : Nat
  parity : Nat
  owner : Nat
  opPct : Nat
  streams : Nat
  flags : Nat
  laneMask : Nat
  streamMap : List Nat
  members : List Nat
  bandBlocks : Nat
  initSpare : List Nat
  spare : List Nat
  full : Bool := false
  running : Bool := false
  freeWas : Nat := 0
  deriving DecidableEq, Repr

/-- Block states of the firmware's records (R304); a free block that was never taken is not listed. -/
inductive BlkState
  | free | open | closed | queued | system | retired
  deriving DecidableEq, Repr

/-- A block's records (R304). `bad` marks a block the manufacturer marked bad; `freed` counts the journal records that
must be in the ring before it may be erased (R339); `dirty` a block that must be erased before its first program, and
`asked` that its erase has been given to Cirrus; `relBand` the released band it lay in (R303); `fill` the plane pages an SLC
system block has programmed since its erase (R342). -/
structure Blk where
  state : BlkState := .free
  erases : Nat := 0
  reads : Nat := 0
  closedAt : Nat := 0
  suspect : Nat := 0
  bad : Bool := false
  waitRec : Nat := 0
  dirty : Bool := false
  asked : Bool := false
  relBand : Nat := 0
  fill : Nat := 0
  deriving DecidableEq, Repr

/-- What a data slot of an open row holds: a staged unit, or filler. -/
inductive SlotUse
  | unit (id : Nat)
  | filler
  deriving DecidableEq, Repr

/-- A relocation of a band: whether its map changes are made, and what their durability waits for (R350 step 2): the record
number of its last EXTENT, and the conventional segments it changed, each with the record number at the change; `held` says
that a step of it waits for the ring (R341). -/
structure Victim where
  committed : Bool := false
  commitRec : Nat := 0
  segs : List (Nat × Nat × Nat) := []
  held : Bool := false
  deriving DecidableEq, Repr

/-- Where a parity accumulator lies (R529): in the parity area of transit SRAM, in a P4 buffer of Basil, or nowhere yet. -/
inductive AccPlace
  | area
  | buffer (key : Nat)
  | stalled
  deriving DecidableEq, Repr

/-- A parity accumulator of one group of one stripe row (R529): the XOR so far of each codeword of the program unit, by
page × 4 + codeword. `bad` says that its content was lost (R528). -/
structure PAcc where
  place : AccPlace := .stalled
  data : FMap (List (Option Sector)) := []
  bad : Bool := false
  deriving DecidableEq, Repr

/-- A band (R272–R276), kept under its handle. `accs` are its parity accumulators, by row × 64 + group. `members` lists
(member, die, block) of the active members in order; `next` is the next data slot to assign; `slots` the slots in use whose
program unit is not programmed yet; `done` the (row × 64 + member) program units programmed, `failed` those whose program
failed, `sent` those given to Cirrus; `openRec` the journal count at which its opening records are in the ring; `victim` a
relocation of it under way, with what its commit waits for (R350). -/
structure Band where
  dieSet : Nat
  stream : Nat
  bits : Nat
  rows : Nat
  groups : Nat
  members : List (Nat × Nat × Nat)
  next : Nat := 0
  slots : FMap SlotUse := []
  accs : FMap PAcc := []
  sent : List Nat := []
  done : List Nat := []
  failed : List Nat := []
  closed : Bool := false
  closedAt : Nat := 0
  conv : Bool := false
  settled : Bool := false
  refresh : Bool := false
  openRec : Nat := 0
  victim : Option Victim := none
  deriving DecidableEq, Repr

/-- A staged sector, whether its write has been acknowledged, and the place a relocation copied it from (R302). -/
structure StSec where
  sec : Sector
  acked : Bool
  src : Option (Nat × Nat) := none
  deriving DecidableEq, Repr

/-- A staged unit (R261, R301, R347): four codeword places, the data slot it holds, if any, and the order number of its
first acknowledged sector. `complete` says that its paired word-line group is programmed (R346); `reloc` that relocation
wrote it; `stale` that no map entry may point to it any more (R485); `olds` are the map entries of a conventional unit's
sectors before it took its slot (R547). `forced` says that it must be programmed though it is partial (R261), and `ready`,
not 0, numbers the units that wait for a slot in the order in which they became ready (R279). -/
structure StUnit where
  nsk : Nat
  dieSet : Nat
  stream : Nat
  zoned : Bool
  unit : Nat
  cws : List (Option StSec)
  slot : Option (Nat × Nat) := none
  firstAck : Option Nat := none
  complete : Bool := false
  reloc : Bool := false
  stale : Bool := false
  olds : List (Nat × Option MapEnt) := []
  forced : Bool := false
  ready : Nat := 0
  deriving DecidableEq, Repr

/-! ### The journal (R334–R341), checkpoints (R342–R345), power loss (R355–R366) -/

/-- Journal records (R336, R337). -/
inductive JRec
  | extent (nsk first count band slot : Nat) (reloc : Bool) (sub tail : Nat) (conv : Bool)
  | bandOpen (band dieSet stream d g pos : Nat)
  | bandBlock (band mem die blk : Nat)
  | bandClose (band filled pos : Nat)
  | release (band : Nat)
  | zone (nsk z epoch event : Nat)
  | erase (die blk count : Nat)
  | dealloc (nsk first count : Nat)
  | seq (wseq : Nat)
  | poison (nsk first count cause : Nat)
  | settled (band : Nat)
  deriving DecidableEq, Repr

/-- A change that takes effect when its record is in the ring (R339). A poison carries POS when the loss was found, and what
the entries held then. -/
inductive JAct
  | zoneReset (nsk z : Nat)
  | zoneFinish (nsk z : Nat)
  | zoneOffline (nsk z : Nat)
  | zoneReadOnly (nsk z : Nat)
  | poison (nsk first count cause pos : Nat) (olds : List (Option MapEnt))
  deriving DecidableEq, Repr

/-- The journal. Records are numbered from 0 at manufacture in the order they are staged; record n has ring index
n mod 6,291,456. `staged` are those in hub SRAM and `flushing` those of the flush under way, oldest first; `ring` lists
those between tail and head. `acts` are changes waiting for a record number, `waits` losses found while the ring was held
(R341), and `oldest` the arrival of the oldest staged record. -/
structure Journal where
  staged : List JRec := []
  flushing : List JRec := []
  ring : FMap JRec := []
  tail : Nat := 0
  head : Nat := 0
  oldest : Option Nat := none
  acts : List (Nat × JAct) := []
  waits : List JAct := []
  cleanMark : Bool := true
  deriving DecidableEq, Repr

/-- A segment checkpoint (R342–R344): the entries of one map segment with its cut, and the number of
the next record when it was made, and where its copies lie: flash die, system block, first plane page (R342). -/
structure Ckpt where
  cut : Nat
  madeAt : Nat
  ents : FMap MapEnt
  homes : List (Nat × Nat × Nat) := []
  deriving DecidableEq, Repr

/-- The checkpoint of the tables that are not maps: block table, bands, zone descriptors by key slot (R342, R343). -/
structure TabCkpt where
  cut : Nat := 0
  blks : FMap Blk := []
  bands : FMap Band := []
  zones : FMap (FMap Zone) := []
  homes : List (Nat × Nat × Nat) := []
  deriving DecidableEq, Repr

/-- The last power-loss sequence and recovery (R364). -/
structure PlStat where
  valid : Bool := false
  done : Bool := false
  lastStep : Nat := 0
  ms : Nat := 0
  kind : Nat := 0
  deriving DecidableEq, Repr

/-- Why the steps of R355 run (R355, R634, R682). -/
inductive PlCause
  | pfWarn
  | critical (channel : Nat)
  | orderly (kind detail : Nat)
  deriving DecidableEq, Repr

/-- A power-loss sequence under way: its step, when step 1 began, when step 4 ended, and the reset kind, DETAIL and
beginning of an orderly stop whose budget runs (R682). `ended` says that the work left was abandoned (R634). -/
structure PlRun where
  cause : PlCause
  step : Nat
  began : Nat
  step4End : Option Nat := none
  budget : Option (Nat × Nat × Nat) := none
  ended : Bool := false
  deriving DecidableEq, Repr

/-! ### Commands in the part (R161–R199) -/

/-- How far a command has come: submitted and not yet taken for admission; admitted and not past its dispatch point
(R182); dispatched; its completion ready to commit. -/
inductive Phase
  | waiting | admitted | dispatched | ready
  deriving DecidableEq, Repr

/-- Where a Read finds a sector: it reads as zeros, fails, is a staged sector, or a codeword of the flash. -/
inductive Place
  | zeros
  | fail (st : Status)
  | staged (x : Sector)
  | flash (pua sub : Nat)
  deriving DecidableEq, Repr

/-- An I/O command in the part. `unknown` says that its opcode is none of R160, `icd` is its in-capsule data, `par` the
tenant's parameters when it was admitted (R44, R213). `nsk` is the key slot of its namespace (none for a Flush of every
namespace); `wseq` its first write sequence (R344); `bytes` what its bucket was charged; `credits` the Basil credits it
holds; `left` the offsets of sectors not yet delivered, `plain` those decoded and waiting for a cipher job, `data` the data
to write or the sectors delivered, as offset and value; `places` where a Read's map lookups found its sectors (R166); `fails`
the failing sectors with their reason; `rec` the journal record number its acknowledgement waits for; `units` the staged
units its completion waits for; `silent` a command whose completion is not posted (R124, R185); `counted` a hold already
counted, `rateHeld` and `thrHeld` those of the budgets and of the throttle caps. -/
structure Cmd where
  conn : Nat
  cid : Nat
  fn : Nat
  nsid : Nat
  nsk : Option Nat
  op : IoOp
  slba : Nat
  nlb : Nat
  fua : Bool
  cls : Nat
  life : Nat
  group : Nat
  reserved : Bool
  len : Nat
  keyed : Nat
  unknown : Bool := false
  icd : Nat := 0
  dwords : List Nat
  ranges : List (Nat × Nat) := []
  phase : Phase := .waiting
  arrived : Nat := 0
  admitted : Nat := 0
  deadline : Nat := 0
  ver : Nat := 0
  par : TParams := {}
  wseq : Nat := 0
  bytes : Nat := 0
  credits : Nat := 0
  left : List Nat := []
  plain : List (Nat × Sector) := []
  data : List (Nat × Nat) := []
  places : List (Nat × Place) := []
  fails : List (Nat × Status) := []
  recNo : Nat := 0
  units : List Nat := []
  st : Status := ⟨0, 0, false⟩
  dw0 : Nat := 0
  dw1 : Nat := 0
  silent : Bool := false
  counted : Bool := false
  rateHeld : Bool := false
  thrHeld : Bool := false
  deriving DecidableEq, Repr

/-- An admin command whose completion comes later: what it waits for, with its connection and command identifier. -/
inductive AdminWait
  | format (nsk : Nat)
  deriving DecidableEq, Repr

/-! ### Flash operations, dies and lanes (R379–R404), Cirrus (R433–R456), read recovery (R416–R432) -/

/-- The operations a lane issues (R379). -/
inductive FlashKind
  | read | program | slcProgram | erase
  deriving DecidableEq, Repr

/-- What a flash operation serves: the climbs of one read descriptor, the program of a member's unit of a band row, the erase
of a block, a read-after-write sample of a word line, or a diagnostic read. -/
inductive Owner
  | climb (desc : Nat)
  | prog (band row mem : Nat)
  | erase (die blk : Nat)
  | raw (band row mem : Nat)
  | diag
  deriving DecidableEq, Repr

/-- A flash operation with its class and deadline (R433, R437), whether it carries SUSPEND (R440), whether it is
background work (R444), and, once running, when it last began or resumed, how long it ran before, and how often it was
suspended (R384). `strikes` counts the windows it failed R444; `forced` marks R445. A read names a threshold set, 0 the tracked
one, 1 the default, 2 to 5 the sets A to D and 6 to 11 the offsets −δ, +δ, −2δ, +2δ, −3δ and +3δ from the tracked one, and the
codewords it transfers (R379, R419). `stalled` says that a full queue has stalled it (R436), `atEntry` that its deadline is the
moment of entry (R437), and `ctl` is BG_CTRL as it entered its queue (R454). -/
structure FlashOp where
  kind : FlashKind
  die : Nat
  pua : Nat
  owner : Owner
  cls : Nat
  deadline : Nat
  entered : Nat := 0
  susp : Bool := false
  bg : Bool := false
  strikes : Nat := 0
  forced : Bool := false
  held : Bool := false
  counted : Bool := false
  since : Nat := 0
  ran : Nat := 0
  nsusp : Nat := 0
  thr : Nat := 0
  cws : List Nat := []
  stalled : Bool := false
  atEntry : Bool := false
  ctl : Nat := 0
  deriving DecidableEq, Repr

/-- A result of a tile's work that waits in the tile staging SRAM while the tile's Nimbus link retrains (R34): the end of a
hard decode, of a soft pass, of a program, an erase or a read-after-write sample, or an operation that ended without its
result. -/
inductive TileRes
  | hard (climb : Nat) (conv : Bool) (zeros : Nat)
  | soft (climb : Nat) (conv : Bool) (counts : List (Nat × Nat))
  | prog (band row mem : Nat) (ok : Bool)
  | erase (die blk : Nat) (ok : Bool)
  | sample (band row mem diff : Nat) (decoded : Bool)
  | lost (op : FlashOp)
  deriving DecidableEq, Repr

/-- The die states of LANnn.DIE_STATE (R383, R401). -/
inductive DieSt
  | absent | idle | read | prog | erase | es | esRead | esProg | ps | psRead | bringUp | oos
  deriving DecidableEq, Repr

/-- One flash die: its state, the operation running and the one suspended, its two waiting places (R380), a SUSPEND sent and
not yet accepted, when the suspended operation was suspended, and a RESET_LUN sent (R381). Its Cirrus queue and the
descriptors on their way to the lane (R436), the gathering of R442, and the reads with SUSPEND counted in this window and the
last (R444). `hits` and `tracked` are the read threshold tracking of R416 per mode; `otherSet` says that its last read used
another set than the tracked one. -/
structure Die where
  st : DieSt := .absent
  cur : Option FlashOp := none
  sus : Option FlashOp := none
  rdPlace : Option FlashOp := none
  opPlace : Option FlashOp := none
  suspSent : Bool := false
  susAt : Nat := 0
  resetAt : Option Nat := none
  queue : List FlashOp := []
  descs : List FlashOp := []
  gatherAt : Option Nat := none
  winReads : Nat := 0
  lastReads : Nat := 0
  winProgs : Nat := 0
  winHost : Nat := 0
  winAt : Nat := 0
  tracked : FMap Nat := []
  hits : FMap (Nat × Nat) := []
  otherSet : Bool := false
  deriving DecidableEq, Repr

/-- Who waits for a climb's result (R418, R422): a host command's sector by offset, a relocation of a band's plane page,
a patrol, the rebuild of another climb's codeword. -/
inductive Reader
  | host (cmd off : Nat)
  | reloc (band : Nat)
  | patrol (band : Nat)
  | rebuild (climb : Nat)
  deriving DecidableEq, Repr

/-- A climb of the retry ladder (R418–R424): the codeword, its class, deadline and SUSPEND flag, the step it is at and
the reads that step still awaits, the soft passes done in the step, the shifted set being tried, its readers, since when a
soft request waits, whether a decoder works on it, and the refined entries of the last soft pass. `group` counts the other
members' codewords that a rebuild still awaits, `bad` says whether one of them failed. `dec` and `det` are DEC_CTRL and
DET_CTRL when it started (R428). `desc` is the read descriptor whose codewords climb together, and `failed` a climb that has
failed its step and waits for the others of its descriptor (R418). -/
structure Climb where
  pua : Nat
  sub : Nat
  cls : Nat
  deadline : Nat
  susp : Bool
  step : Nat := 1
  reads : Nat := 1
  passes : Nat := 0
  set : Nat := 0
  readers : List Reader
  softAt : Option Nat := none
  decoding : Bool := false
  refined : List Int := []
  group : Nat := 0
  bad : Bool := false
  dec : Nat := 0
  det : Nat := 0
  desc : Nat := 0
  failed : Bool := false
  deriving DecidableEq, Repr

/-- A word line sample of read-after-write checking under way (R425): the reads still to come, and RAW_THR when it
started. -/
structure RawSample where
  band : Nat
  row : Nat
  mem : Nat
  cls : Nat
  left : Nat
  thr : Nat
  deriving DecidableEq, Repr

/-- A Thyme context (R389): program counter (patch RAM addresses carry bit 14), return stack, general registers, timer,
last status byte, and what the context does: it runs, or is ready since a time, or is at a wait word. -/
structure Thyme where
  pc : Nat := 0
  stack : List Nat := []
  g : List Nat := [0, 0, 0, 0, 0, 0, 0, 0]
  timer : Nat := 0
  status : Nat := 0
  running : Bool := false
  ready : Bool := false
  readyAt : Nat := 0
  waiting : Bool := false
  cls : Nat := 0
  deriving DecidableEq, Repr

/-- One lane: its training and rate, the CE_n populated, the diagnostic read under way with its start and
whether its codeword has been transferred, the context last
run by the sequencer, when each CE_n was last calibrated and the tile temperature at its last training. -/
structure Lane where
  trained : Bool := false
  rate : Nat := 0
  diag : Option Nat := none
  diagRead : Bool := false
  lastCtx : Nat := 0
  zqAt : Nat := 0
  trainedAtC : FMap Int := []
  deriving DecidableEq, Repr

/-! ### Security responses (R461, R466, R467, R511), migration records (R514, R521) -/

/-- A record of exported units (R514): the states of its four sectors and those that hold data. -/
structure MigRec where
  states : List Nat
  nsid : Nat
  unit : Nat
  secs : List Sector
  deriving DecidableEq, Repr

/-- A record that IMPORT_DATA brings: with whether the metadata CRC of each of its sectors verifies and whether a FLAGS has
PARITY or FILLER set (R516). -/
structure ImpRec where
  r : MigRec
  crcOk : Bool
  flagged : Bool
  deriving DecidableEq, Repr

/-- A zone descriptor of a migration: state code, epoch, write pointer offset (R513). -/
structure MigZone where
  code : Nat
  epoch : Nat
  wp : Nat
  deriving DecidableEq, Repr

/-- The SPDM exchange of a function (R461): the version in force, the messages GET_VERSION to ALGORITHMS, those of digests and
certificates, and those of measurements since the last signature. -/
structure Spdm where
  ver : Nat := 0x12
  vca : List Nat := []
  certs : List Nat := []
  meas : List Nat := []
  deriving DecidableEq, Repr

/-- A response that the next Security Receive of its protocol returns, ready from a time on. -/
structure SecResp where
  op : Nat
  result : Nat
  ctr : Nat
  body : List Nat
  ready : Bool
  due : Nat := 0
  deriving DecidableEq, Repr

/-! ### What leaves the part -/

/-- A client of Basil, with the number of its request (R532): TTE for capsules, completions and control messages, data read
for the ports or for migration records, write staging, firmware, and the parity accumulator of one group of one row. -/
inductive Client
  | tte (n : Nat)
  | readData (n : Nat)
  | staging (n : Nat)
  | firmware (n : Nat)
  | parity (band code : Nat)
  deriving DecidableEq, Repr

/-- What the part sends to the world outside, newest first in `State.out`. `access` is what a single register access
answers: its address, status and value. `bus` are command and address cycles of a lane, `cells` the plane pages that a program
writes, each with its bytes. -/
inductive Out
  | cqe (c : Cqe) (h : TxHdr)
  | nimFrame (link : Nat) (way : NimWay) (bytes : List Nat)
  | nimDeliver (link : Nat) (way : NimWay) (m : NimMsg)
  | ibi (data : Nat)
  | sbResult (bytes : List Nat)
  | access (addr st val : Nat)
  | frame (kind : String) (arg : Nat) (h : TxHdr)
  | conn (conn : Nat) (what : String) (args : List Nat) (h : TxHdr)
  | lane (lane : Nat) (what : String) (arg : Nat)
  | bus (lane : Nat) (cycles : List Nat)
  | cells (lane : Nat) (pages : List (Nat × List Nat))
  | buffer (client : Client) (pool index : Nat)
  | board (what : String) (arg : Nat)
  deriving DecidableEq, Repr

/-! ### Cipher cores (R487–R491) -/

/-- What a cipher job serves: the decryption of one sector of a read, or work whose result the model has already. -/
inductive CJobKind
  | dec (cmd off : Nat)
  | other (id : Nat)
  deriving DecidableEq, Repr

/-- A cipher job: its slot address, class, blocks remaining, preemptions so far, and whether it has begun. -/
structure CJob where
  what : CJobKind
  addr : Nat
  cls : Nat
  blocks : Nat
  preempts : Nat := 0
  resumed : Bool := false
  deriving DecidableEq, Repr

/-- A cipher core: the job it runs with the time it began, and the addresses of its key cache, the newest first. -/
structure Core where
  job : Option (CJob × Nat) := none
  cache : List Nat := []
  deriving DecidableEq, Repr

/-! ### Thermal stage (R628) -/

/-- The stages of THM. -/
inductive ThmStage
  | normal | notify | enforce | critical
  deriving DecidableEq, Repr

/-- The order in which QENG takes commands from submission queues: the tenant being served and the commands it may still
have, and per tenant the queue connection and what it may still have (04_commands_and_ordering.md, Ordering). -/
structure Arb where
  tenant : Nat := 0
  left : Nat := 0
  queues : FMap (Nat × Nat) := []
  /-- The commands that arrived during the last firmware hold, by their numbers: from `holdFrom` up to below `holdTo`
  (R188: they are admitted in arrival order). -/
  holdFrom : Nat := 0
  holdTo : Nat := 0
  deriving DecidableEq, Repr

/-! ### Buckets (R448–R451) -/

/-- A token bucket: its level, which may fall below 0, in thousandths of a byte or millionths of a command, and when the
level was last brought up to date. -/
structure Bucket where
  level : Int
  asOf : Nat
  deriving DecidableEq, Repr

/-! ### The event recorder and metering (R643–R667) -/

/-- A record of a ring (R648, R649): its body as numbers, histogram counts or VALUE and PREV. -/
structure RecRec where
  kind : Nat
  subject : Nat
  again : Nat
  pos : Nat
  span : Nat
  pcyc : Nat
  body : List Int
  deriving DecidableEq, Repr

/-- The live state of a recorder (R646, R647): extremes, minima and histograms, by index; an unlisted extreme or minimum
is empty and an unlisted count 0. `lat` is indexed by class × 48 + bin, `temp` by group × 32 + bin. -/
structure RecLive where
  clearPos : Nat := 0
  hi : FMap Int := []
  lo : FMap Int := []
  latMax : FMap Nat := []
  eraseMax : Nat := 0
  supLow : FMap Nat := []
  supMin : FMap Nat := []
  lat : FMap Nat := []
  temp : FMap Nat := []
  deriving DecidableEq, Repr

/-- A recorder: the live state in hub SRAM, its copy in MRAM with the POS and PCYC copied, the record ring in MRAM oldest
first with the next slot, the records dropped, the records a freeze holds, and when the freeze began (R652). -/
structure Recorder where
  live : RecLive := {}
  saved : RecLive := {}
  savedPos : Nat := 0
  savedPcyc : Nat := 0
  ring : List RecRec := []
  next : Nat := 0
  dropped : Nat := 0
  held : List RecRec := []
  frozenAt : Option Nat := none
  deriving DecidableEq, Repr

/-- What a tenant's minute has accumulated (R657), by class where it is a list, with the flags of its next record. -/
structure MtrAcc where
  sect : FMap Nat := []
  ios : FMap Nat := []
  miss : FMap Nat := []
  unitSec : Nat := 0
  zones : Nat := 0
  first : Bool := true
  part : Bool := true
  timeSet : Bool := false
  deriving DecidableEq, Repr

/-- A metering record (R657): `flags` is bytes 0–1, `gen` the MK generation its tag was made under, `tag` the tag, `read`
whether a METER_READ has returned it. -/
structure MtrRec where
  flags : Nat
  seq : Nat
  minute : Nat
  sect : FMap Nat
  ios : FMap Nat
  miss : FMap Nat
  unitSec : Nat
  zones : Nat
  gen : Nat
  tag : List Nat
  read : Bool
  deriving DecidableEq, Repr

/-- Metering: the minute now counted (wall seconds div 60), accumulators, rings and next SEQ by tenant number, the minutes
that passed in DOZE or HOLD with what they counted, the tenant numbers of which a record was closed since the last reset, the
minute in progress at the last reset, and the high word captured by a read of WALL_LO. -/
structure Meter where
  minute : Nat := 0
  accs : FMap MtrAcc := []
  rings : FMap (List MtrRec) := []
  seqs : FMap Nat := []
  noted : List (Nat × FMap MtrAcc) := []
  closed : List Nat := []
  void : Option Nat := none
  wallHi : Nat := 0
  deriving DecidableEq, Repr

/-- The always-on domain (R604, R643–R645): the time at which its tick count was 0, the time of the last POS step, the
wall time with the instant it was set, the timer's end, and the captured words of AON_HI and POS_HI. -/
structure Aon where
  since : Nat := 0
  posAt : Nat := 0
  wall : Option (Nat × Nat) := none
  timer : Option Nat := none
  aonHi : Nat := 0
  posHi : Nat := 0
  deriving DecidableEq, Repr

/-! ### Rails, sense inputs, mode entry (R591–R612) -/

/-- A rail (R606–R609): commanded on, since when its reading is above the warning threshold after that command, since when
an armed reading is below the warning or the reset threshold, whether that warning is reported, the last sample and the
lowest armed one in mV. -/
structure Rail where
  on : Bool := false
  goodAt : Option Nat := none
  warnSince : Option Nat := none
  resetSince : Option Nat := none
  warned : Bool := false
  mv : Nat := 0
  minMv : Option Nat := none
  deriving DecidableEq, Repr

/-- VIN_SENSE and HOLD_SENSE (R610–R612): consecutive samples below PFW_MV and RESET_MV, since when VIN_SENSE has been at
or above WARN_MV or below it, whether PF_WARN is armed and whether it was raised. -/
structure Sense where
  vinLow : Nat := 0
  holdRst : Nat := 0
  okSince : Option Nat := none
  warnSince : Option Nat := none
  armed : Bool := false
  raised : Bool := false
  deriving DecidableEq, Repr

/-- The power controller: rails by index with their RAIL_CFG words, the rails still to come on, the head of which is
commanded, since when it is, the sense inputs, a mode entry under way with its target (1 DOZE, 2 HOLD), the time of the last
command other than Keep Alive, the last time a GUARD cause held, and consecutive missing acknowledgements by
regulator. -/
structure Pwr where
  rails : FMap Rail := []
  cfgs : FMap Nat := []
  seq : List Nat := []
  seqAt : Nat := 0
  sense : Sense := {}
  entry : Option Nat := none
  lastCmd : Nat := 0
  guardAt : Nat := 0
  nacks : FMap Nat := []
  deriving DecidableEq, Repr

/-! ### Thermal channels (R621–R636) -/

/-- A thermal channel: the words of CH_CFG, CH_PARAM and CH_THR, the last sample's health, fault code and readings in units
of 0.25 °C, per threshold the samples in a row that reached it or fell below it and whether it is reached, and the samples
in a row at or above 115 °C. -/
structure ThCh where
  cfg : Nat := 0
  par : Nat := 0
  thr : Nat := 0
  health : Nat := 3
  fault : Nat := 0
  raw : Int := 0
  eff : Int := 0
  ups : List Nat := [0, 0, 0]
  downs : List Nat := [0, 0, 0]
  got : List Bool := [false, false, false]
  limit : Nat := 0
  deriving DecidableEq, Repr

/-- THM: the channels, since when the present stage holds, whole seconds of ENFORCE counted to this time, the critical stop
under way with its beginning, whether THERM_SHDN_N is driven low, whether Critical Warning bit 1 is set, and the minutes
at or above WCTEMP and CCTEMP with the nanoseconds of the running minute. -/
structure Therm where
  chs : FMap ThCh := []
  stageAt : Nat := 0
  stop : Option Nat := none
  shdn : Bool := false
  crit1 : Bool := false
  asOf : Nat := 0
  enfNs : Nat := 0
  warnNs : Nat := 0
  critNs : Nat := 0
  deriving DecidableEq, Repr

/-! ### Caches (R569–R589) -/

/-- A line a cache holds: its tag and whether it is dirty. The data equals memory's, but for dirty lines. -/
structure CLine where
  tag : Nat
  dirty : Bool
  deriving DecidableEq, Repr

/-- A region: base address, size in 4 KiB pages, policy (R573). -/
structure CRegion where
  base : Nat := 0
  pages : Nat := 0
  policy : Nat := 0
  deriving DecidableEq, Repr

/-- A maintenance request: MAINT_CTRL, first address, set and way. -/
structure CMaint where
  ctrl : Nat
  addr : Nat
  setway : Nat
  deriving DecidableEq, Repr

/-- A cache: the lines held, by set × 16 + way; the pseudo-LRU tree bits of each set; the regions as committed, and the
regions and ways in force since ENABLE last changed to 1 (R571); a maintenance request held by a drain, an ENABLE of 1
written during a drain (R580), and the lines whose parity fails from now on (R581). -/
structure Cache where
  lines : FMap CLine := []
  lru : FMap Nat := []
  regions : FMap CRegion := []
  active : FMap CRegion := []
  ways : Nat := 16
  held : Option CMaint := none
  enable : Bool := false
  bad : List Nat := []
  deriving DecidableEq, Repr

/-! ### Basil, DRAM, sealed memories (R530–R556) -/

/-- A request to Basil: its client, which fixes the minimum pool it names (R532), its size and number of holders. -/
structure BasilReq where
  client : Client
  size : Nat
  holders : Nat
  deriving DecidableEq, Repr

/-- Basil: reference counts and buffers in use, by pool × 2^20 + index, and the stalled requests, oldest first. -/
structure Basil where
  count : FMap Nat := []
  used : List Nat := []
  stalled : List BasilReq := []
  deriving DecidableEq, Repr

/-- DRAM: the serial number of each channel's DIMM, the retired rank with the serial number of its DIMM as the sealed
configuration records it, when a sparing copy began, the times of the corrected errors of each rank, the ranks whose count is
above CE_THR and those that failed with no spare (R544, R548), the period of each channel's last retrain pause, and the sectors
of reads given a second time (R528). -/
structure Dram where
  serials : FMap Nat := []
  retired : Option (Nat × Nat) := none
  copyAt : Nat := 0
  ce : FMap (List Nat) := []
  above : List Nat := []
  noSpare : List Nat := []
  pauses : FMap Nat := []
  again : List (Nat × Nat) := []
  deriving DecidableEq, Repr

/-- The bytes of the sealed memories' test windows, by memory × 64 + offset, with the number of check bits inverted. -/
structure TestByte where
  byte : Nat := 0
  flips : Nat := 0
  deriving DecidableEq, Repr

/-! ### What the sealed configuration and the boot memories hold (R622, R689, R695, R697, R701) -/

/-- A regulator output of the regulator table (R605, R689): its 7-bit PMBus address, its page, and the rail it feeds as an
item of the order of R605. -/
structure Regulator where
  addr : Nat
  page : Nat
  rail : Nat
  deriving DecidableEq, Repr

/-- The board profile (R697): the words of VIN_THR and HOLD_THR, BOARD_MAX, the port MAC addresses, the transmit equalisation
of the ports' eight lanes (R104), the channel words, the regulator table, whether PMBus runs at 1 MHz and not at 400 kHz
(R605), and the default interface table. -/
structure Profile where
  vinThr : Nat
  holdThr : Nat
  boardMax : Nat
  macs : List Nat
  txEq : List Nat
  chCfg : FMap Nat
  chPar : FMap Nat
  chThr : FMap Nat
  regs : List Regulator
  pmbFast : Bool
  ifs : FMap IfEntry
  deriving DecidableEq, Repr

/-- An activation under way (R703): the slot, whether its image copied, the SVN of its package and its image, the byte offset of
a word of the code SRAM that is uncorrectable as the cores start the image (R696), the commit's connection and command
identifier, when the hold began and when it ends. -/
structure FwHold where
  slot : Nat
  ok : Bool
  svn : Nat
  image : List Nat
  ue : Option Nat
  conn : Nat
  cid : Nat
  since : Nat
  due : Nat
  deriving DecidableEq, Repr

/-! ### What a start-up finds (R369, R376, R377, R538, R553, R688–R694) -/

/-- The DIMM of a channel: present, of a supported kind and trained; its rated speed in MT/s, capacity code (0 16, 1 32, 2 64
GiB), ranks and serial number (R537, R538). -/
structure Dimm where
  ok : Bool
  rate : Nat
  cap : Nat
  ranks : Nat
  serial : Nat
  deriving DecidableEq, Repr

/-- The board, the media and the self-tests as a start-up finds them. `sorPass` and `seaPass` are the tests passed, as
SOR.SELFTEST [4:0] and SEA.SELFTEST [6:0]; `badRecs` the copies of key records that fail their tags, by record and copy;
`nor` and `norProfile` the firmware and board profile packages in the SPI NOR, `profile` what the latter holds; `badLinks`
the tiles whose link does not train; `models` the flash die model records that Kenbouc put into the sealed configuration and
`badBlocks` the blocks marked bad, both for provisioning; `cccRegions` and `mccRegions` the cache regions that firmware sets;
`gpio` the levels at the pads; `chkBad` the first record whose CHK fails before the head, `codeUe` the byte offset of a word
of the code SRAM that is uncorrectable as the cores run the image (R696), `badSegs` the segments with neither copy readable,
by key slot; `ms` the length of steps 1 to 6. -/
structure StartEnv where
  sorPass : Nat
  seaPass : Nat
  badCores : List Nat
  badRecs : List (Nat × Nat)
  nor : List Nat
  norProfile : List Nat
  profile : Profile
  dimms : List Dimm
  codeUe : Option Nat
  badLinks : List Nat
  lanes : List LaneFind
  models : List ModelRec
  badBlocks : List (Nat × Nat)
  cccRegions : FMap CRegion
  mccRegions : FMap CRegion
  gpio : Nat
  chkBad : Option Nat
  badSegs : List (Nat × Nat)
  ms : Nat
  deriving DecidableEq, Repr

/-! ### Modes, units out of service -/

/-- What the part is doing (R591, R678, R688): held in reset until start-up begins, starting up, or in a mode. -/
inductive Mode
  | reset | starting | run | guard | doze | hold | service
  deriving DecidableEq, Repr

/-- Units recorded out of service in the sealed configuration (R668, R669): flash dies by die index, lanes, tiles, and
cipher cores. -/
structure Oos where
  dies : List Nat := []
  lanes : List Nat := []
  tiles : List Nat := []
  cores : List Nat := []
  deriving DecidableEq, Repr

end Sys2Proof.Machine
end

