-- ==== Sys2Proof/Syntax.lean ====
section
/-! DEFINITION. The commands of the block: one constructor per row of spec/opcode_table.json, in the table's order, each
with what the world outside hands over with it. -/

namespace Sys2Proof

open Sys2Proof.Machine

/-- A command, an event at a pin or in the media, or the end of something timed, as spec/opcode_table.json lists them. -/
inductive Instr
  /-- R29. A 256-byte Nimbus frame arrives at a link receiver; data frames are delivered in sequence order and duplicates are
  discarded. -/
  | nimbusFrameReceived (n : Fin 4) (w : NimWay) (phase : Nat) (b : List Nat)
  /-- R32. A transmitter receives a replay request and resends every data frame from the named sequence number. -/
  | replayRequest (n : Fin 4) (w : NimWay) (seq : Nat)
  /-- R32. The requested frame has not arrived within 1 µs, so the receiver repeats the replay request. -/
  | replayRequestTimeout (n : Fin 4) (w : NimWay)
  /-- R27. A frame slot of the link passes; the transmitter sends the next data frame, or an idle frame when it has none. -/
  | nimbusTxFrame (n : Fin 4) (w : NimWay) (offer : Option NimMsg)
  /-- R36. A write of 1 to NIMn.LINK_CTRL.RETRAIN_REQ starts a retrain. -/
  | retrainReq (p : Path) (n : Fin 4) (v : Nat)
  /-- R34. A training attempt of a retrain ends in success, which brings the link UP and replays frames, or in failure, which
  starts another attempt. -/
  | trainingAttemptEnd (n : Fin 4) (r : Option Phases)
  /-- R14. A write reaches a register that has no behaviour of its own, under the access checks and the access codes. -/
  | registerWrite (p : Path) (addr : Nat) (v : Nat)
  /-- R15. A read of an RC field returns its value and clears it, keeping an event that falls in the same cycle. -/
  | rcRead (p : Path) (addr : Nat)
  /-- R57. A write of 1 to PAGE.CTRL.ERR_CLR clears the error capture registers and re-arms capture. -/
  | errClr (p : Path) (page : Nat) (v : Nat)
  /-- R82. MF reads up to four runs of registers, receiving one entry with value and access status per register. -/
  | regRead (q : Capsule)
  /-- R84. MF writes a batch of register entries in order, stopping at the first refused entry. -/
  | regWrite (q : Capsule) (l : List (Nat × Nat))
  /-- R89. A sideband Write command writes one register over I3C or SMBus. -/
  | sbWrite (b : SbBus) (addr : Nat) (v : Nat)
  /-- R89. A sideband Read command reads one register over I3C or SMBus. -/
  | sbRead (b : SbBus) (addr : Nat)
  /-- R89. A sideband Last result command returns the result of the last Write or Read again. -/
  | sbLastResult (b : SbBus)
  /-- R94. A sideband transaction with an unknown command byte is discarded and reported to MGT. -/
  | sbBadCommand (b : SbBus)
  /-- R88. An I3C controller assigns the sideband a dynamic address by SETDASA or ENTDAA. -/
  | i3cAddressAssign (a : Fin 128)
  /-- R98. MF reads log page 0xE0; with Retain Asynchronous Event cleared the register-interrupt event is re-armed. -/
  | getLogRegInterrupts (q : Capsule)
  /-- R107. An Ethernet frame arrives and is accepted against the interface table or discarded. -/
  | frameReceived (f : EthFrame)
  /-- R542. Data leaves a real-time port FIFO for DRAM, lowering the level; panic may end and PFC may resume. -/
  | rtpDrain (p : Fin 2) (prio : Fin 8) (bytes : Nat)
  /-- R114. Half the quanta pass while the level stays at or above XON_KIB, so the PFC frame is sent again. -/
  | pfcRefreshTimer (p : Fin 2) (prio : Fin 8)
  /-- R113. A received PFC frame stops transmission on the priorities it names, or resumes them with quanta 0. -/
  | pfcFrame (p : Fin 2) (f : PfcFrame)
  /-- R113. The pause time of a received PFC frame ends and transmission on that priority resumes. -/
  | pfcPauseExpiry (p : Fin 2) (prio : Fin 8)
  /-- R109. An ARP frame for an IPv4 interface goes to firmware, which answers it. -/
  | arpRequest (p : Fin 2) (vlan : Nat) (a : ArpAsk)
  /-- R109. An ICMPv6 Neighbor Solicitation for an IPv6 interface goes to firmware, which answers it. -/
  | neighborSolicitation (p : Fin 2) (vlan : Nat) (a : NbrAsk)
  /-- R109. Firmware answers an ICMPv4 or ICMPv6 echo request. -/
  | icmpEcho (p : Fin 2) (vlan : Nat) (a : EchoAsk)
  /-- R103. A port gains alignment-marker lock on all lanes with no high symbol error rate for 10 ms and reports link up. -/
  | linkUp (p : Fin 2)
  /-- R103. A port loses lock or enters high symbol error rate, reports link down and starts holding its connections. -/
  | linkDown (p : Fin 2) (highSer : Bool)
  /-- R126. LINK_HOLD ends with the port still down, and the connections on that port are lost. -/
  | linkHoldExpiry (p : Fin 2)
  /-- R118. A received congestion notification packet drops the queue pair's send rate, at most once per DEC_GAP. -/
  | cnpReceived (id : Nat)
  /-- R118. INC_PERIOD passes without a drop and the queue pair's send rate rises by INC_STEP. -/
  | rateIncrease (id : Nat)
  /-- R120. An RDMA CM connect request takes a pool entry, or is rejected when the pool is empty. -/
  | rdmaCmConnectRequest (r : RdmaConnect)
  /-- R120. A TCP SYN takes a pool entry, or is answered with RST when the pool is empty. -/
  | tcpSyn (y : SynSegment)
  /-- R132. An NVMe/TCP ICReq negotiates the connection, including header and data digests. -/
  | icreq (id : Nat) (hdgst : Bool) (ddgst : Bool)
  /-- R133. An NVMe/TCP data PDU arrives; a header digest failure ends the connection and a data digest failure fails its
  command. -/
  | h2cDataPdu (id : Nat) (cid : Nat) (len : Nat) (d : Digests)
  /-- R131. The RoCEv2 local ACK timeout expires; the part retries, and after 7 retries the queue pair enters the error
  state. -/
  | ackTimeout (id : Nat)
  /-- R134. The TCP retransmission timeout expires; after 8 retransmissions of one segment the connection is reset. -/
  | tcpRetransmitTimeout (id : Nat)
  /-- R124. The host resets or closes a TCP connection, and the connection is lost. -/
  | tcpCloseReceived (id : Nat)
  /-- R135. A TLS ClientHello starts a PSK handshake, or ends in an alert if nothing it offers is supported. -/
  | tlsClientHello (id : Nat) (h : Hello)
  /-- R137. A handshake completes and Sorrel writes the traffic keys into a transport key slot. -/
  | tlsHandshakeDone (id : Nat)
  /-- R138. A TLS record is opened; an authentication failure ends the connection with bad_record_mac. -/
  | tlsRecordReceived (id : Nat) (r : TlsRecord)
  /-- R475. A received KeyUpdate makes Sorrel compute the next traffic secret of that direction into the same slot. -/
  | tlsKeyUpdate (id : Nat)
  /-- R142. A write of ETHn.WAKE_KEY1_HI commits all four wake key words as one update. -/
  | wakeKeyCommit (p : Path) (port : Fin 2) (v : Nat)
  /-- R112. A write of TTE.IF_SEL loads the selected interface entry into IF_ADDR0 to IF_ADDR3 and IF_CFG. -/
  | ifSelLoad (p : Path) (v : Nat)
  /-- R112. A write of TTE.IF_CFG commits the interface entry; connections that no longer match are lost. -/
  | ifCfgCommit (p : Path) (v : Nat)
  /-- R122. A fabrics Connect is checked for CNTLID, tenant state, host and busy association, then creates an admin or I/O
  queue. -/
  | connect (q : Capsule) (d : ConnectData)
  /-- R159. A fabrics Disconnect ends the queue's connection. -/
  | disconnect (q : Capsule)
  /-- R159. A fabrics Property Get returns a controller property. -/
  | propertyGet (q : Capsule)
  /-- R159. A fabrics Property Set writes a controller property that has no behaviour of its own. -/
  | propertySet (q : Capsule)
  /-- R185. The host clears CC.EN, and the controller is reset with reset kind CONTROLLER in the steps of R185. -/
  | ccEnClear (q : Capsule)
  /-- R185. Dispatched commands finish, the I/O queues are deleted and CSTS.RDY reads 0. -/
  | controllerResetDone (f : Nat)
  /-- R187. The host writes CC.SHN; outstanding commands complete, acknowledged writes are made durable, and CSTS.SHST
  becomes 0b10. -/
  | ccShutdown (q : Capsule)
  /-- R140. A DH-HMAC-CHAP message from the host is processed by firmware and Sorrel. -/
  | authenticationSend (q : Capsule) (m : AuthStep)
  /-- R140. The host reads the next DH-HMAC-CHAP message; a failed exchange ends the association. -/
  | authenticationReceive (q : Capsule)
  /-- R127. CFE completes Keep Alive within 100 µs and restarts the keep-alive timer. -/
  | keepAlive (q : Capsule)
  /-- R125. The keep-alive timeout passes without a command or a reattaching admin Connect, and the controller is reset with
  kind CONTROLLER. -/
  | keepAliveTimeout (f : Nat)
  /-- R123. The discovery controller returns the discovery log of the tenants that allow the host on the interface. -/
  | discoveryGetLogPage (q : Capsule)
  /-- R165. A Read is admitted, ordered after overlapping writes, looked up in the map and served from flash or staging. -/
  | read (q : Capsule) (bad : List Nat) (corr : Nat)
  /-- R348. A Write is admitted, encrypted, staged and acknowledged under the ack window. -/
  | write (q : Capsule) (data : List Nat) (corr : Nat)
  /-- R294. A Write Zeroes writes encrypted zero sectors, or with DEAC set in a conventional namespace unmaps its range. -/
  | writeZeroes (q : Capsule)
  /-- R294. A Dataset Management Deallocate unmaps its ranges in a conventional namespace. -/
  | datasetManagement (q : Capsule) (ranges : List (Nat × Nat))
  /-- R171. A Flush completes once every write acknowledged before its admission is programmed with its paired word-line
  group. -/
  | flush (q : Capsule)
  /-- R256. A Zone Append places its data at the zone's write pointer and returns the ALBA. -/
  | zoneAppend (q : Capsule) (data : List Nat)
  /-- R243. Zone Management Send Open makes a zone Explicitly Opened. -/
  | zoneOpen (q : Capsule)
  /-- R243. Zone Management Send Close makes an open zone Closed, or Empty at the zone start. -/
  | zoneClose (q : Capsule)
  /-- R246. Zone Management Send Finish sets the write pointer to the zone end and makes the zone Full. -/
  | zoneFinish (q : Capsule)
  /-- R248. Zone Management Send Reset empties the zone and raises its epoch. -/
  | zoneReset (q : Capsule)
  /-- R250. Zone Management Send Offline makes a Read Only zone Offline and releases its blocks. -/
  | zoneOffline (q : Capsule)
  /-- R241. Zone Management Receive Report Zones returns zone descriptors. -/
  | reportZones (q : Capsule)
  /-- R159. A Get Log Page returns a log page that has no behaviour of its own. -/
  | getLogPage (q : Capsule)
  /-- R180. A tenant reads log page 0xC0; with Retain Asynchronous Event cleared the read empties it and re-arms the event. -/
  | getLogDeferredErrors (q : Capsule)
  /-- R233. A tenant reads log page 0xC1 with identifier 0x0000, optionally clearing its tenant recorder. -/
  | getLogTenantStatus (q : Capsule)
  /-- R653. A tenant reads the device recorder image through log page 0xC1 with identifier 0x0001. -/
  | getLogDeviceRecorder (q : Capsule)
  /-- R743. A tenant reads the Changed Zone List 0xBF of a zoned namespace; without Retain the list is emptied. -/
  | getLogChangedZoneList (q : Capsule)
  /-- R159. Identify returns controller, namespace or list data for the supported CNS values. -/
  | identify (q : Capsule)
  /-- R183. Abort aborts its target if it has not passed its dispatch point, serialised against completion commit. -/
  | abort (q : Capsule)
  /-- R159. Set Features sets a supported feature. -/
  | setFeatures (r : FeatureSet)
  /-- R159. Get Features returns a supported feature. -/
  | getFeatures (q : Capsule)
  /-- R159. An Asynchronous Event Request is held until an event completes it. -/
  | asynchronousEventRequest (q : Capsule)
  /-- R452. A command's completion entry commits; credits return, deadline misses and metering are counted. -/
  | completionCommit (conn : Nat) (cid : Nat)
  /-- R485. Format NVM starts a crypto-erase of the namespace. -/
  | formatNvm (q : Capsule)
  /-- R484. Sanitize with SANACT 0b100 crypto-erases every namespace of the tenant. -/
  | sanitizeCryptoErase (q : Capsule)
  /-- R159. Sanitize with SANACT 0b001 exits failure mode. -/
  | sanitizeExitFailure (q : Capsule)
  /-- R485. The commands before the crypto-erase have completed; Sorrel writes the new key record with the erase cut. -/
  | cryptoEraseCommit (k : Nat)
  /-- R485. The namespace's map is unmapped, zones emptied and counters reset, ending the crypto-erase. -/
  | cryptoEraseDone (k : Nat)
  /-- R701. Firmware Image Download writes a piece of a package into the download buffer. -/
  | firmwareImageDownload (q : Capsule) (data : List Nat)
  /-- R702. Firmware Commit CA 0b000 checks the buffered package and writes it to a slot, or seals a board profile. -/
  | fwCommitReplace (q : Capsule) (p : Profile) (w : SlotEnd)
  /-- R702. Firmware Commit CA 0b001 writes the package and makes the slot NEXT in trial. -/
  | fwCommitReplaceTrial (q : Capsule) (w : SlotEnd)
  /-- R702. Firmware Commit CA 0b010 makes a valid slot NEXT. -/
  | fwCommitSelectNext (q : Capsule)
  /-- R703. Firmware Commit CA 0b011 activates a slot in place under the admission hold. -/
  | fwCommitActivate (q : Capsule) (us : Nat) (c : CopyEnd)
  /-- R211. MF creates a tenant from a parameter block and reserves its resources. -/
  | tenantCreate (q : Capsule) (b : FMap Byte)
  /-- R213. MF replaces a tenant's descriptor, requiring a quiesce for disruptive changes. -/
  | tenantModify (q : Capsule) (b : FMap Byte)
  /-- R227. MF resets a quiesced tenant with reset kind TENANT. -/
  | tenantReset (q : Capsule)
  /-- R228. MF removes a quiesced tenant, destroying its keys and releasing its resources. -/
  | tenantRemove (q : Capsule)
  /-- R216. MF creates a namespace in a die set with an unbound key slot. -/
  | nsCreate (q : Capsule) (b : FMap Byte)
  /-- R219. MF deletes a namespace, destroying its key slot first. -/
  | nsDelete (q : Capsule)
  /-- R209. MF commits the interface, port and congestion registers to the sealed configuration. -/
  | configSave (q : Capsule)
  /-- R474. MF installs a wrapped credential, which Sorrel unwraps under the tenant's K_WRAP. -/
  | tenantCred (q : Capsule) (data : List Nat)
  /-- R220. A write of 1 to TFn.CTRL.QUIESCE stops admission for the tenant and starts the drain. -/
  | quiesce (p : Path) (t : Fin 512)
  /-- R220. The last command admitted before the quiesce completes, and QUIESCED is set. -/
  | quiesceComplete (t : Nat)
  /-- R223. A write of 0 to QUIESCE ends the quiesce and resumes admission. -/
  | quiesceEnd (p : Path) (t : Fin 512)
  /-- R268. MF creates a die set, choosing its members lane by lane. -/
  | diesetCreate (q : Capsule) (b : FMap Byte)
  /-- R266. MF deletes a die set that holds no namespace. -/
  | diesetDelete (q : Capsule)
  /-- R271. MF reads the report of one die set. -/
  | diesetInfo (q : Capsule)
  /-- R271. DIESET_INFO with CDW10 bit 7 set returns the population bitmaps. -/
  | diesetPopulation (q : Capsule)
  /-- R663. MF reads the metering records of a range of tenant numbers. -/
  | meterRead (q : Capsule)
  /-- R593. MF asks for power state 0, 1 or 2. -/
  | powerState (q : Capsule)
  /-- R677. MF reads a snapshot of the central fault log. -/
  | faultRead (q : Capsule)
  /-- R677. FAULT_READ with CLEAR set empties the fault log after the snapshot. -/
  | faultReadClear (q : Capsule)
  /-- R683. DEVICE_RESET with FORCE 0 runs the orderly stop with reset kind DEVICE. -/
  | deviceReset (q : Capsule)
  /-- R683. DEVICE_RESET with FORCE 1 takes a part reset of kind DEVICE at once. -/
  | deviceResetForce (q : Capsule)
  /-- R706. MF sends a debug token in SERVICE, which on acceptance zeroes keys and unlocks the named scope. -/
  | debugToken (q : Capsule) (data : List Nat)
  /-- R708. MF removes the geometry and out-of-service records so that the next start-up provisions. -/
  | provisionReset (q : Capsule)
  /-- R524. The MF vendor admin command MIG_ABORT ends a tenant's migration. -/
  | migAbortCmd (q : Capsule)
  /-- R461. An SPDM GET_VERSION request is answered. -/
  | spdmGetVersion (a : SpdmAsk)
  /-- R461. An SPDM GET_CAPABILITIES request is answered. -/
  | spdmGetCapabilities (a : SpdmAsk)
  /-- R461. An SPDM NEGOTIATE_ALGORITHMS request is answered. -/
  | spdmNegotiateAlgorithms (a : SpdmAsk)
  /-- R461. An SPDM GET_DIGESTS request is answered. -/
  | spdmGetDigests (a : SpdmAsk)
  /-- R461. An SPDM GET_CERTIFICATE request returns the slot 0 certificate chain. -/
  | spdmGetCertificate (q : Capsule) (head : List Nat) (rest : List Nat)
  /-- R461. An SPDM CHALLENGE is answered with a DIK signature. -/
  | spdmChallenge (q : Capsule) (req : List Nat)
  /-- R462. An SPDM GET_MEASUREMENTS request returns the signed measurement blocks. -/
  | spdmGetMeasurements (q : Capsule) (head : List Nat) (rest : List Nat)
  /-- R461. Any other SPDM request is answered with ERROR UnsupportedRequest. -/
  | spdmUnsupportedRequest (q : Capsule) (req : List Nat)
  /-- R466. Security Receive returns the pending SPDM or key agreement response, or the supported protocol list. -/
  | securityReceive (q : Capsule)
  /-- R470. A function enrolls, and Sorrel derives its agreement keys and returns a signed response. -/
  | enroll (q : Capsule) (ctr : Nat) (form : Nat) (xy : List Nat)
  /-- R472. A tenant binds a fresh data key into its namespace's slot. -/
  | bind (q : Capsule) (h : KaHdr) (nsid : Nat)
  /-- R469. A function reads the key slot states of its namespaces. -/
  | status (q : Capsule) (h : KaHdr)
  /-- R504. The source starts a migration and allocates the written-unit log. -/
  | migBegin (q : Capsule) (h : KaHdr) (mask : Nat)
  /-- R508. The source swaps the live bitmaps and event ring into the snapshot. -/
  | migSwap (q : Capsule) (h : KaHdr)
  /-- R512. The source exports records of units from the snapshot or all units. -/
  | migExport (q : Capsule) (h : KaHdr) (nsid : Nat) (flags : Nat) (first : Nat) (last : Nat) (maxb : Nat) (visits : Nat) (bad : List Nat)
  /-- R509. The source returns the snapshot zone event ring. -/
  | migEvents (q : Capsule) (h : KaHdr)
  /-- R513. The source returns zone descriptors. -/
  | migZones (q : Capsule) (h : KaHdr) (nsid : Nat) (first : Nat) (count : Nat)
  /-- R519. The source refuses writes to the migrating namespaces and drains earlier commands. -/
  | migFreeze (q : Capsule) (h : KaHdr)
  /-- R519. Commands before the freeze have completed, the counters are final and the response is ready. -/
  | migFreezeDone (t : Nat)
  /-- R521. The source verifies the destination's token and returns the wrapped key package. -/
  | migKeyExport (q : Capsule) (h : KaHdr) (x : List Nat)
  /-- R524. The key agreement operation MIG_ABORT ends the migration at source or destination. -/
  | migAbort (q : Capsule) (h : KaHdr)
  /-- R515. The destination prepares import and returns a signed ephemeral public key. -/
  | importBegin (q : Capsule) (h : KaHdr) (mask : Nat)
  /-- R516. The destination applies exported unit records. -/
  | importData (q : Capsule) (h : KaHdr) (nsid : Nat) (recs : List Nat)
  /-- R517. The destination sets zones from descriptors. -/
  | importZone (q : Capsule) (h : KaHdr) (nsid : Nat) (z : ZoneSpan) (ds : List Nat)
  /-- R518. The destination makes the imports durable. -/
  | importCommit (q : Capsule) (h : KaHdr)
  /-- R523. The destination verifies the key package and binds the namespace keys. -/
  | importKey (q : Capsule) (h : KaHdr) (p : List Nat)
  /-- R437. A flash operation enters a flash die's Cirrus queue with its deadline and is dispatched when a waiting place
  allows. -/
  | operationQueued (die : Nat)
  /-- R442. GATHER_US passes after the first read with SUSPEND, and Cirrus sends the earliest read. -/
  | gatherExpiry (die : Nat)
  /-- R440. A BULK read comes within tPROG + 1 ms of its deadline and gains the SUSPEND flag. -/
  | bulkEscalation (die : Nat)
  /-- R444. A BG_WIN window ends, λ is recomputed and held background operations are judged, or forced after HELD_WIN
  windows. -/
  | bgWindowEnd (die : Nat)
  /-- R448. A tenant or throttle bucket refills above 0, and the tenant's waiting commands may be taken again. -/
  | bucketRefill
  /-- R380. A lane receives an operation descriptor for a flash die and starts it, queues it in its waiting place, or refuses
  it. -/
  | laneDescriptor (die : Nat)
  /-- R379. A READ's flash die reports ready and its codewords are transferred to the decoders. -/
  | readComplete (die : Nat)
  /-- R382. A PROGRAM ends with status OK or PROG_FAIL; a failure retires the block and places its data anew. -/
  | programComplete (die : Nat) (ok : Bool)
  /-- R382. An ERASE ends with status OK or ERASE_FAIL. -/
  | eraseComplete (die : Nat) (ok : Bool)
  /-- R384. The flash die accepts SUSPEND, and the waiting read starts. -/
  | suspendAccepted (die : Nat)
  /-- R384. A program or erase has run RUN_MIN_US, and a waiting read with SUSPEND is evaluated again. -/
  | runMinExpiry (die : Nat)
  /-- R386. A suspension exceeds ERASE_HOLD_MS or PROG_HOLD, and the operation resumes. -/
  | suspendHoldExpiry (die : Nat)
  /-- R381. An operation is not ready within twice its maximum time; the lane sends RESET_LUN and ends it with TIMEOUT. -/
  | operationTimeout (die : Nat)
  /-- R381. A LUN reports ready after RESET_LUN and accepts its next operation. -/
  | resetLunReady (die : Nat)
  /-- R381. A LUN is not ready 10 ms after RESET_LUN; the flash die leaves service. -/
  | lunStuck (die : Nat)
  /-- R371. Every 128 ms a lane runs ZQ Calibration Short on each populated CE_n. -/
  | zqCalShort (lane : Nat)
  /-- R371. The tile temperature moves 8 °C since a CE_n was trained, and the lane runs read DQ training. -/
  | readDqTrain (lane : Nat) (ce : Nat) (temp : Int)
  /-- R391. A Thyme sequencer executes one microword of the running context and selects the next address. -/
  | thymeMicroword (lane : Nat) (e : ThymeEnv)
  /-- R396. A write of LANnn.DIAG_CTRL.GO starts a diagnostic read of one codeword. -/
  | diagRead (p : Path) (l : Fin 64) (v : Nat)
  /-- R402. A diagnostic read ends and DIAG_STAT reports its result. -/
  | diagReadDone (lane : Nat) (r : DiagResult)
  /-- R418. A hard decode of a codeword ends; success ends the climb and failure moves to the next ladder step. -/
  | hardDecodeDone (climb : Nat) (converged : Bool) (zeros : Nat)
  /-- R417. A soft decoding pass ends, refining the detector table, and converges or continues the climb. -/
  | softPassDone (climb : Nat) (converged : Bool) (counts : List (Nat × Nat))
  /-- R426. A read-after-write sample is compared with its staged copy; a failure moves the group and marks the block
  suspect. -/
  | rawSampleDone (band : Nat) (row : Nat) (mem : Nat) (diff : Nat) (decoded : Bool)
  /-- R488. A cipher job arrives and is given to a free core, or preempts a core if it is STRICT. -/
  | cipherJobArrival (r : JobReq)
  /-- R490. A cipher job ends; a sector tag may fail, and the core takes the next or resumed job. -/
  | cipherJobDone (core : Nat) (intact : Bool)
  /-- R460. A continuous entropy health test fails while the part runs, causing a FATAL reset. -/
  | healthTestFail
  /-- R338. 64 µs pass after the oldest staged record arrived, and MRJ flushes the staged records. -/
  | journalFlushTimer
  /-- R339. A flush completes, releasing the acknowledgements and actions that waited for their records. -/
  | journalFlushDone
  /-- R342. Firmware checkpoints a map or table segment to two SLC copies and updates the directory. -/
  | segmentCheckpoint (seg : Option (Nat × Nat))
  /-- R352. A counter's new reservation mark becomes durable, releasing waiting assignments. -/
  | markDurable (m : MarkOf)
  /-- R350. Firmware relocates a victim band through copy, commit, release and erase. -/
  | relocation (d : Nat)
  /-- R321. PATROL_H passes, and firmware patrols each closed band, queueing aged or weak bands for refresh. -/
  | patrolTimer
  /-- R610. VIN_SENSE is sampled; a warning counts toward GUARD and five samples below PFW_MV raise PF_WARN. -/
  | vinSample (mv : Nat)
  /-- R355. The programs of step 3 end, and MRJ writes the final marks and the sequence-complete mark. -/
  | plProgramsDone
  /-- R356. 10 ms pass after the sequence with input restored and no reset, and the part takes a SUPPLY reset. -/
  | plRestartTimer
  /-- R611. HOLD_SENSE is sampled; below READY_MV the window acts as 0, below RESET_MV a SUPPLY reset follows. -/
  | holdSample (mv : Nat)
  /-- R541. A channel's retrain time comes and it pauses to retrain DQ timing. -/
  | dramRetrain (ch : Fin 8) (ns : Nat)
  /-- R547. A DRAM line reads uncorrectable; the line is lost with an outcome per region and the rank fails. -/
  | dramUe (rank : Fin 16) (a : Nat) (c : DramContent) (replaced : Bool)
  /-- R544. A write of DRX.SPARE_CTRL.FORCE fails the named in-service rank. -/
  | spareForce (p : Path) (v : Nat)
  /-- R545. The sparing copy ends, and the spare takes the failed rank's position. -/
  | spareCopyDone
  /-- R528. A transit SRAM word reads uncorrectable, with an outcome per content. -/
  | transitSramUe (off : Nat) (c : SramContent)
  /-- R531. A client requests a buffer, served from an eligible pool or stalled. -/
  | basilAllocate (client : Client) (size : Nat) (pool : Nat) (holders : Nat)
  /-- R533. A share operation adds to a buffer's reference count. -/
  | basilShare (pool : Nat) (off : Nat) (n : Nat)
  /-- R533. A release subtracts 1 and frees the buffer at 0, serving the oldest stalled request. -/
  | basilRelease (pool : Nat) (off : Nat) (shares : Nat)
  /-- R552. An uncorrectable byte of a sealed memory causes a SEALED reset. -/
  | sealedUe (m : Fin 7) (off : Nat)
  /-- R555. The sealed-memory patrol reads the next byte and corrects it if needed. -/
  | scrubRead (m : Fin 7) (off : Nat) (r : ReadFinds)
  /-- R556. A write of SEA.TEST_DATA writes a test window byte, corrupting its check bits if FLIP is armed. -/
  | testDataWrite (p : Path) (v : Nat)
  /-- R556. A read of SEA.TEST_DATA decodes the byte, correcting or causing a SEALED reset. -/
  | testDataRead (p : Path)
  /-- R576. Cache maintenance Clean writes back dirty lines by address or set and way. -/
  | cacheClean (p : Path) (c : CacheId) (w : MaintWrite)
  /-- R576. Cache maintenance Invalidate drops lines, discarding dirty data. -/
  | cacheInvalidate (p : Path) (c : CacheId) (w : MaintWrite)
  /-- R576. Cache maintenance Clean and invalidate writes back then drops lines. -/
  | cacheCleanInvalidate (p : Path) (c : CacheId) (w : MaintWrite)
  /-- R576. Cache maintenance Preload fills a range into allowed ways. -/
  | cachePreload (p : Path) (c : CacheId) (w : MaintWrite)
  /-- R576. A maintenance request with an invalid operation runs nothing and is reported. -/
  | cacheMaintInvalid (p : Path) (c : CacheId) (v : Nat)
  /-- R589. A cache maintenance operation ends. -/
  | maintDone (i : CacheId)
  /-- R571. ENABLE changes from 0 to 1, applying held ways and regions with every line invalid. -/
  | cacheEnable (p : Path) (c : CacheId) (v : Nat)
  /-- R579. ENABLE is cleared; the cache enters bypass or starts draining its dirty lines. -/
  | cacheDisable (p : Path) (c : CacheId) (v : Nat)
  /-- R579. Draining ends and the cache is in bypass. -/
  | cacheDrainDone (i : CacheId) (bad : List Nat)
  /-- R585. A write of REG_SEL loads the selected cache region into the region registers. -/
  | regionSelect (p : Path) (c : CacheId) (v : Nat)
  /-- R585. A write of REG_ATTR commits the region registers, held while the cache is enabled. -/
  | regionCommit (p : Path) (c : CacheId) (v : Nat)
  /-- R594. With PS 1 or 2 and the idle conditions met, firmware starts entry into DOZE or HOLD. -/
  | modeEntryStart
  /-- R596. All control cores wait with REQ set, and the part enters DOZE or HOLD. -/
  | modeEntryCommit
  /-- R141. A wake frame with the matching key wakes the part and is discarded. -/
  | wakeFrame (p : Fin 2) (key : Nat) (late : List Nat)
  /-- R143. Energy on a receive lane in HOLD wakes the part or starts that port's SerDes and MAC. -/
  | energyDetect (p : Fin 2) (late : List Nat)
  /-- R143. No matching wake frame arrives within 100 ms and the started port returns to off. -/
  | portWakeTimeout (p : Fin 2)
  /-- R598. WAKE_N low for 10 µs wakes the part from DOZE or HOLD. -/
  | wakeN (late : List Nat)
  /-- R604. A write of PWR.TIMER.SEC starts or stops the always-on timer. -/
  | timerSet (p : Path) (v : Nat)
  /-- R604. The always-on timer expires, setting INT_RAW.TIMER and acting as a wake source. -/
  | timerExpiry (late : List Nat)
  /-- R604. A read of PWR.AON_LO captures AON_HI for the next read. -/
  | aonLoRead (p : Path)
  /-- R603. Firmware writes 1 to a PWR.PAD_HOLD bit to release a held pad group. -/
  | padHoldRelease (v : Nat)
  /-- R606. A commanded rail becomes good and the next rail of the sequence is commanded on. -/
  | railGood (i : Nat)
  /-- R606. A rail is not good within 2 ms; sequencing stops and a SUPPLY reset follows. -/
  | railGoodTimeout
  /-- R607. Every 10 ms the PMBus host reads each regulator's STATUS_WORD and reports faults. -/
  | pmbusPoll (addr : Nat) (page : Nat) (st : Option Nat)
  /-- R609. A rail monitor samples its rail, warning or causing a SUPPLY or POR reset. -/
  | railSample (i : Nat) (mv : Nat)
  /-- R612. EXIT_S passes with no GUARD cause and the part returns to RUN. -/
  | guardExitTimer
  /-- R626. A thermal channel is sampled, its effective reading and level computed and the stage judged. -/
  | thmSample (c : Fin 32) (v : Int) (bad : Bool)
  /-- R628. GRACE passes in NOTIFY and the stage becomes ENFORCE. -/
  | graceExpiry
  /-- R634. SHDN_MS passes, remaining work is abandoned and THERM_SHDN_N is driven low. -/
  | shdnBudgetExpiry
  /-- R643. A second passes; POS rises and REC copies its state to MRAM, closing periods when due. -/
  | posTick
  /-- R656. Wall time crosses a minute, and MTR closes a signed metering record per metered tenant. -/
  | minuteBoundary
  /-- R645. A write of MTR.WALL_SET_HI commits the wall time. -/
  | wallSet (p : Path) (v : Nat)
  /-- R666. A read of MTR.WALL_LO captures WALL_HI. -/
  | wallLoRead (p : Path)
  /-- R652. A write of REC.HOLD.FREEZE freezes the device recorder. -/
  | recFreeze (p : Path)
  /-- R652. A write of REC.HOLD.UNFREEZE ends a freeze and writes held records. -/
  | recUnfreeze (p : Path)
  /-- R652. FREEZE_MAX_S passes and the freeze ends. -/
  | freezeTimeout
  /-- R654. A write of REC.HOLD.CLEAR clears the device recorder. -/
  | recClear (p : Path)
  /-- R665. A read of REC.RD_DATA returns image bytes and advances RD_SEL. -/
  | rdDataRead (p : Path)
  /-- R665. A read of REC.POS_LO captures POS_HI. -/
  | posLoRead (p : Path)
  /-- R675. MRJ writes the next queued fault entry to the central fault log. -/
  | faultLogWrite
  /-- R682. A control core's watchdog expires and the orderly stop begins. -/
  | watchdogExpiry (core : Nat)
  /-- R682. STOP_MS passes during an orderly stop and the part reset takes effect. -/
  | stopBudgetExpiry
  /-- R678. RESET_N low for 1 µs takes a PIN reset. -/
  | resetN
  /-- R678. First power or VDD_AON below its reset threshold takes a POR reset. -/
  | por
  /-- R688. After a part reset the part boots, brings up DRAM, ports and lanes and reaches RUN or SERVICE. -/
  | startUp (e : StartEnv)
  /-- R362. A namespace's recovery ends and it becomes ready. -/
  | namespaceReady (k : Fin 1024)
  /-- R740. A GPIO pad changes between samples and sets INT_RAW when selected. -/
  | gpioEdge (levels : BitVec 16)
  /-- R443. The deadline of a queued program passes while an erase is suspended on a flash die that is not strict, so Cirrus
  may now issue it under the suspended erase. -/
  | programDeadlinePassed (die : Nat)
  /-- R602. A lane's warm bring-up training ends after step 4 of the HOLD wake, and the lane enters service or leaves it at
  1,600 MT/s. -/
  | warmBringUpDone (f : LaneFind)
  /-- R100. The I3C controller enables or disables in-band interrupts, which changes MGT.SB_STAT.IBI_ON and whether the part
  raises in-band interrupts. -/
  | i3cIbiEnable (on : Bool)
  /-- R144. A write of ETHn.PORT_CTRL.ENABLE turns the port's transmitter off and treats the link as down, starting the hold
  of its connections, or turns it back on. -/
  | portEnable (p : Path) (port : Fin 2) (v : Nat)
  /-- R544. A DRAM line reads with a corrected error, which is counted per rank and fails the rank when the count within
  CE_WIN_H exceeds CE_THR. -/
  | dramCorrectedError (rank : Fin 16)
  /-- R227. A TENANT_RESET completes, STATE leaves RESETTING for QUIESCED, and a QUIESCE write of 0 held under R224 takes
  effect. -/
  | tenantResetDone (t : Nat)
  /-- R228. The release of step 3 of TENANT_REMOVE ends, the last metering record is closed, STATE becomes FREE and the
  command completes. -/
  | tenantRemoveDone (t : Nat)
  deriving DecidableEq, Repr

end Sys2Proof
end

