-- ==== Sys2Proof/Decode.lean ====
section
/-! DEFINITION. The words that spell a command by the bits of spec/opcode_table.json. Every row of the table has an empty
list of fields: no command of this block has bits, so no word spells one. -/

namespace Sys2Proof

/-- The command that a word of `nbits` bits spells. -/
def decodeTableWord (nbits w : Nat) : Option Instr :=
  match nbits, w with
  | _, _ => none

end Sys2Proof
end

