-- ==== Sys2Proof/Config.lean ====
section
/-! DEFINITION. What one part fixes and the spec does not state, and the free values: values that the spec leaves
open. Each is an opaque constant without a body, so no proof can see what it is. A free value that may differ from
use to use is applied to the counter `State.free`, which the step reads and advances. -/

namespace Sys2Proof.Config

/-- A value the spec leaves open, 32 bits wide: stale or undefined register content (log 4). -/
opaque freeWord : Nat → BitVec 32

/-- Undefined content of a data buffer, one number per sector (R174; log 4). -/
opaque freeSector : Nat → Nat

/-- A fresh random value of 64 bits: challenges, nonces, random fields (R459, R461; log 5). -/
opaque freeRandom : Nat → BitVec 64

/-- Byte `row, column` of parity-check matrix `m`: the spec publishes no matrix (R410, R429; log 6). -/
opaque hmat : Nat → Nat → Nat → BitVec 8

/-- Word `a` of the Thyme ROM of a tile: the spec publishes no ROM content (R389, R394; log 6). -/
opaque thymeRom : Nat → BitVec 128

/-- The ROM address at which the routine of an operation kind starts: 0 read, 1 program, 2 SLC program, 3 erase
(R389; log 6). -/
opaque thymeEntry : Nat → Nat

/-- The Thyme ROM version that TILn.THY_VER reports (R397; log 6). -/
opaque romVersion : BitVec 16

/-- Later steppings of a chiplet than its first, of which PAGE.VER.STEP is the number after (R55; log 6): 0 the hub, 1 to 4
the tiles. -/
opaque stepping : Nat → BitVec 16

/-- Content of a log page, Identify structure or message that the spec names without stating it whole
(R159, R203, R461; log 4). -/
opaque freeData : Nat → List Nat

/-- Rated endurance of a cell mode, by bits per cell, as the sealed configuration gives it (R307; log 6). -/
opaque endurance : Nat → Nat

/-- Which way a tie of a rounding goes that the spec does not settle (R417; log 12). -/
opaque roundUp : Int → Bool

/-- The reading of a remote diode or thermistor channel, in quarter degrees, where the spec states none: by CH_PARAM and what is
measured (R623, R638; log 174). -/
opaque tempUnstated : Nat → Int → Int

/-- The part's serial number of 16 bytes (R203, R470; log 6). -/
opaque serial : Nat

/-- The 32 bytes of the device secret in fuses (R458; log 11). -/
opaque deviceSecret : List Nat

/-- The values that Sorrel's generator gives, by number: 512 bits each (R460; log 11). -/
opaque keyBits : Nat → BitVec 512

/-- The Kenbouc root certificate, and the intermediate and device certificates after it, as DER (R458; log 11). -/
opaque rootCert : List Nat
opaque deviceCerts : List Nat

/-- A certificate chain verifies up to the Kenbouc root: the serial number and the public key that its device certificate
names (R520; log 11). -/
opaque certifies : List Nat → Option (Nat × List Nat)

/-- The bytes of the boot ROM (R462; log 11). -/
opaque bootRom : List Nat

/-- A value of DH-HMAC-CHAP that Sorrel computes under a secret from its inputs (R475; log 11). -/
opaque chap : Nat → List Nat → Nat

/-- Byte `i` of the LDPC parity over the information bytes by a base matrix, which its entries decide (R410–R412; log 6). -/
opaque ldpcParity : Nat → List Nat → Nat → Nat

/-- Digest of a public key that the boot ROM holds: kind 0 for the signing keys, 1 for the debug keys, by KEY_ID (R698, R706;
log 11). -/
opaque keyDigest : Nat → Nat → Nat

/-- A signing key is revoked in fuses (R698; log 6). -/
opaque keyRevoked : Nat → Bool

/-- The MiB of DRAM where firmware places a segment of a key slot's map: it lies anywhere in the forward-map pool (R295;
log 6). -/
opaque segMib : Nat → Nat → Nat

/-- DRAM byte address of a segment's entry in the segment table of a key slot, whose layout is open (R295; log 6). -/
opaque segTable : Nat → Nat → Nat

end Sys2Proof.Config
end

