-- ==== Sys2Proof/Machine/RegTypes.lean ====
section
/-! DEFINITION. The register space: page kinds, access codes, the shape of a field, and the page directory
(00_scope.md R12; 02_register_pages.md R50, R54, R65). -/

namespace Sys2Proof.Machine

/-! ### Bit fields (R8) -/

/-- Bits `hi` down to `lo` of a number, as a number (the `[msb:lsb]` of R8). -/
def bitsOf (v hi lo : Nat) : Nat := (v / 2 ^ lo) % 2 ^ (hi + 1 - lo)

/-- The mask of bits `hi` down to `lo`. -/
def maskOf (hi lo : Nat) : Nat := (2 ^ (hi + 1 - lo) - 1) * 2 ^ lo

/-- `v` with bits `hi` down to `lo` replaced by `x` (cut to the field's width). -/
def putBits (v hi lo x : Nat) : Nat :=
  v - (v / 2 ^ lo % 2 ^ (hi + 1 - lo)) * 2 ^ lo + (x % 2 ^ (hi + 1 - lo)) * 2 ^ lo

/-- Quotient rounded up. -/
def ceilDiv (a b : Nat) : Nat := (a + b - 1) / b

/-! ### Pages and fields -/

/-- The kinds of register page (R65). -/
inductive PageKind
  | dir | pwr | thm | recd | mtr | boot | fwp | sea | mgt | gpio | dbg | eth | tte | cfe | qeng | zne | mape | mcc
  | ccc | bas | csx | sor | mrj | drx | drc | nim | til | sig | lan | tf
  deriving DecidableEq, Repr

/-- The access codes of R12. -/
inductive Access
  | ro | rw | rw1c | rw1s | wo | rc | rsv
  deriving DecidableEq, Repr

/-- One field of a register: the register's offset in its page, the field's bits, its access code, its reset value,
and whether the reset value is "Boot" (R16: loaded from the sealed configuration during start-up). -/
structure Fld where
  off : Nat
  hi : Nat
  lo : Nat
  acc : Access
  reset : Nat
  boot : Bool
  deriving DecidableEq, Repr

/-- Kind and instance of page number `n`, or none where no page exists (R65). -/
def pageAt (n : Nat) : Option (PageKind × Nat) :=
  match n with
  | 0x00 => some (.dir, 0)
  | 0x01 => some (.pwr, 0)
  | 0x02 => some (.thm, 0)
  | 0x03 => some (.recd, 0)
  | 0x04 => some (.mtr, 0)
  | 0x05 => some (.boot, 0)
  | 0x06 => some (.fwp, 0)
  | 0x07 => some (.sea, 0)
  | 0x08 => some (.mgt, 0)
  | 0x09 => some (.gpio, 0)
  | 0x0A => some (.dbg, 0)
  | 0x10 => some (.eth, 0)
  | 0x11 => some (.eth, 1)
  | 0x12 => some (.tte, 0)
  | 0x13 => some (.cfe, 0)
  | 0x14 => some (.qeng, 0)
  | 0x15 => some (.zne, 0)
  | 0x16 => some (.mape, 0)
  | 0x17 => some (.mcc, 0)
  | 0x18 => some (.ccc, 0)
  | 0x19 => some (.bas, 0)
  | 0x1A => some (.csx, 0)
  | 0x1B => some (.sor, 0)
  | 0x1C => some (.mrj, 0)
  | 0x1D => some (.drx, 0)
  | _ =>
    if 0x20 ≤ n ∧ n ≤ 0x27 then some (.drc, n - 0x20)
    else if 0x30 ≤ n ∧ n ≤ 0x33 then some (.nim, n - 0x30)
    else if 0x34 ≤ n ∧ n ≤ 0x37 then some (.til, n - 0x34)
    else if 0x38 ≤ n ∧ n ≤ 0x3B then some (.sig, n - 0x38)
    else if 0x40 ≤ n ∧ n ≤ 0x7F then some (.lan, n - 0x40)
    else if 0x100 ≤ n ∧ n ≤ 0x2FF then some (.tf, n - 0x100)
    else none

/-- Page number of instance `i` of a kind (R65). -/
def pageNo (k : PageKind) (i : Nat) : Nat :=
  match k with
  | .dir => 0x00
  | .pwr => 0x01
  | .thm => 0x02
  | .recd => 0x03
  | .mtr => 0x04
  | .boot => 0x05
  | .fwp => 0x06
  | .sea => 0x07
  | .mgt => 0x08
  | .gpio => 0x09
  | .dbg => 0x0A
  | .eth => 0x10 + i
  | .tte => 0x12
  | .cfe => 0x13
  | .qeng => 0x14
  | .zne => 0x15
  | .mape => 0x16
  | .mcc => 0x17
  | .ccc => 0x18
  | .bas => 0x19
  | .csx => 0x1A
  | .sor => 0x1B
  | .mrj => 0x1C
  | .drx => 0x1D
  | .drc => 0x20 + i
  | .nim => 0x30 + i
  | .til => 0x34 + i
  | .sig => 0x38 + i
  | .lan => 0x40 + i
  | .tf => 0x100 + i

/-- PAGE.ID.TYPE of a page (R65): the block type code. -/
def pageType (k : PageKind) (i : Nat) : Nat :=
  match k with
  | .dir => 0x0001
  | .pwr => 0x0002
  | .thm => 0x0003
  | .recd => 0x0004
  | .mtr => 0x0005
  | .boot => 0x0006
  | .fwp => 0x0007
  | .sea => 0x0008
  | .mgt => 0x0009
  | .gpio => 0x000A
  | .dbg => 0x000B
  | .eth => 0x0010
  | .tte => 0x0011
  | .cfe => 0x0012
  | .qeng => 0x0013
  | .zne => 0x0014
  | .mape => 0x0015
  | .mcc => 0x0016
  | .ccc => 0x0017
  | .bas => 0x0018
  | .csx => 0x0019
  | .sor => 0x001A
  | .mrj => 0x001B
  | .drx => 0x001C
  | .drc => 0x0020
  | .nim => 0x0030
  | .til => 0x0034
  | .sig => 0x0038
  | .lan => 0x0040
  | .tf => if i < 256 then 0x0100 else 0x0101

/-- PAGE.ID.INST of a page (R54): the instance number; for TFn it is n mod 256. -/
def pageInst (i : Nat) : Nat := i % 256

/-- The chiplet that holds a page's registers (R47, R55): the hub 0, tile t 1 + t. -/
def pageChiplet (k : PageKind) (i : Nat) : Nat :=
  match k with
  | .til => 1 + i
  | .sig => 1 + i
  | .lan => 1 + i / 16
  | _ => 0

end Sys2Proof.Machine
end

