-- ==== Sys2Proof/Machine/RegTable.lean ====
section
/-! DEFINITION. The register map: one constant per field of every register table of the spec (00_scope.md R12, R16,
R18; the page chapters' field tables), and the list of fields of each kind of page. A field the spec's table calls
RSV inside a register is left out (it reads 0 and ignores writes); a register that is all Reserved stands as one RSV
field, so that it counts as defined (R72). ERR_CLR and ASLEEP stand once, in the common header (R57, R59). -/

namespace Sys2Proof.Machine

/-! ### The common header (02_register_pages.md R53–R62) -/
abbrev F.HDR_ID_TYPE : Fld := ⟨0x000, 31, 16, .ro, 0, false⟩
abbrev F.HDR_ID_INST : Fld := ⟨0x000, 15, 8, .ro, 0, false⟩
abbrev F.HDR_ID_SUBPAGE : Fld := ⟨0x000, 7, 0, .ro, 0, false⟩
abbrev F.HDR_VER_MAJOR : Fld := ⟨0x004, 31, 24, .ro, 1, false⟩
abbrev F.HDR_VER_MINOR : Fld := ⟨0x004, 23, 16, .ro, 0, false⟩
abbrev F.HDR_VER_STEP : Fld := ⟨0x004, 15, 0, .ro, 0, false⟩
abbrev F.HDR_CAP0 : Fld := ⟨0x008, 31, 0, .ro, 0, false⟩
abbrev F.HDR_CAP1 : Fld := ⟨0x00C, 31, 0, .ro, 0, false⟩
abbrev F.HDR_CTRL_ERR_CLR : Fld := ⟨0x010, 31, 31, .wo, 0, false⟩
abbrev F.HDR_STAT_ASLEEP : Fld := ⟨0x014, 31, 31, .ro, 0, false⟩
abbrev F.HDR_INT_RAW : Fld := ⟨0x018, 31, 0, .rsv, 0, false⟩
abbrev F.HDR_INT_EN : Fld := ⟨0x01C, 31, 0, .rsv, 0, false⟩
abbrev F.HDR_INT_OUT : Fld := ⟨0x020, 31, 0, .ro, 0, false⟩
abbrev F.HDR_ERR_COUNT : Fld := ⟨0x024, 15, 0, .rc, 0, false⟩
abbrev F.HDR_ERR_ADDR_LO : Fld := ⟨0x028, 31, 0, .ro, 0, false⟩
abbrev F.HDR_ERR_ADDR_HI : Fld := ⟨0x02C, 31, 0, .ro, 0, false⟩
abbrev F.HDR_ERR_INFO_SRC : Fld := ⟨0x030, 31, 28, .ro, 0, false⟩
abbrev F.HDR_ERR_INFO_KIND : Fld := ⟨0x030, 27, 24, .ro, 0, false⟩
abbrev F.HDR_ERR_INFO_CAUSE : Fld := ⟨0x030, 23, 16, .ro, 0, false⟩
abbrev F.HDR_ERR_INFO_DETAIL : Fld := ⟨0x030, 15, 0, .ro, 0, false⟩
abbrev F.HDR_ERR_OVF : Fld := ⟨0x034, 15, 0, .rc, 0, false⟩
abbrev F.HDR_LOCK_SETTER : Fld := ⟨0x038, 9, 8, .ro, 0, true⟩
abbrev F.HDR_LOCK_BLOCK : Fld := ⟨0x038, 1, 1, .rw1s, 0, true⟩
abbrev F.HDR_LOCK_HEADER : Fld := ⟨0x038, 0, 0, .rw1s, 0, true⟩
abbrev F.HDR_Reserved : Fld := ⟨0x03C, 31, 0, .rsv, 0, false⟩
/-- Fields of the common header (R53). The block-specific bits of CTRL, STAT and INT_RAW are in the page's own list. -/
def tabHdr : List Fld := [
  F.HDR_ID_TYPE, F.HDR_ID_INST, F.HDR_ID_SUBPAGE, F.HDR_VER_MAJOR, F.HDR_VER_MINOR, F.HDR_VER_STEP, F.HDR_CAP0,
  F.HDR_CAP1, F.HDR_CTRL_ERR_CLR, F.HDR_STAT_ASLEEP, F.HDR_INT_RAW, F.HDR_INT_EN, F.HDR_INT_OUT, F.HDR_ERR_COUNT,
  F.HDR_ERR_ADDR_LO, F.HDR_ERR_ADDR_HI, F.HDR_ERR_INFO_SRC, F.HDR_ERR_INFO_KIND, F.HDR_ERR_INFO_CAUSE,
  F.HDR_ERR_INFO_DETAIL, F.HDR_ERR_OVF, F.HDR_LOCK_SETTER, F.HDR_LOCK_BLOCK, F.HDR_LOCK_HEADER, F.HDR_Reserved]

/-! ### DIR -/
abbrev F.DIR_CTRL_IBI_EN : Fld := ⟨0x010, 2, 2, .rw, 0x1, false⟩
abbrev F.DIR_CTRL_ALERT_EN : Fld := ⟨0x010, 1, 1, .rw, 0x1, false⟩
abbrev F.DIR_CTRL_AEN_EN : Fld := ⟨0x010, 0, 0, .rw, 0x1, false⟩
abbrev F.DIR_INT_RAW_FAULT_DROP : Fld := ⟨0x018, 0, 0, .rw1c, 0x0, false⟩
abbrev F.DIR_INT_SUMMARY0 : Fld := ⟨0x100, 31, 0, .ro, 0x0, false⟩
abbrev F.DIR_INT_SUMMARY1 : Fld := ⟨0x104, 31, 0, .ro, 0x0, false⟩
abbrev F.DIR_INT_SUMMARY2 : Fld := ⟨0x108, 31, 0, .ro, 0x0, false⟩
abbrev F.DIR_INT_SUMMARY3 : Fld := ⟨0x10C, 31, 0, .ro, 0x0, false⟩
abbrev F.DIR_INT_SUMMARY4 : Fld := ⟨0x110, 31, 0, .ro, 0x0, false⟩
abbrev F.DIR_INT_SUMMARY5 : Fld := ⟨0x114, 31, 0, .ro, 0x0, false⟩
abbrev F.DIR_INT_SUMMARY6 : Fld := ⟨0x118, 31, 0, .ro, 0x0, false⟩
abbrev F.DIR_INT_SUMMARY7 : Fld := ⟨0x11C, 31, 0, .ro, 0x0, false⟩
abbrev F.DIR_INT_SUMMARY8 : Fld := ⟨0x120, 31, 0, .ro, 0x0, false⟩
abbrev F.DIR_INT_SUMMARY9 : Fld := ⟨0x124, 31, 0, .ro, 0x0, false⟩
abbrev F.DIR_INT_SUMMARY10 : Fld := ⟨0x128, 31, 0, .ro, 0x0, false⟩
abbrev F.DIR_INT_SUMMARY11 : Fld := ⟨0x12C, 31, 0, .ro, 0x0, false⟩
abbrev F.DIR_INT_SUMMARY12 : Fld := ⟨0x130, 31, 0, .ro, 0x0, false⟩
abbrev F.DIR_INT_SUMMARY13 : Fld := ⟨0x134, 31, 0, .ro, 0x0, false⟩
abbrev F.DIR_INT_SUMMARY14 : Fld := ⟨0x138, 31, 0, .ro, 0x0, false⟩
abbrev F.DIR_INT_SUMMARY15 : Fld := ⟨0x13C, 31, 0, .ro, 0x0, false⟩
abbrev F.DIR_INT_SUMMARY16 : Fld := ⟨0x140, 31, 0, .ro, 0x0, false⟩
abbrev F.DIR_INT_SUMMARY17 : Fld := ⟨0x144, 31, 0, .ro, 0x0, false⟩
abbrev F.DIR_INT_SUMMARY18 : Fld := ⟨0x148, 31, 0, .ro, 0x0, false⟩
abbrev F.DIR_INT_SUMMARY19 : Fld := ⟨0x14C, 31, 0, .ro, 0x0, false⟩
abbrev F.DIR_INT_SUMMARY20 : Fld := ⟨0x150, 31, 0, .ro, 0x0, false⟩
abbrev F.DIR_INT_SUMMARY21 : Fld := ⟨0x154, 31, 0, .ro, 0x0, false⟩
abbrev F.DIR_INT_SUMMARY22 : Fld := ⟨0x158, 31, 0, .ro, 0x0, false⟩
abbrev F.DIR_INT_SUMMARY23 : Fld := ⟨0x15C, 31, 0, .ro, 0x0, false⟩
abbrev F.DIR_FAULT_OVF : Fld := ⟨0x160, 31, 0, .rc, 0x0, false⟩
abbrev F.DIR_Reserved_164 : Fld := ⟨0x164, 31, 0, .rsv, 0x0, false⟩
abbrev F.DIR_Reserved_168 : Fld := ⟨0x168, 31, 0, .rsv, 0x0, false⟩
abbrev F.DIR_Reserved_16C : Fld := ⟨0x16C, 31, 0, .rsv, 0x0, false⟩
abbrev F.DIR_Reserved_170 : Fld := ⟨0x170, 31, 0, .rsv, 0x0, false⟩
abbrev F.DIR_Reserved_174 : Fld := ⟨0x174, 31, 0, .rsv, 0x0, false⟩
abbrev F.DIR_Reserved_178 : Fld := ⟨0x178, 31, 0, .rsv, 0x0, false⟩
abbrev F.DIR_Reserved_17C : Fld := ⟨0x17C, 31, 0, .rsv, 0x0, false⟩
abbrev F.DIR_PRESENT0 : Fld := ⟨0x180, 31, 0, .ro, 0x0, false⟩
abbrev F.DIR_PRESENT1 : Fld := ⟨0x184, 31, 0, .ro, 0x0, false⟩
abbrev F.DIR_PRESENT2 : Fld := ⟨0x188, 31, 0, .ro, 0x0, false⟩
abbrev F.DIR_PRESENT3 : Fld := ⟨0x18C, 31, 0, .ro, 0x0, false⟩
abbrev F.DIR_PRESENT4 : Fld := ⟨0x190, 31, 0, .ro, 0x0, false⟩
abbrev F.DIR_PRESENT5 : Fld := ⟨0x194, 31, 0, .ro, 0x0, false⟩
abbrev F.DIR_PRESENT6 : Fld := ⟨0x198, 31, 0, .ro, 0x0, false⟩
abbrev F.DIR_PRESENT7 : Fld := ⟨0x19C, 31, 0, .ro, 0x0, false⟩
abbrev F.DIR_PRESENT8 : Fld := ⟨0x1A0, 31, 0, .ro, 0x0, false⟩
abbrev F.DIR_PRESENT9 : Fld := ⟨0x1A4, 31, 0, .ro, 0x0, false⟩
abbrev F.DIR_PRESENT10 : Fld := ⟨0x1A8, 31, 0, .ro, 0x0, false⟩
abbrev F.DIR_PRESENT11 : Fld := ⟨0x1AC, 31, 0, .ro, 0x0, false⟩
abbrev F.DIR_PRESENT12 : Fld := ⟨0x1B0, 31, 0, .ro, 0x0, false⟩
abbrev F.DIR_PRESENT13 : Fld := ⟨0x1B4, 31, 0, .ro, 0x0, false⟩
abbrev F.DIR_PRESENT14 : Fld := ⟨0x1B8, 31, 0, .ro, 0x0, false⟩
abbrev F.DIR_PRESENT15 : Fld := ⟨0x1BC, 31, 0, .ro, 0x0, false⟩
abbrev F.DIR_PRESENT16 : Fld := ⟨0x1C0, 31, 0, .ro, 0x0, false⟩
abbrev F.DIR_PRESENT17 : Fld := ⟨0x1C4, 31, 0, .ro, 0x0, false⟩
abbrev F.DIR_PRESENT18 : Fld := ⟨0x1C8, 31, 0, .ro, 0x0, false⟩
abbrev F.DIR_PRESENT19 : Fld := ⟨0x1CC, 31, 0, .ro, 0x0, false⟩
abbrev F.DIR_PRESENT20 : Fld := ⟨0x1D0, 31, 0, .ro, 0x0, false⟩
abbrev F.DIR_PRESENT21 : Fld := ⟨0x1D4, 31, 0, .ro, 0x0, false⟩
abbrev F.DIR_PRESENT22 : Fld := ⟨0x1D8, 31, 0, .ro, 0x0, false⟩
abbrev F.DIR_PRESENT23 : Fld := ⟨0x1DC, 31, 0, .ro, 0x0, false⟩
/-- Fields of the DIR page, part 0. -/
def tabDir0 : List Fld := [
  F.DIR_CTRL_IBI_EN, F.DIR_CTRL_ALERT_EN, F.DIR_CTRL_AEN_EN, F.DIR_INT_RAW_FAULT_DROP, F.DIR_INT_SUMMARY0,
  F.DIR_INT_SUMMARY1, F.DIR_INT_SUMMARY2, F.DIR_INT_SUMMARY3, F.DIR_INT_SUMMARY4, F.DIR_INT_SUMMARY5,
  F.DIR_INT_SUMMARY6, F.DIR_INT_SUMMARY7, F.DIR_INT_SUMMARY8, F.DIR_INT_SUMMARY9, F.DIR_INT_SUMMARY10,
  F.DIR_INT_SUMMARY11, F.DIR_INT_SUMMARY12, F.DIR_INT_SUMMARY13, F.DIR_INT_SUMMARY14, F.DIR_INT_SUMMARY15,
  F.DIR_INT_SUMMARY16, F.DIR_INT_SUMMARY17, F.DIR_INT_SUMMARY18, F.DIR_INT_SUMMARY19, F.DIR_INT_SUMMARY20,
  F.DIR_INT_SUMMARY21, F.DIR_INT_SUMMARY22, F.DIR_INT_SUMMARY23, F.DIR_FAULT_OVF, F.DIR_Reserved_164]
/-- Fields of the DIR page, part 1. -/
def tabDir1 : List Fld := [
  F.DIR_Reserved_168, F.DIR_Reserved_16C, F.DIR_Reserved_170, F.DIR_Reserved_174, F.DIR_Reserved_178,
  F.DIR_Reserved_17C, F.DIR_PRESENT0, F.DIR_PRESENT1, F.DIR_PRESENT2, F.DIR_PRESENT3, F.DIR_PRESENT4,
  F.DIR_PRESENT5, F.DIR_PRESENT6, F.DIR_PRESENT7, F.DIR_PRESENT8, F.DIR_PRESENT9, F.DIR_PRESENT10, F.DIR_PRESENT11,
  F.DIR_PRESENT12, F.DIR_PRESENT13, F.DIR_PRESENT14, F.DIR_PRESENT15, F.DIR_PRESENT16, F.DIR_PRESENT17,
  F.DIR_PRESENT18, F.DIR_PRESENT19, F.DIR_PRESENT20, F.DIR_PRESENT21, F.DIR_PRESENT22, F.DIR_PRESENT23]

/-! ### PWR -/
abbrev F.PWR_INT_RAW_HOLD_LOW : Fld := ⟨0x018, 8, 8, .rw1c, 0x0, false⟩
abbrev F.PWR_INT_RAW_TIMER : Fld := ⟨0x018, 7, 7, .rw1c, 0x0, false⟩
abbrev F.PWR_INT_RAW_WAKE : Fld := ⟨0x018, 6, 6, .rw1c, 0x0, false⟩
abbrev F.PWR_INT_RAW_ENTRY_ABORT : Fld := ⟨0x018, 5, 5, .rw1c, 0x0, false⟩
abbrev F.PWR_INT_RAW_PMB_FAULT : Fld := ⟨0x018, 4, 4, .rw1c, 0x0, false⟩
abbrev F.PWR_INT_RAW_GUARD_EXIT : Fld := ⟨0x018, 3, 3, .rw1c, 0x0, false⟩
abbrev F.PWR_INT_RAW_GUARD_ENTER : Fld := ⟨0x018, 2, 2, .rw1c, 0x0, false⟩
abbrev F.PWR_INT_RAW_RAIL_WARN : Fld := ⟨0x018, 1, 1, .rw1c, 0x0, false⟩
abbrev F.PWR_INT_RAW_VIN_WARN : Fld := ⟨0x018, 0, 0, .rw1c, 0x0, false⟩
abbrev F.PWR_MODE_CTRL_DOZE_IDLE_MS : Fld := ⟨0x100, 23, 16, .rw, 0x64, false⟩
abbrev F.PWR_MODE_CTRL_PS : Fld := ⟨0x100, 3, 2, .ro, 0x0, false⟩
abbrev F.PWR_MODE_CTRL_REQ : Fld := ⟨0x100, 1, 0, .ro, 0x0, false⟩
abbrev F.PWR_MODE_STAT_LAST_WAKE : Fld := ⟨0x104, 11, 8, .ro, 0x0, false⟩
abbrev F.PWR_MODE_STAT_MODE : Fld := ⟨0x104, 2, 0, .ro, 0x0, true⟩
abbrev F.PWR_WAKE_EN_TIMER : Fld := ⟨0x108, 1, 1, .rw, 0x1, false⟩
abbrev F.PWR_WAKE_EN_WAKE_N : Fld := ⟨0x108, 0, 0, .rw, 0x1, false⟩
abbrev F.PWR_AON_LO_TICKS_LO : Fld := ⟨0x10C, 31, 0, .ro, 0x0, false⟩
abbrev F.PWR_AON_HI_TICKS_HI : Fld := ⟨0x110, 15, 0, .ro, 0x0, false⟩
abbrev F.PWR_TIMER_SEC : Fld := ⟨0x114, 23, 0, .rw, 0x0, false⟩
abbrev F.PWR_ACK_CTRL_BOARD_MAX : Fld := ⟨0x118, 6, 4, .ro, 0x0, true⟩
abbrev F.PWR_ACK_CTRL_WIN_GIB : Fld := ⟨0x118, 2, 0, .rw, 0x1, false⟩
abbrev F.PWR_PAD_HOLD_GPIO : Fld := ⟨0x11C, 5, 5, .rw1c, 0x0, false⟩
abbrev F.PWR_PAD_HOLD_DDR : Fld := ⟨0x11C, 4, 4, .rw1c, 0x0, false⟩
abbrev F.PWR_PAD_HOLD_FL : Fld := ⟨0x11C, 3, 0, .rw1c, 0x0, false⟩
abbrev F.PWR_VIN_THR_WARN_MV : Fld := ⟨0x120, 25, 16, .rw, 0x0, true⟩
abbrev F.PWR_VIN_THR_PFW_MV : Fld := ⟨0x120, 9, 0, .rw, 0x0, true⟩
abbrev F.PWR_HOLD_THR_READY_MV : Fld := ⟨0x124, 25, 16, .rw, 0x0, true⟩
abbrev F.PWR_HOLD_THR_RESET_MV : Fld := ⟨0x124, 9, 0, .rw, 0x0, true⟩
abbrev F.PWR_SENSE_VIN_MV : Fld := ⟨0x128, 25, 16, .ro, 0x0, false⟩
abbrev F.PWR_SENSE_HOLD_MV : Fld := ⟨0x128, 9, 0, .ro, 0x0, false⟩
abbrev F.PWR_RAIL_SEL_INDEX : Fld := ⟨0x12C, 4, 0, .rw, 0x0, false⟩
abbrev F.PWR_RAIL_CFG_RESET_PM : Fld := ⟨0x130, 15, 8, .rw, 0x50, false⟩
abbrev F.PWR_RAIL_CFG_WARN_PM : Fld := ⟨0x130, 7, 0, .rw, 0x28, false⟩
abbrev F.PWR_RAIL_STAT_STATE : Fld := ⟨0x134, 31, 30, .ro, 0x0, false⟩
abbrev F.PWR_RAIL_STAT_MIN_MV : Fld := ⟨0x134, 29, 16, .ro, 0x0, false⟩
abbrev F.PWR_RAIL_STAT_MV : Fld := ⟨0x134, 13, 0, .ro, 0x0, false⟩
abbrev F.PWR_GUARD_CTRL_ENTER_MS : Fld := ⟨0x138, 15, 8, .rw, 0x32, false⟩
abbrev F.PWR_GUARD_CTRL_EXIT_S : Fld := ⟨0x138, 7, 0, .rw, 0xA, false⟩
abbrev F.PWR_COUNTS_ABORTS : Fld := ⟨0x13C, 31, 16, .rc, 0x0, false⟩
abbrev F.PWR_COUNTS_ENTRIES : Fld := ⟨0x13C, 15, 0, .rc, 0x0, false⟩
abbrev F.PWR_PMB_FAULTS_COUNT : Fld := ⟨0x140, 31, 0, .rc, 0x0, false⟩
abbrev F.PWR_ASLEEP_REF_COUNT : Fld := ⟨0x144, 31, 0, .rc, 0x0, false⟩
/-- Fields of the PWR page, part 0. -/
def tabPwr0 : List Fld := [
  F.PWR_INT_RAW_HOLD_LOW, F.PWR_INT_RAW_TIMER, F.PWR_INT_RAW_WAKE, F.PWR_INT_RAW_ENTRY_ABORT,
  F.PWR_INT_RAW_PMB_FAULT, F.PWR_INT_RAW_GUARD_EXIT, F.PWR_INT_RAW_GUARD_ENTER, F.PWR_INT_RAW_RAIL_WARN,
  F.PWR_INT_RAW_VIN_WARN, F.PWR_MODE_CTRL_DOZE_IDLE_MS, F.PWR_MODE_CTRL_PS, F.PWR_MODE_CTRL_REQ,
  F.PWR_MODE_STAT_LAST_WAKE, F.PWR_MODE_STAT_MODE, F.PWR_WAKE_EN_TIMER, F.PWR_WAKE_EN_WAKE_N,
  F.PWR_AON_LO_TICKS_LO, F.PWR_AON_HI_TICKS_HI, F.PWR_TIMER_SEC, F.PWR_ACK_CTRL_BOARD_MAX, F.PWR_ACK_CTRL_WIN_GIB,
  F.PWR_PAD_HOLD_GPIO, F.PWR_PAD_HOLD_DDR, F.PWR_PAD_HOLD_FL, F.PWR_VIN_THR_WARN_MV, F.PWR_VIN_THR_PFW_MV,
  F.PWR_HOLD_THR_READY_MV, F.PWR_HOLD_THR_RESET_MV, F.PWR_SENSE_VIN_MV, F.PWR_SENSE_HOLD_MV]
/-- Fields of the PWR page, part 1. -/
def tabPwr1 : List Fld := [
  F.PWR_RAIL_SEL_INDEX, F.PWR_RAIL_CFG_RESET_PM, F.PWR_RAIL_CFG_WARN_PM, F.PWR_RAIL_STAT_STATE,
  F.PWR_RAIL_STAT_MIN_MV, F.PWR_RAIL_STAT_MV, F.PWR_GUARD_CTRL_ENTER_MS, F.PWR_GUARD_CTRL_EXIT_S,
  F.PWR_COUNTS_ABORTS, F.PWR_COUNTS_ENTRIES, F.PWR_PMB_FAULTS_COUNT, F.PWR_ASLEEP_REF_COUNT]

/-! ### THM -/
abbrev F.THM_CAP0_ONCHIP : Fld := ⟨0x008, 31, 24, .ro, 0x8, false⟩
abbrev F.THM_CAP0_DIODE : Fld := ⟨0x008, 23, 16, .ro, 0x10, false⟩
abbrev F.THM_CAP0_THERM : Fld := ⟨0x008, 15, 8, .ro, 0x8, false⟩
abbrev F.THM_INT_RAW_CRIT : Fld := ⟨0x018, 4, 4, .rw1c, 0x0, false⟩
abbrev F.THM_INT_RAW_ENFORCE : Fld := ⟨0x018, 3, 3, .rw1c, 0x0, false⟩
abbrev F.THM_INT_RAW_NOTIFY : Fld := ⟨0x018, 2, 2, .rw1c, 0x0, false⟩
abbrev F.THM_INT_RAW_WARN : Fld := ⟨0x018, 1, 1, .rw1c, 0x0, false⟩
abbrev F.THM_INT_RAW_FAULT : Fld := ⟨0x018, 0, 0, .rw1c, 0x0, false⟩
abbrev F.THM_CH_SEL_CH : Fld := ⟨0x100, 4, 0, .rw, 0x0, false⟩
abbrev F.THM_CH_CFG_ENABLE : Fld := ⟨0x104, 15, 15, .rw, 0x0, true⟩
abbrev F.THM_CH_CFG_MODE : Fld := ⟨0x104, 14, 14, .rw, 0x0, true⟩
abbrev F.THM_CH_CFG_GROUP : Fld := ⟨0x104, 11, 8, .rw, 0x0, true⟩
abbrev F.THM_CH_PARAM_PARAM_HI : Fld := ⟨0x108, 31, 16, .rw, 0x0, true⟩
abbrev F.THM_CH_PARAM_PARAM_LO : Fld := ⟨0x108, 15, 0, .rw, 0x0, true⟩
abbrev F.THM_CH_THR_CRIT : Fld := ⟨0x10C, 31, 24, .rw, 0x0, true⟩
abbrev F.THM_CH_THR_THROT : Fld := ⟨0x10C, 23, 16, .rw, 0x0, true⟩
abbrev F.THM_CH_THR_WARN : Fld := ⟨0x10C, 15, 8, .rw, 0x0, true⟩
abbrev F.THM_CH_STAT_HEALTH : Fld := ⟨0x110, 31, 30, .ro, 0x3, false⟩
abbrev F.THM_CH_STAT_LEVEL : Fld := ⟨0x110, 29, 28, .ro, 0x0, false⟩
abbrev F.THM_CH_STAT_FAULT : Fld := ⟨0x110, 27, 24, .ro, 0x0, false⟩
abbrev F.THM_CH_STAT_RAW : Fld := ⟨0x110, 23, 12, .ro, 0x0, false⟩
abbrev F.THM_CH_STAT_EFF : Fld := ⟨0x110, 11, 0, .ro, 0x0, false⟩
abbrev F.THM_STAGE : Fld := ⟨0x114, 31, 30, .ro, 0x0, false⟩
abbrev F.THM_STAGE_HOT_CH : Fld := ⟨0x114, 20, 16, .ro, 0x0, false⟩
abbrev F.THM_STAGE_COMPOSITE : Fld := ⟨0x114, 11, 0, .ro, 0x0, false⟩
abbrev F.THM_THR_CTRL_SHDN_MS : Fld := ⟨0x118, 31, 24, .rw, 0x64, false⟩
abbrev F.THM_THR_CTRL_CREDIT_PCT : Fld := ⟨0x118, 23, 16, .rw, 0x32, false⟩
abbrev F.THM_THR_CTRL_HYST : Fld := ⟨0x118, 15, 12, .rw, 0x3, false⟩
abbrev F.THM_THR_CTRL_GRACE : Fld := ⟨0x118, 11, 0, .rw, 0xC8, false⟩
abbrev F.THM_COUNTS_ENFORCE : Fld := ⟨0x11C, 31, 16, .rc, 0x0, false⟩
abbrev F.THM_COUNTS_NOTIFY : Fld := ⟨0x11C, 15, 0, .rc, 0x0, false⟩
abbrev F.THM_FAULTS_REPLACED : Fld := ⟨0x120, 31, 16, .rc, 0x0, false⟩
abbrev F.THM_FAULTS_FAULT : Fld := ⟨0x120, 15, 0, .rc, 0x0, false⟩
abbrev F.THM_ENF_TIME_SEC : Fld := ⟨0x124, 31, 0, .rc, 0x0, false⟩
/-- Fields of the THM page, part 0. -/
def tabThm0 : List Fld := [
  F.THM_CAP0_ONCHIP, F.THM_CAP0_DIODE, F.THM_CAP0_THERM, F.THM_INT_RAW_CRIT, F.THM_INT_RAW_ENFORCE,
  F.THM_INT_RAW_NOTIFY, F.THM_INT_RAW_WARN, F.THM_INT_RAW_FAULT, F.THM_CH_SEL_CH, F.THM_CH_CFG_ENABLE,
  F.THM_CH_CFG_MODE, F.THM_CH_CFG_GROUP, F.THM_CH_PARAM_PARAM_HI, F.THM_CH_PARAM_PARAM_LO, F.THM_CH_THR_CRIT,
  F.THM_CH_THR_THROT, F.THM_CH_THR_WARN, F.THM_CH_STAT_HEALTH, F.THM_CH_STAT_LEVEL, F.THM_CH_STAT_FAULT,
  F.THM_CH_STAT_RAW, F.THM_CH_STAT_EFF, F.THM_STAGE, F.THM_STAGE_HOT_CH, F.THM_STAGE_COMPOSITE,
  F.THM_THR_CTRL_SHDN_MS, F.THM_THR_CTRL_CREDIT_PCT, F.THM_THR_CTRL_HYST, F.THM_THR_CTRL_GRACE,
  F.THM_COUNTS_ENFORCE]
/-- Fields of the THM page, part 1. -/
def tabThm1 : List Fld := [
  F.THM_COUNTS_NOTIFY, F.THM_FAULTS_REPLACED, F.THM_FAULTS_FAULT, F.THM_ENF_TIME_SEC]

/-! ### REC -/
abbrev F.REC_INT_RAW_DROP : Fld := ⟨0x018, 1, 1, .rw1c, 0x0, false⟩
abbrev F.REC_INT_RAW_FREEZE_END : Fld := ⟨0x018, 0, 0, .rw1c, 0x0, false⟩
abbrev F.REC_HOLD_UNFREEZE : Fld := ⟨0x100, 2, 2, .wo, 0x0, false⟩
abbrev F.REC_HOLD_CLEAR : Fld := ⟨0x100, 1, 1, .wo, 0x0, false⟩
abbrev F.REC_HOLD_FREEZE : Fld := ⟨0x100, 0, 0, .rw1s, 0x0, false⟩
abbrev F.REC_CFG_PERIOD_MIN : Fld := ⟨0x104, 31, 24, .rw, 0x3C, false⟩
abbrev F.REC_CFG_FLOOD_S : Fld := ⟨0x104, 23, 16, .rw, 0xA, false⟩
abbrev F.REC_CFG_FREEZE_MAX_S : Fld := ⟨0x104, 15, 8, .rw, 0xA, false⟩
abbrev F.REC_CFG_ERASE_W : Fld := ⟨0x104, 7, 0, .rw, 0x10, false⟩
abbrev F.REC_POS_LO : Fld := ⟨0x108, 31, 0, .ro, 0x0, true⟩
abbrev F.REC_POS_HI : Fld := ⟨0x10C, 7, 0, .ro, 0x0, true⟩
abbrev F.REC_PCYC_COUNT : Fld := ⟨0x110, 31, 0, .ro, 0x0, true⟩
abbrev F.REC_RING_NEXT : Fld := ⟨0x114, 27, 16, .ro, 0x0, true⟩
abbrev F.REC_RING_RECORDS : Fld := ⟨0x114, 11, 0, .ro, 0x0, true⟩
abbrev F.REC_RD_SEL_WORD : Fld := ⟨0x118, 19, 2, .rw, 0x0, false⟩
abbrev F.REC_RD_DATA_DATA : Fld := ⟨0x11C, 31, 0, .ro, 0x0, false⟩
abbrev F.REC_DROPPED_COUNT : Fld := ⟨0x120, 31, 0, .rc, 0x0, false⟩
/-- Fields of the REC page, part 0. -/
def tabRec0 : List Fld := [
  F.REC_INT_RAW_DROP, F.REC_INT_RAW_FREEZE_END, F.REC_HOLD_UNFREEZE, F.REC_HOLD_CLEAR, F.REC_HOLD_FREEZE,
  F.REC_CFG_PERIOD_MIN, F.REC_CFG_FLOOD_S, F.REC_CFG_FREEZE_MAX_S, F.REC_CFG_ERASE_W, F.REC_POS_LO, F.REC_POS_HI,
  F.REC_PCYC_COUNT, F.REC_RING_NEXT, F.REC_RING_RECORDS, F.REC_RD_SEL_WORD, F.REC_RD_DATA_DATA, F.REC_DROPPED_COUNT]

/-! ### MTR -/
abbrev F.MTR_STAT_MK_READY : Fld := ⟨0x014, 1, 1, .ro, 0x0, false⟩
abbrev F.MTR_STAT_TIME_SET : Fld := ⟨0x014, 0, 0, .ro, 0x0, false⟩
abbrev F.MTR_INT_RAW_OVERWRITE : Fld := ⟨0x018, 1, 1, .rw1c, 0x0, false⟩
abbrev F.MTR_INT_RAW_NO_TIME : Fld := ⟨0x018, 0, 0, .rw1c, 0x0, false⟩
abbrev F.MTR_WALL_SET_LO_SEC_LO : Fld := ⟨0x100, 31, 0, .wo, 0x0, false⟩
abbrev F.MTR_WALL_SET_HI_SEC_HI : Fld := ⟨0x104, 7, 0, .wo, 0x0, false⟩
abbrev F.MTR_WALL_LO_SEC_LO : Fld := ⟨0x108, 31, 0, .ro, 0x0, false⟩
abbrev F.MTR_WALL_HI_SEC_HI : Fld := ⟨0x10C, 7, 0, .ro, 0x0, false⟩
abbrev F.MTR_MK_GEN_GEN : Fld := ⟨0x110, 31, 0, .ro, 0x0, true⟩
abbrev F.MTR_CLOSED_COUNT : Fld := ⟨0x114, 31, 0, .rc, 0x0, false⟩
abbrev F.MTR_OVERWRITTEN_COUNT : Fld := ⟨0x118, 31, 0, .rc, 0x0, false⟩
/-- Fields of the MTR page, part 0. -/
def tabMtr0 : List Fld := [
  F.MTR_STAT_MK_READY, F.MTR_STAT_TIME_SET, F.MTR_INT_RAW_OVERWRITE, F.MTR_INT_RAW_NO_TIME,
  F.MTR_WALL_SET_LO_SEC_LO, F.MTR_WALL_SET_HI_SEC_HI, F.MTR_WALL_LO_SEC_LO, F.MTR_WALL_HI_SEC_HI, F.MTR_MK_GEN_GEN,
  F.MTR_CLOSED_COUNT, F.MTR_OVERWRITTEN_COUNT]

/-! ### BOOT -/
abbrev F.BOOT_START_STAGE : Fld := ⟨0x100, 31, 28, .ro, 0x1, false⟩
abbrev F.BOOT_START_SOURCE : Fld := ⟨0x100, 27, 24, .ro, 0xF, false⟩
abbrev F.BOOT_START_SVC_CAUSE : Fld := ⟨0x100, 23, 16, .ro, 0x0, false⟩
abbrev F.BOOT_START_MS_MS : Fld := ⟨0x104, 31, 0, .ro, 0x0, false⟩
abbrev F.BOOT_SVC_REQ : Fld := ⟨0x108, 0, 0, .rw, 0x0, false⟩
abbrev F.BOOT_WDT_CTRL_STOP_MS : Fld := ⟨0x200, 15, 8, .rw, 0x64, false⟩
abbrev F.BOOT_WDT_CTRL_CORE_MS : Fld := ⟨0x200, 7, 0, .rw, 0x32, false⟩
abbrev F.BOOT_RESET_LAST_KIND : Fld := ⟨0x204, 31, 28, .ro, 0x1, false⟩
abbrev F.BOOT_RESET_LAST_SEALED_RUN : Fld := ⟨0x204, 23, 16, .ro, 0x0, false⟩
abbrev F.BOOT_RESET_LAST_DETAIL : Fld := ⟨0x204, 15, 0, .ro, 0x0, false⟩
abbrev F.BOOT_RESET_ADDR_LO_ADDR_LO : Fld := ⟨0x208, 31, 0, .ro, 0x0, false⟩
abbrev F.BOOT_RESET_ADDR_HI_ADDR_HI : Fld := ⟨0x20C, 31, 0, .ro, 0x0, false⟩
abbrev F.BOOT_RESET_CNT0_SUPPLY : Fld := ⟨0x210, 31, 16, .ro, 0x0, true⟩
abbrev F.BOOT_RESET_CNT0_PIN : Fld := ⟨0x210, 15, 0, .ro, 0x0, true⟩
abbrev F.BOOT_RESET_CNT1_FATAL : Fld := ⟨0x214, 31, 16, .ro, 0x0, true⟩
abbrev F.BOOT_RESET_CNT1_SEALED : Fld := ⟨0x214, 15, 0, .ro, 0x0, true⟩
abbrev F.BOOT_RESET_CNT2_DEVICE : Fld := ⟨0x218, 31, 16, .ro, 0x0, true⟩
abbrev F.BOOT_RESET_CNT2_WATCHDOG : Fld := ⟨0x218, 15, 0, .ro, 0x0, true⟩
abbrev F.BOOT_FLOG_STAT_ENTRIES : Fld := ⟨0x21C, 13, 0, .ro, 0x0, true⟩
abbrev F.BOOT_FLOG_QDROP_COUNT : Fld := ⟨0x220, 31, 0, .rc, 0x0, false⟩
abbrev F.BOOT_FAULT_CTRL_MASK : Fld := ⟨0x224, 6, 0, .rw, 0x29, false⟩
abbrev F.BOOT_FAULT_STAT_ACTIVE : Fld := ⟨0x228, 6, 0, .ro, 0x0, false⟩
/-- Fields of the BOOT page, part 0. -/
def tabBoot0 : List Fld := [
  F.BOOT_START_STAGE, F.BOOT_START_SOURCE, F.BOOT_START_SVC_CAUSE, F.BOOT_START_MS_MS, F.BOOT_SVC_REQ,
  F.BOOT_WDT_CTRL_STOP_MS, F.BOOT_WDT_CTRL_CORE_MS, F.BOOT_RESET_LAST_KIND, F.BOOT_RESET_LAST_SEALED_RUN,
  F.BOOT_RESET_LAST_DETAIL, F.BOOT_RESET_ADDR_LO_ADDR_LO, F.BOOT_RESET_ADDR_HI_ADDR_HI, F.BOOT_RESET_CNT0_SUPPLY,
  F.BOOT_RESET_CNT0_PIN, F.BOOT_RESET_CNT1_FATAL, F.BOOT_RESET_CNT1_SEALED, F.BOOT_RESET_CNT2_DEVICE,
  F.BOOT_RESET_CNT2_WATCHDOG, F.BOOT_FLOG_STAT_ENTRIES, F.BOOT_FLOG_QDROP_COUNT, F.BOOT_FAULT_CTRL_MASK,
  F.BOOT_FAULT_STAT_ACTIVE]

/-! ### FWP -/
abbrev F.FWP_INT_RAW_FALLBACK : Fld := ⟨0x018, 2, 2, .rw1c, 0x0, false⟩
abbrev F.FWP_INT_RAW_REFUSED : Fld := ⟨0x018, 1, 1, .rw1c, 0x0, false⟩
abbrev F.FWP_INT_RAW_ACTIVATED : Fld := ⟨0x018, 0, 0, .rw1c, 0x0, false⟩
abbrev F.FWP_SLOT_STAT_VALID_B : Fld := ⟨0x100, 5, 5, .ro, 0x0, true⟩
abbrev F.FWP_SLOT_STAT_VALID_A : Fld := ⟨0x100, 4, 4, .ro, 0x0, true⟩
abbrev F.FWP_SLOT_STAT_TRIAL : Fld := ⟨0x100, 2, 2, .ro, 0x0, true⟩
abbrev F.FWP_SLOT_STAT_NEXT : Fld := ⟨0x100, 1, 1, .ro, 0x0, true⟩
abbrev F.FWP_SLOT_STAT_RUNNING : Fld := ⟨0x100, 0, 0, .ro, 0x0, true⟩
abbrev F.FWP_VER_A_VERSION : Fld := ⟨0x104, 31, 0, .ro, 0x0, true⟩
abbrev F.FWP_VER_B_VERSION : Fld := ⟨0x108, 31, 0, .ro, 0x0, true⟩
abbrev F.FWP_SVN_MIN : Fld := ⟨0x10C, 31, 16, .ro, 0x0, true⟩
abbrev F.FWP_SVN_RUNNING : Fld := ⟨0x10C, 15, 0, .ro, 0x0, true⟩
abbrev F.FWP_DL_STAT_BYTES : Fld := ⟨0x110, 23, 0, .ro, 0x0, false⟩
abbrev F.FWP_RESULT_REASON : Fld := ⟨0x114, 15, 8, .ro, 0x0, false⟩
abbrev F.FWP_RESULT_SC : Fld := ⟨0x114, 7, 0, .ro, 0x0, false⟩
/-- Fields of the FWP page, part 0. -/
def tabFwp0 : List Fld := [
  F.FWP_INT_RAW_FALLBACK, F.FWP_INT_RAW_REFUSED, F.FWP_INT_RAW_ACTIVATED, F.FWP_SLOT_STAT_VALID_B,
  F.FWP_SLOT_STAT_VALID_A, F.FWP_SLOT_STAT_TRIAL, F.FWP_SLOT_STAT_NEXT, F.FWP_SLOT_STAT_RUNNING,
  F.FWP_VER_A_VERSION, F.FWP_VER_B_VERSION, F.FWP_SVN_MIN, F.FWP_SVN_RUNNING, F.FWP_DL_STAT_BYTES,
  F.FWP_RESULT_REASON, F.FWP_RESULT_SC]

/-! ### SEA -/
abbrev F.SEA_INT_RAW_FLIP_DONE : Fld := ⟨0x018, 1, 1, .rw1c, 0x0, false⟩
abbrev F.SEA_INT_RAW_CE : Fld := ⟨0x018, 0, 0, .rw1c, 0x0, false⟩
abbrev F.SEA_SELFTEST_DONE : Fld := ⟨0x100, 31, 31, .ro, 0x0, false⟩
abbrev F.SEA_SELFTEST_PASS : Fld := ⟨0x100, 6, 0, .ro, 0x0, false⟩
abbrev F.SEA_CE0_COUNT : Fld := ⟨0x104, 31, 0, .rc, 0x0, false⟩
abbrev F.SEA_CE1_COUNT : Fld := ⟨0x108, 31, 0, .rc, 0x0, false⟩
abbrev F.SEA_CE2_COUNT : Fld := ⟨0x10C, 31, 0, .rc, 0x0, false⟩
abbrev F.SEA_CE3_COUNT : Fld := ⟨0x110, 31, 0, .rc, 0x0, false⟩
abbrev F.SEA_CE4_COUNT : Fld := ⟨0x114, 31, 0, .rc, 0x0, false⟩
abbrev F.SEA_CE5_COUNT : Fld := ⟨0x118, 31, 0, .rc, 0x0, false⟩
abbrev F.SEA_CE6_COUNT : Fld := ⟨0x11C, 31, 0, .rc, 0x0, false⟩
abbrev F.SEA_SCRUB_CTRL_PERIOD_H : Fld := ⟨0x120, 15, 0, .rw, 0x18, false⟩
abbrev F.SEA_SCRUB_STAT_POS : Fld := ⟨0x124, 26, 0, .ro, 0x0, false⟩
abbrev F.SEA_FLIP_ARMED : Fld := ⟨0x128, 31, 31, .rw1s, 0x0, false⟩
abbrev F.SEA_FLIP_TARGET : Fld := ⟨0x128, 10, 8, .rw, 0x0, false⟩
abbrev F.SEA_FLIP_BITS : Fld := ⟨0x128, 4, 0, .rw, 0x0, false⟩
abbrev F.SEA_TEST_ADDR_TARGET : Fld := ⟨0x12C, 10, 8, .rw, 0x0, false⟩
abbrev F.SEA_TEST_ADDR_OFFSET : Fld := ⟨0x12C, 5, 0, .rw, 0x0, false⟩
abbrev F.SEA_TEST_DATA_BYTE : Fld := ⟨0x130, 7, 0, .rw, 0x0, false⟩
/-- Fields of the SEA page, part 0. -/
def tabSea0 : List Fld := [
  F.SEA_INT_RAW_FLIP_DONE, F.SEA_INT_RAW_CE, F.SEA_SELFTEST_DONE, F.SEA_SELFTEST_PASS, F.SEA_CE0_COUNT,
  F.SEA_CE1_COUNT, F.SEA_CE2_COUNT, F.SEA_CE3_COUNT, F.SEA_CE4_COUNT, F.SEA_CE5_COUNT, F.SEA_CE6_COUNT,
  F.SEA_SCRUB_CTRL_PERIOD_H, F.SEA_SCRUB_STAT_POS, F.SEA_FLIP_ARMED, F.SEA_FLIP_TARGET, F.SEA_FLIP_BITS,
  F.SEA_TEST_ADDR_TARGET, F.SEA_TEST_ADDR_OFFSET, F.SEA_TEST_DATA_BYTE]

/-! ### MGT -/
abbrev F.MGT_INT_RAW_CMD_BAD : Fld := ⟨0x018, 2, 2, .rw1c, 0x0, false⟩
abbrev F.MGT_INT_RAW_DA_ASSIGNED : Fld := ⟨0x018, 1, 1, .rw1c, 0x0, false⟩
abbrev F.MGT_INT_RAW_PEC_FAIL : Fld := ⟨0x018, 0, 0, .rw1c, 0x0, false⟩
abbrev F.MGT_SB_CTRL_SMB_EN : Fld := ⟨0x100, 1, 1, .rw, 0x1, false⟩
abbrev F.MGT_SB_CTRL_I3C_EN : Fld := ⟨0x100, 0, 0, .rw, 0x1, false⟩
abbrev F.MGT_SB_STAT_MODE : Fld := ⟨0x104, 10, 9, .ro, 0x0, false⟩
abbrev F.MGT_SB_STAT_IBI_ON : Fld := ⟨0x104, 8, 8, .ro, 0x0, false⟩
abbrev F.MGT_SB_STAT_DA_VALID : Fld := ⟨0x104, 7, 7, .ro, 0x0, false⟩
abbrev F.MGT_SB_STAT_DYN_ADDR : Fld := ⟨0x104, 6, 0, .ro, 0x0, false⟩
abbrev F.MGT_PEC_FAIL : Fld := ⟨0x108, 31, 0, .rc, 0x0, false⟩
abbrev F.MGT_SB_CMDS_DENIED : Fld := ⟨0x10C, 31, 16, .rc, 0x0, false⟩
abbrev F.MGT_SB_CMDS_DONE : Fld := ⟨0x10C, 15, 0, .rc, 0x0, false⟩
/-- Fields of the MGT page, part 0. -/
def tabMgt0 : List Fld := [
  F.MGT_INT_RAW_CMD_BAD, F.MGT_INT_RAW_DA_ASSIGNED, F.MGT_INT_RAW_PEC_FAIL, F.MGT_SB_CTRL_SMB_EN,
  F.MGT_SB_CTRL_I3C_EN, F.MGT_SB_STAT_MODE, F.MGT_SB_STAT_IBI_ON, F.MGT_SB_STAT_DA_VALID, F.MGT_SB_STAT_DYN_ADDR,
  F.MGT_PEC_FAIL, F.MGT_SB_CMDS_DENIED, F.MGT_SB_CMDS_DONE]

/-! ### GPIO -/
abbrev F.GPIO_INT_RAW_EDGE : Fld := ⟨0x018, 15, 0, .rw1c, 0x0, false⟩
abbrev F.GPIO_OUT_EN_EN : Fld := ⟨0x100, 15, 0, .rw, 0x0, false⟩
abbrev F.GPIO_OUT_LEVEL : Fld := ⟨0x104, 15, 0, .rw, 0x0, false⟩
abbrev F.GPIO_IN_LEVEL : Fld := ⟨0x108, 15, 0, .ro, 0x0, false⟩
abbrev F.GPIO_EDGE_CFG_RISE : Fld := ⟨0x10C, 31, 16, .rw, 0x0, false⟩
abbrev F.GPIO_EDGE_CFG_FALL : Fld := ⟨0x10C, 15, 0, .rw, 0x0, false⟩
abbrev F.GPIO_SYS_IN_PWR_GOOD : Fld := ⟨0x110, 7, 4, .ro, 0x0, false⟩
abbrev F.GPIO_SYS_IN_THERM_SHDN_N : Fld := ⟨0x110, 3, 3, .ro, 0x0, false⟩
abbrev F.GPIO_SYS_IN_FAULT_N : Fld := ⟨0x110, 2, 2, .ro, 0x0, false⟩
abbrev F.GPIO_SYS_IN_ALERT_N : Fld := ⟨0x110, 1, 1, .ro, 0x0, false⟩
abbrev F.GPIO_SYS_IN_WAKE_N : Fld := ⟨0x110, 0, 0, .ro, 0x0, false⟩
/-- Fields of the GPIO page, part 0. -/
def tabGpio0 : List Fld := [
  F.GPIO_INT_RAW_EDGE, F.GPIO_OUT_EN_EN, F.GPIO_OUT_LEVEL, F.GPIO_IN_LEVEL, F.GPIO_EDGE_CFG_RISE,
  F.GPIO_EDGE_CFG_FALL, F.GPIO_SYS_IN_PWR_GOOD, F.GPIO_SYS_IN_THERM_SHDN_N, F.GPIO_SYS_IN_FAULT_N,
  F.GPIO_SYS_IN_ALERT_N, F.GPIO_SYS_IN_WAKE_N]

/-! ### DBG -/
abbrev F.DBG_CHAL0_BYTES : Fld := ⟨0x100, 31, 0, .ro, 0x0, true⟩
abbrev F.DBG_CHAL1_BYTES : Fld := ⟨0x104, 31, 0, .ro, 0x0, true⟩
abbrev F.DBG_CHAL2_BYTES : Fld := ⟨0x108, 31, 0, .ro, 0x0, true⟩
abbrev F.DBG_CHAL3_BYTES : Fld := ⟨0x10C, 31, 0, .ro, 0x0, true⟩
abbrev F.DBG_TOKEN_ACCEPTED : Fld := ⟨0x110, 31, 31, .ro, 0x0, false⟩
abbrev F.DBG_TOKEN_SINCE_POR : Fld := ⟨0x110, 30, 30, .ro, 0x0, false⟩
abbrev F.DBG_TOKEN_SCOPE : Fld := ⟨0x110, 1, 0, .ro, 0x0, false⟩
abbrev F.DBG_FAILS_COUNT : Fld := ⟨0x114, 31, 0, .rc, 0x0, false⟩
/-- Fields of the DBG page, part 0. -/
def tabDbg0 : List Fld := [
  F.DBG_CHAL0_BYTES, F.DBG_CHAL1_BYTES, F.DBG_CHAL2_BYTES, F.DBG_CHAL3_BYTES, F.DBG_TOKEN_ACCEPTED,
  F.DBG_TOKEN_SINCE_POR, F.DBG_TOKEN_SCOPE, F.DBG_FAILS_COUNT]

/-! ### ETH -/
abbrev F.ETH_INT_RAW_FEC_UNC : Fld := ⟨0x018, 2, 2, .rw1c, 0x0, false⟩
abbrev F.ETH_INT_RAW_LINK_DOWN : Fld := ⟨0x018, 1, 1, .rw1c, 0x0, false⟩
abbrev F.ETH_INT_RAW_LINK_UP : Fld := ⟨0x018, 0, 0, .rw1c, 0x0, false⟩
abbrev F.ETH_PORT_CTRL_MTU : Fld := ⟨0x100, 29, 16, .rw, 0x2328, false⟩
abbrev F.ETH_PORT_CTRL_LINK_HOLD : Fld := ⟨0x100, 15, 8, .rw, 0x14, false⟩
abbrev F.ETH_PORT_CTRL_ENABLE : Fld := ⟨0x100, 0, 0, .rw, 0x1, false⟩
abbrev F.ETH_PORT_STAT_HOLDING : Fld := ⟨0x104, 2, 2, .ro, 0x0, false⟩
abbrev F.ETH_PORT_STAT_AM_LOCK : Fld := ⟨0x104, 1, 1, .ro, 0x0, false⟩
abbrev F.ETH_PORT_STAT_LINK_UP : Fld := ⟨0x104, 0, 0, .ro, 0x0, false⟩
abbrev F.ETH_MAC_LO_ADDR_LO : Fld := ⟨0x108, 31, 0, .rw, 0x0, true⟩
abbrev F.ETH_MAC_HI_ADDR_HI : Fld := ⟨0x10C, 15, 0, .rw, 0x0, true⟩
abbrev F.ETH_PFC_CTRL_LOSSY_LIM : Fld := ⟨0x110, 31, 24, .rw, 0x20, false⟩
abbrev F.ETH_PFC_CTRL_LOSSLESS : Fld := ⟨0x110, 23, 16, .rw, 0x8, false⟩
abbrev F.ETH_PFC_CTRL_QUANTA : Fld := ⟨0x110, 15, 0, .rw, 0xFFFF, false⟩
abbrev F.ETH_PFC_THR_XOFF_KIB : Fld := ⟨0x114, 31, 16, .rw, 0x300, false⟩
abbrev F.ETH_PFC_THR_XON_KIB : Fld := ⟨0x114, 15, 0, .rw, 0x200, false⟩
abbrev F.ETH_FEC_CORR : Fld := ⟨0x118, 31, 0, .rc, 0x0, false⟩
abbrev F.ETH_FEC_UNC : Fld := ⟨0x11C, 31, 0, .rc, 0x0, false⟩
abbrev F.ETH_WAKE_CTRL_ENERGY_WAKE : Fld := ⟨0x120, 2, 2, .rw, 0x1, false⟩
abbrev F.ETH_WAKE_CTRL_FRAME_WAKE : Fld := ⟨0x120, 1, 1, .rw, 0x0, false⟩
abbrev F.ETH_WAKE_CTRL_KEY_SET : Fld := ⟨0x120, 0, 0, .ro, 0x0, false⟩
abbrev F.ETH_WAKE_KEY0_LO : Fld := ⟨0x124, 31, 0, .wo, 0x0, false⟩
abbrev F.ETH_WAKE_KEY0_HI : Fld := ⟨0x128, 31, 0, .wo, 0x0, false⟩
abbrev F.ETH_WAKE_KEY1_LO : Fld := ⟨0x12C, 31, 0, .wo, 0x0, false⟩
abbrev F.ETH_WAKE_KEY1_HI : Fld := ⟨0x130, 31, 0, .wo, 0x0, false⟩
abbrev F.ETH_RX_DROP_OVER_MTU : Fld := ⟨0x134, 31, 16, .rc, 0x0, false⟩
abbrev F.ETH_RX_DROP_MALFORMED : Fld := ⟨0x134, 15, 0, .rc, 0x0, false⟩
abbrev F.ETH_LOSSY_DROP_COUNT : Fld := ⟨0x138, 31, 0, .rc, 0x0, false⟩
/-- Fields of the ETH page, part 0. -/
def tabEth0 : List Fld := [
  F.ETH_INT_RAW_FEC_UNC, F.ETH_INT_RAW_LINK_DOWN, F.ETH_INT_RAW_LINK_UP, F.ETH_PORT_CTRL_MTU,
  F.ETH_PORT_CTRL_LINK_HOLD, F.ETH_PORT_CTRL_ENABLE, F.ETH_PORT_STAT_HOLDING, F.ETH_PORT_STAT_AM_LOCK,
  F.ETH_PORT_STAT_LINK_UP, F.ETH_MAC_LO_ADDR_LO, F.ETH_MAC_HI_ADDR_HI, F.ETH_PFC_CTRL_LOSSY_LIM,
  F.ETH_PFC_CTRL_LOSSLESS, F.ETH_PFC_CTRL_QUANTA, F.ETH_PFC_THR_XOFF_KIB, F.ETH_PFC_THR_XON_KIB, F.ETH_FEC_CORR,
  F.ETH_FEC_UNC, F.ETH_WAKE_CTRL_ENERGY_WAKE, F.ETH_WAKE_CTRL_FRAME_WAKE, F.ETH_WAKE_CTRL_KEY_SET,
  F.ETH_WAKE_KEY0_LO, F.ETH_WAKE_KEY0_HI, F.ETH_WAKE_KEY1_LO, F.ETH_WAKE_KEY1_HI, F.ETH_RX_DROP_OVER_MTU,
  F.ETH_RX_DROP_MALFORMED, F.ETH_LOSSY_DROP_COUNT]

/-! ### TTE -/
abbrev F.TTE_STAT_THROTTLE_ECN : Fld := ⟨0x014, 0, 0, .ro, 0x0, false⟩
abbrev F.TTE_INT_RAW_TLS_END : Fld := ⟨0x018, 2, 2, .rw1c, 0x0, false⟩
abbrev F.TTE_INT_RAW_CONN_LOST : Fld := ⟨0x018, 1, 1, .rw1c, 0x0, false⟩
abbrev F.TTE_INT_RAW_POOL_EMPTY : Fld := ⟨0x018, 0, 0, .rw1c, 0x0, false⟩
abbrev F.TTE_L4_PORTS_DISC_PORT : Fld := ⟨0x100, 31, 16, .rw, 0x1F49, false⟩
abbrev F.TTE_L4_PORTS_IO_PORT : Fld := ⟨0x100, 15, 0, .rw, 0x1144, false⟩
abbrev F.TTE_CONN_STAT_POOL_USED : Fld := ⟨0x104, 30, 16, .ro, 0x0, false⟩
abbrev F.TTE_CONN_STAT_MF_USED : Fld := ⟨0x104, 2, 0, .ro, 0x0, false⟩
abbrev F.TTE_SLOT_STAT_TLS_SLOTS : Fld := ⟨0x108, 12, 0, .ro, 0x0, false⟩
abbrev F.TTE_CC_CTRL_INC_STEP : Fld := ⟨0x10C, 31, 24, .rw, 0xA, false⟩
abbrev F.TTE_CC_CTRL_INC_PERIOD : Fld := ⟨0x10C, 23, 16, .rw, 0xA, false⟩
abbrev F.TTE_CC_CTRL_DEC_GAP : Fld := ⟨0x10C, 15, 8, .rw, 0x32, false⟩
abbrev F.TTE_CC_CTRL_DEC_SHIFT : Fld := ⟨0x10C, 2, 0, .rw, 0x3, false⟩
abbrev F.TTE_QP_ERR : Fld := ⟨0x110, 31, 0, .rc, 0x0, false⟩
abbrev F.TTE_TCP_RESET : Fld := ⟨0x114, 31, 0, .rc, 0x0, false⟩
abbrev F.TTE_TLS_END : Fld := ⟨0x118, 31, 0, .rc, 0x0, false⟩
abbrev F.TTE_IF_SEL_INDEX : Fld := ⟨0x11C, 5, 0, .rw, 0x0, false⟩
abbrev F.TTE_IF_ADDR0_ADDR : Fld := ⟨0x120, 31, 0, .rw, 0x0, true⟩
abbrev F.TTE_IF_ADDR1_ADDR : Fld := ⟨0x124, 31, 0, .rw, 0x0, true⟩
abbrev F.TTE_IF_ADDR2_ADDR : Fld := ⟨0x128, 31, 0, .rw, 0x0, true⟩
abbrev F.TTE_IF_ADDR3_ADDR : Fld := ⟨0x12C, 31, 0, .rw, 0x0, true⟩
abbrev F.TTE_IF_CFG_VALID : Fld := ⟨0x130, 31, 31, .rw, 0x0, true⟩
abbrev F.TTE_IF_CFG_MGMT : Fld := ⟨0x130, 30, 30, .rw, 0x0, true⟩
abbrev F.TTE_IF_CFG_PORTS : Fld := ⟨0x130, 29, 28, .rw, 0x0, true⟩
abbrev F.TTE_IF_CFG_DSCP : Fld := ⟨0x130, 20, 15, .rw, 0x0, true⟩
abbrev F.TTE_IF_CFG_PCP : Fld := ⟨0x130, 14, 12, .rw, 0x0, true⟩
abbrev F.TTE_IF_CFG_VLAN : Fld := ⟨0x130, 11, 0, .rw, 0x0, true⟩
/-- Fields of the TTE page, part 0. -/
def tabTte0 : List Fld := [
  F.TTE_STAT_THROTTLE_ECN, F.TTE_INT_RAW_TLS_END, F.TTE_INT_RAW_CONN_LOST, F.TTE_INT_RAW_POOL_EMPTY,
  F.TTE_L4_PORTS_DISC_PORT, F.TTE_L4_PORTS_IO_PORT, F.TTE_CONN_STAT_POOL_USED, F.TTE_CONN_STAT_MF_USED,
  F.TTE_SLOT_STAT_TLS_SLOTS, F.TTE_CC_CTRL_INC_STEP, F.TTE_CC_CTRL_INC_PERIOD, F.TTE_CC_CTRL_DEC_GAP,
  F.TTE_CC_CTRL_DEC_SHIFT, F.TTE_QP_ERR, F.TTE_TCP_RESET, F.TTE_TLS_END, F.TTE_IF_SEL_INDEX, F.TTE_IF_ADDR0_ADDR,
  F.TTE_IF_ADDR1_ADDR, F.TTE_IF_ADDR2_ADDR, F.TTE_IF_ADDR3_ADDR, F.TTE_IF_CFG_VALID, F.TTE_IF_CFG_MGMT,
  F.TTE_IF_CFG_PORTS, F.TTE_IF_CFG_DSCP, F.TTE_IF_CFG_PCP, F.TTE_IF_CFG_VLAN]

/-! ### CFE -/
abbrev F.CFE_STAT_HOLDING : Fld := ⟨0x014, 0, 0, .ro, 0x0, false⟩
abbrev F.CFE_INT_RAW_HOLD_END : Fld := ⟨0x018, 2, 2, .rw1c, 0x0, false⟩
abbrev F.CFE_INT_RAW_DEFER : Fld := ⟨0x018, 1, 1, .rw1c, 0x0, false⟩
abbrev F.CFE_INT_RAW_VIOL : Fld := ⟨0x018, 0, 0, .rw1c, 0x0, false⟩
abbrev F.CFE_ADMITTED : Fld := ⟨0x100, 31, 0, .rc, 0x0, false⟩
abbrev F.CFE_REFUSED : Fld := ⟨0x104, 31, 0, .rc, 0x0, false⟩
abbrev F.CFE_VIOL : Fld := ⟨0x108, 31, 0, .rc, 0x0, false⟩
abbrev F.CFE_DEFER_STAT_PENDING : Fld := ⟨0x10C, 10, 0, .ro, 0x0, false⟩
abbrev F.CFE_ABORTS_NOT_ABORTED : Fld := ⟨0x110, 31, 16, .rc, 0x0, false⟩
abbrev F.CFE_ABORTS_ABORTED : Fld := ⟨0x110, 15, 0, .rc, 0x0, false⟩
abbrev F.CFE_HOLD_LAST_US : Fld := ⟨0x114, 16, 0, .ro, 0x0, false⟩
/-- Fields of the CFE page, part 0. -/
def tabCfe0 : List Fld := [
  F.CFE_STAT_HOLDING, F.CFE_INT_RAW_HOLD_END, F.CFE_INT_RAW_DEFER, F.CFE_INT_RAW_VIOL, F.CFE_ADMITTED,
  F.CFE_REFUSED, F.CFE_VIOL, F.CFE_DEFER_STAT_PENDING, F.CFE_ABORTS_NOT_ABORTED, F.CFE_ABORTS_ABORTED,
  F.CFE_HOLD_LAST_US]

/-! ### QENG -/
abbrev F.QENG_INT_RAW_DISCARD : Fld := ⟨0x018, 0, 0, .rw1c, 0x0, false⟩
abbrev F.QENG_ARB_CTRL_TENANT_BURST : Fld := ⟨0x100, 7, 0, .rw, 0x10, false⟩
abbrev F.QENG_QUEUE_STAT_IOQ : Fld := ⟨0x104, 14, 0, .ro, 0x0, false⟩
abbrev F.QENG_READ_HELD : Fld := ⟨0x108, 31, 0, .rc, 0x0, false⟩
abbrev F.QENG_DISCARDED : Fld := ⟨0x10C, 31, 0, .rc, 0x0, false⟩
abbrev F.QENG_TGT0_STRICT_US : Fld := ⟨0x200, 31, 16, .rw, 0x12C, false⟩
abbrev F.QENG_TGT0_STANDARD_US : Fld := ⟨0x200, 15, 0, .rw, 0x7D0, false⟩
abbrev F.QENG_TGT1_PROG_DL_MS : Fld := ⟨0x204, 31, 24, .rw, 0x14, false⟩
abbrev F.QENG_TGT1_BULK_US : Fld := ⟨0x204, 15, 0, .rw, 0x4E20, false⟩
abbrev F.QENG_BG_CTRL_GATHER_US : Fld := ⟨0x208, 31, 24, .rw, 0x1E, false⟩
abbrev F.QENG_BG_CTRL_BATCH : Fld := ⟨0x208, 23, 20, .rw, 0x4, false⟩
abbrev F.QENG_BG_CTRL_HELD_WIN : Fld := ⟨0x208, 19, 16, .rw, 0x8, false⟩
abbrev F.QENG_BG_CTRL_URG_WR_PCT : Fld := ⟨0x208, 15, 8, .rw, 0x32, false⟩
abbrev F.QENG_BG_CTRL_BG_WIN_MS : Fld := ⟨0x208, 7, 0, .rw, 0xA, false⟩
abbrev F.QENG_TOK_CTRL_BURST_MS : Fld := ⟨0x20C, 7, 0, .rw, 0xA, false⟩
abbrev F.QENG_THROTTLE_ACTIVE : Fld := ⟨0x210, 31, 31, .ro, 0x0, false⟩
abbrev F.QENG_THROTTLE_RD_GBPS : Fld := ⟨0x210, 23, 16, .rw, 0x30, false⟩
abbrev F.QENG_THROTTLE_WR_GBPS : Fld := ⟨0x210, 15, 8, .rw, 0x18, false⟩
abbrev F.QENG_MISS_STRICT_COUNT : Fld := ⟨0x214, 31, 0, .rc, 0x0, false⟩
abbrev F.QENG_MISS_STANDARD_COUNT : Fld := ⟨0x218, 31, 0, .rc, 0x0, false⟩
abbrev F.QENG_MISS_BULK_COUNT : Fld := ⟨0x21C, 31, 0, .rc, 0x0, false⟩
abbrev F.QENG_RATE_HELD_COUNT : Fld := ⟨0x220, 31, 0, .rc, 0x0, false⟩
abbrev F.QENG_THR_HELD_COUNT : Fld := ⟨0x224, 31, 0, .rc, 0x0, false⟩
abbrev F.QENG_BG_HELD_FORCED : Fld := ⟨0x228, 31, 16, .rc, 0x0, false⟩
abbrev F.QENG_BG_HELD_HELD : Fld := ⟨0x228, 15, 0, .rc, 0x0, false⟩
abbrev F.QENG_ES_PROG_COUNT : Fld := ⟨0x22C, 31, 0, .rc, 0x0, false⟩
abbrev F.QENG_QUEUE_PEAK : Fld := ⟨0x230, 24, 16, .rc, 0x0, false⟩
abbrev F.QENG_QUEUE_STALLS : Fld := ⟨0x230, 15, 0, .rc, 0x0, false⟩
/-- Fields of the QENG page, part 0. -/
def tabQeng0 : List Fld := [
  F.QENG_INT_RAW_DISCARD, F.QENG_ARB_CTRL_TENANT_BURST, F.QENG_QUEUE_STAT_IOQ, F.QENG_READ_HELD, F.QENG_DISCARDED,
  F.QENG_TGT0_STRICT_US, F.QENG_TGT0_STANDARD_US, F.QENG_TGT1_PROG_DL_MS, F.QENG_TGT1_BULK_US,
  F.QENG_BG_CTRL_GATHER_US, F.QENG_BG_CTRL_BATCH, F.QENG_BG_CTRL_HELD_WIN, F.QENG_BG_CTRL_URG_WR_PCT,
  F.QENG_BG_CTRL_BG_WIN_MS, F.QENG_TOK_CTRL_BURST_MS, F.QENG_THROTTLE_ACTIVE, F.QENG_THROTTLE_RD_GBPS,
  F.QENG_THROTTLE_WR_GBPS, F.QENG_MISS_STRICT_COUNT, F.QENG_MISS_STANDARD_COUNT, F.QENG_MISS_BULK_COUNT,
  F.QENG_RATE_HELD_COUNT, F.QENG_THR_HELD_COUNT, F.QENG_BG_HELD_FORCED, F.QENG_BG_HELD_HELD, F.QENG_ES_PROG_COUNT,
  F.QENG_QUEUE_PEAK, F.QENG_QUEUE_STALLS]

/-! ### ZNE -/
abbrev F.ZNE_CAP0_MAX_OPEN : Fld := ⟨0x008, 31, 16, .ro, 0x2000, false⟩
abbrev F.ZNE_CAP0_MAX_ACTIVE : Fld := ⟨0x008, 15, 0, .ro, 0x4000, false⟩
abbrev F.ZNE_CAP1_MAX_DS : Fld := ⟨0x00C, 23, 16, .ro, 0x80, false⟩
abbrev F.ZNE_CAP1_MAX_STREAMS : Fld := ⟨0x00C, 15, 8, .ro, 0x1C, false⟩
abbrev F.ZNE_CAP1_ZSIZES : Fld := ⟨0x00C, 2, 0, .ro, 0x7, false⟩
abbrev F.ZNE_INT_RAW_DS_DEGRADED : Fld := ⟨0x018, 2, 2, .rw1c, 0x0, false⟩
abbrev F.ZNE_INT_RAW_BANDS_LOW : Fld := ⟨0x018, 1, 1, .rw1c, 0x0, false⟩
abbrev F.ZNE_INT_RAW_EPOCH_RO : Fld := ⟨0x018, 0, 0, .rw1c, 0x0, false⟩
abbrev F.ZNE_ZONE_STAT_OPEN : Fld := ⟨0x100, 29, 16, .ro, 0x0, true⟩
abbrev F.ZNE_ZONE_STAT_ACTIVE : Fld := ⟨0x100, 14, 0, .ro, 0x0, true⟩
abbrev F.ZNE_RES_STAT_OPEN_RES : Fld := ⟨0x104, 29, 16, .ro, 0x0, true⟩
abbrev F.ZNE_RES_STAT_ACTIVE_RES : Fld := ⟨0x104, 14, 0, .ro, 0x0, true⟩
abbrev F.ZNE_DS_STAT_DS_COUNT : Fld := ⟨0x108, 23, 16, .ro, 0x0, true⟩
abbrev F.ZNE_DS_STAT_OPEN_BANDS : Fld := ⟨0x108, 12, 0, .ro, 0x0, false⟩
abbrev F.ZNE_ZIW : Fld := ⟨0x10C, 31, 0, .rc, 0x0, false⟩
abbrev F.ZNE_HINT_CLAMP : Fld := ⟨0x110, 31, 0, .rc, 0x0, false⟩
abbrev F.ZNE_UNIT_REPLACE : Fld := ⟨0x114, 31, 0, .rc, 0x0, false⟩
abbrev F.ZNE_EPOCH_RO_COUNT : Fld := ⟨0x118, 31, 0, .ro, 0x0, true⟩
abbrev F.ZNE_DS_THR_BANDS_LOW : Fld := ⟨0x11C, 7, 0, .rw, 0x4, false⟩
/-- Fields of the ZNE page, part 0. -/
def tabZne0 : List Fld := [
  F.ZNE_CAP0_MAX_OPEN, F.ZNE_CAP0_MAX_ACTIVE, F.ZNE_CAP1_MAX_DS, F.ZNE_CAP1_MAX_STREAMS, F.ZNE_CAP1_ZSIZES,
  F.ZNE_INT_RAW_DS_DEGRADED, F.ZNE_INT_RAW_BANDS_LOW, F.ZNE_INT_RAW_EPOCH_RO, F.ZNE_ZONE_STAT_OPEN,
  F.ZNE_ZONE_STAT_ACTIVE, F.ZNE_RES_STAT_OPEN_RES, F.ZNE_RES_STAT_ACTIVE_RES, F.ZNE_DS_STAT_DS_COUNT,
  F.ZNE_DS_STAT_OPEN_BANDS, F.ZNE_ZIW, F.ZNE_HINT_CLAMP, F.ZNE_UNIT_REPLACE, F.ZNE_EPOCH_RO_COUNT,
  F.ZNE_DS_THR_BANDS_LOW]

/-! ### MAPE -/
abbrev F.MAPE_INT_RAW_UNREADABLE : Fld := ⟨0x018, 4, 4, .rw1c, 0x0, false⟩
abbrev F.MAPE_INT_RAW_POISON : Fld := ⟨0x018, 3, 3, .rw1c, 0x0, false⟩
abbrev F.MAPE_INT_RAW_RETIRE : Fld := ⟨0x018, 2, 2, .rw1c, 0x0, false⟩
abbrev F.MAPE_INT_RAW_SPARE_LOW : Fld := ⟨0x018, 1, 1, .rw1c, 0x0, false⟩
abbrev F.MAPE_INT_RAW_FULL : Fld := ⟨0x018, 0, 0, .rw1c, 0x0, false⟩
abbrev F.MAPE_POOL_FWD_MIB : Fld := ⟨0x100, 23, 0, .ro, 0x0, false⟩
abbrev F.MAPE_RES_RES_MIB : Fld := ⟨0x104, 23, 0, .ro, 0x0, true⟩
abbrev F.MAPE_UST_UST_MIB : Fld := ⟨0x108, 23, 0, .ro, 0x0, false⟩
abbrev F.MAPE_CONV_LO_SECT_LO : Fld := ⟨0x10C, 31, 0, .ro, 0x0, true⟩
abbrev F.MAPE_CONV_HI_SECT_HI : Fld := ⟨0x110, 7, 0, .ro, 0x0, true⟩
abbrev F.MAPE_GC_CTRL_START : Fld := ⟨0x114, 23, 16, .rw, 0x6, false⟩
abbrev F.MAPE_GC_CTRL_URGENT : Fld := ⟨0x114, 15, 8, .rw, 0x3, false⟩
abbrev F.MAPE_GC_CTRL_RELOC_RES : Fld := ⟨0x114, 7, 0, .rw, 0x2, false⟩
abbrev F.MAPE_DISTURB_SLC_K : Fld := ⟨0x118, 23, 16, .rw, 0xFF, false⟩
abbrev F.MAPE_DISTURB_TLC_K : Fld := ⟨0x118, 15, 8, .rw, 0x64, false⟩
abbrev F.MAPE_DISTURB_QLC_K : Fld := ⟨0x118, 7, 0, .rw, 0x28, false⟩
abbrev F.MAPE_RETAIN_PATROL_H : Fld := ⟨0x11C, 31, 24, .rw, 0x18, false⟩
abbrev F.MAPE_RETAIN_TLC_DAYS : Fld := ⟨0x11C, 15, 8, .rw, 0xB4, false⟩
abbrev F.MAPE_RETAIN_QLC_DAYS : Fld := ⟨0x11C, 7, 0, .rw, 0x5A, false⟩
abbrev F.MAPE_SPARE_CTRL_WARN_PCT : Fld := ⟨0x120, 15, 8, .rw, 0xA, false⟩
abbrev F.MAPE_SPARE_CTRL_SPARE_RES : Fld := ⟨0x120, 7, 0, .rw, 0x30, false⟩
abbrev F.MAPE_SPARE_STAT_ZERO_DIES : Fld := ⟨0x124, 27, 16, .ro, 0x0, false⟩
abbrev F.MAPE_SPARE_STAT_MIN_PCT : Fld := ⟨0x124, 6, 0, .ro, 0x0, false⟩
abbrev F.MAPE_FULL_STAT_COUNT : Fld := ⟨0x128, 7, 0, .ro, 0x0, false⟩
abbrev F.MAPE_FULL0_SETS : Fld := ⟨0x12C, 31, 0, .ro, 0x0, false⟩
abbrev F.MAPE_FULL1_SETS : Fld := ⟨0x130, 31, 0, .ro, 0x0, false⟩
abbrev F.MAPE_FULL2_SETS : Fld := ⟨0x134, 31, 0, .ro, 0x0, false⟩
abbrev F.MAPE_FULL3_SETS : Fld := ⟨0x138, 31, 0, .ro, 0x0, false⟩
abbrev F.MAPE_RELOCATED : Fld := ⟨0x13C, 31, 0, .rc, 0x0, false⟩
abbrev F.MAPE_RETIRED : Fld := ⟨0x140, 31, 0, .rc, 0x0, false⟩
abbrev F.MAPE_POISONED : Fld := ⟨0x144, 31, 0, .rc, 0x0, false⟩
abbrev F.MAPE_UNREADABLE : Fld := ⟨0x148, 31, 0, .rc, 0x0, false⟩
abbrev F.MAPE_CAS_LOST : Fld := ⟨0x14C, 31, 0, .rc, 0x0, false⟩
/-- Fields of the MAPE page, part 0. -/
def tabMape0 : List Fld := [
  F.MAPE_INT_RAW_UNREADABLE, F.MAPE_INT_RAW_POISON, F.MAPE_INT_RAW_RETIRE, F.MAPE_INT_RAW_SPARE_LOW,
  F.MAPE_INT_RAW_FULL, F.MAPE_POOL_FWD_MIB, F.MAPE_RES_RES_MIB, F.MAPE_UST_UST_MIB, F.MAPE_CONV_LO_SECT_LO,
  F.MAPE_CONV_HI_SECT_HI, F.MAPE_GC_CTRL_START, F.MAPE_GC_CTRL_URGENT, F.MAPE_GC_CTRL_RELOC_RES,
  F.MAPE_DISTURB_SLC_K, F.MAPE_DISTURB_TLC_K, F.MAPE_DISTURB_QLC_K, F.MAPE_RETAIN_PATROL_H, F.MAPE_RETAIN_TLC_DAYS,
  F.MAPE_RETAIN_QLC_DAYS, F.MAPE_SPARE_CTRL_WARN_PCT, F.MAPE_SPARE_CTRL_SPARE_RES, F.MAPE_SPARE_STAT_ZERO_DIES,
  F.MAPE_SPARE_STAT_MIN_PCT, F.MAPE_FULL_STAT_COUNT, F.MAPE_FULL0_SETS, F.MAPE_FULL1_SETS, F.MAPE_FULL2_SETS,
  F.MAPE_FULL3_SETS, F.MAPE_RELOCATED, F.MAPE_RETIRED]
/-- Fields of the MAPE page, part 1. -/
def tabMape1 : List Fld := [
  F.MAPE_POISONED, F.MAPE_UNREADABLE, F.MAPE_CAS_LOST]

/-! ### CACHE -/
abbrev F.CACHE_CAP0_SETS : Fld := ⟨0x008, 31, 16, .ro, 0x1000, false⟩
abbrev F.CACHE_CAP0_WAYS_MAX : Fld := ⟨0x008, 15, 8, .ro, 0x10, false⟩
abbrev F.CACHE_CAP0_LINE : Fld := ⟨0x008, 7, 0, .ro, 0x40, false⟩
abbrev F.CACHE_CAP1_SIZE_KIB : Fld := ⟨0x00C, 15, 0, .ro, 0x1000, false⟩
abbrev F.CACHE_CTRL_WAYS : Fld := ⟨0x010, 8, 4, .rw, 0x10, false⟩
abbrev F.CACHE_CTRL_ENABLE : Fld := ⟨0x010, 0, 0, .rw, 0x0, false⟩
abbrev F.CACHE_STAT_MAINT_BUSY : Fld := ⟨0x014, 2, 2, .ro, 0x0, false⟩
abbrev F.CACHE_STAT_DRAINING : Fld := ⟨0x014, 1, 1, .ro, 0x0, false⟩
abbrev F.CACHE_STAT_ENABLED : Fld := ⟨0x014, 0, 0, .ro, 0x0, false⟩
abbrev F.CACHE_INT_RAW_DRAIN_DONE : Fld := ⟨0x018, 2, 2, .rw1c, 0x0, false⟩
abbrev F.CACHE_INT_RAW_MAINT_DONE : Fld := ⟨0x018, 1, 1, .rw1c, 0x0, false⟩
abbrev F.CACHE_INT_RAW_PARITY : Fld := ⟨0x018, 0, 0, .rw1c, 0x0, false⟩
abbrev F.CACHE_REG_SEL_INDEX : Fld := ⟨0x100, 3, 0, .rw, 0x0, false⟩
abbrev F.CACHE_REG_BASE_LO_BASE_LO : Fld := ⟨0x104, 31, 12, .rw, 0x0, false⟩
abbrev F.CACHE_REG_BASE_HI_BASE_HI : Fld := ⟨0x108, 7, 0, .rw, 0x0, false⟩
abbrev F.CACHE_REG_SIZE_PAGES : Fld := ⟨0x10C, 27, 0, .rw, 0x0, false⟩
abbrev F.CACHE_REG_ATTR_POLICY : Fld := ⟨0x110, 2, 0, .rw, 0x0, false⟩
abbrev F.CACHE_WAY_LOCK_LOCKED : Fld := ⟨0x114, 15, 0, .rw, 0x0, false⟩
abbrev F.CACHE_FILL_MASK_WAYS : Fld := ⟨0x118, 15, 0, .rw, 0x0, false⟩
abbrev F.CACHE_MAINT_ADDR_LO_ADDR_LO : Fld := ⟨0x11C, 31, 6, .rw, 0x0, false⟩
abbrev F.CACHE_MAINT_ADDR_HI_ADDR_HI : Fld := ⟨0x120, 7, 0, .rw, 0x0, false⟩
abbrev F.CACHE_MAINT_SETWAY_WAY : Fld := ⟨0x124, 19, 16, .rw, 0x0, false⟩
abbrev F.CACHE_MAINT_SETWAY_SET : Fld := ⟨0x124, 13, 0, .rw, 0x0, false⟩
abbrev F.CACHE_MAINT_CTRL_LINES_M1 : Fld := ⟨0x128, 31, 16, .rw, 0x0, false⟩
abbrev F.CACHE_MAINT_CTRL_BY_SW : Fld := ⟨0x128, 4, 4, .rw, 0x0, false⟩
abbrev F.CACHE_MAINT_CTRL_OP : Fld := ⟨0x128, 3, 1, .rw, 0x0, false⟩
abbrev F.CACHE_MAINT_CTRL_GO : Fld := ⟨0x128, 0, 0, .wo, 0x0, false⟩
abbrev F.CACHE_HITS : Fld := ⟨0x12C, 31, 0, .rc, 0x0, false⟩
abbrev F.CACHE_MISSES : Fld := ⟨0x130, 31, 0, .rc, 0x0, false⟩
abbrev F.CACHE_PARITY : Fld := ⟨0x134, 31, 0, .rc, 0x0, false⟩
abbrev F.CACHE_NOALLOC : Fld := ⟨0x138, 31, 0, .rc, 0x0, false⟩
/-- Fields of the CACHE page, part 0. -/
def tabCache0 : List Fld := [
  F.CACHE_CAP0_SETS, F.CACHE_CAP0_WAYS_MAX, F.CACHE_CAP0_LINE, F.CACHE_CAP1_SIZE_KIB, F.CACHE_CTRL_WAYS,
  F.CACHE_CTRL_ENABLE, F.CACHE_STAT_MAINT_BUSY, F.CACHE_STAT_DRAINING, F.CACHE_STAT_ENABLED,
  F.CACHE_INT_RAW_DRAIN_DONE, F.CACHE_INT_RAW_MAINT_DONE, F.CACHE_INT_RAW_PARITY, F.CACHE_REG_SEL_INDEX,
  F.CACHE_REG_BASE_LO_BASE_LO, F.CACHE_REG_BASE_HI_BASE_HI, F.CACHE_REG_SIZE_PAGES, F.CACHE_REG_ATTR_POLICY,
  F.CACHE_WAY_LOCK_LOCKED, F.CACHE_FILL_MASK_WAYS, F.CACHE_MAINT_ADDR_LO_ADDR_LO, F.CACHE_MAINT_ADDR_HI_ADDR_HI,
  F.CACHE_MAINT_SETWAY_WAY, F.CACHE_MAINT_SETWAY_SET, F.CACHE_MAINT_CTRL_LINES_M1, F.CACHE_MAINT_CTRL_BY_SW,
  F.CACHE_MAINT_CTRL_OP, F.CACHE_MAINT_CTRL_GO, F.CACHE_HITS, F.CACHE_MISSES, F.CACHE_PARITY]
/-- Fields of the CACHE page, part 1. -/
def tabCache1 : List Fld := [
  F.CACHE_NOALLOC]

/-! ### BAS -/
abbrev F.BAS_CAP0_CREDITS : Fld := ⟨0x008, 31, 16, .ro, 0x8000, false⟩
abbrev F.BAS_INT_RAW_UNC : Fld := ⟨0x018, 1, 1, .rw1c, 0x0, false⟩
abbrev F.BAS_INT_RAW_STALL : Fld := ⟨0x018, 0, 0, .rw1c, 0x0, false⟩
abbrev F.BAS_POOL0_DRAM : Fld := ⟨0x100, 31, 31, .ro, 0x0, false⟩
abbrev F.BAS_POOL0_SIZE_LOG2 : Fld := ⟨0x100, 30, 26, .ro, 0x0, false⟩
abbrev F.BAS_POOL0_COUNT : Fld := ⟨0x100, 16, 0, .ro, 0x0, false⟩
abbrev F.BAS_POOL1_DRAM : Fld := ⟨0x104, 31, 31, .ro, 0x0, false⟩
abbrev F.BAS_POOL1_SIZE_LOG2 : Fld := ⟨0x104, 30, 26, .ro, 0x0, false⟩
abbrev F.BAS_POOL1_COUNT : Fld := ⟨0x104, 16, 0, .ro, 0x0, false⟩
abbrev F.BAS_POOL2_DRAM : Fld := ⟨0x108, 31, 31, .ro, 0x0, false⟩
abbrev F.BAS_POOL2_SIZE_LOG2 : Fld := ⟨0x108, 30, 26, .ro, 0x0, false⟩
abbrev F.BAS_POOL2_COUNT : Fld := ⟨0x108, 16, 0, .ro, 0x0, false⟩
abbrev F.BAS_POOL3_DRAM : Fld := ⟨0x10C, 31, 31, .ro, 0x0, false⟩
abbrev F.BAS_POOL3_SIZE_LOG2 : Fld := ⟨0x10C, 30, 26, .ro, 0x0, false⟩
abbrev F.BAS_POOL3_COUNT : Fld := ⟨0x10C, 16, 0, .ro, 0x0, false⟩
abbrev F.BAS_POOL4_DRAM : Fld := ⟨0x110, 31, 31, .ro, 0x0, false⟩
abbrev F.BAS_POOL4_SIZE_LOG2 : Fld := ⟨0x110, 30, 26, .ro, 0x0, false⟩
abbrev F.BAS_POOL4_COUNT : Fld := ⟨0x110, 16, 0, .ro, 0x0, false⟩
abbrev F.BAS_FREE0_FREE : Fld := ⟨0x114, 16, 0, .ro, 0x0, false⟩
abbrev F.BAS_FREE1_FREE : Fld := ⟨0x118, 16, 0, .ro, 0x0, false⟩
abbrev F.BAS_FREE2_FREE : Fld := ⟨0x11C, 16, 0, .ro, 0x0, false⟩
abbrev F.BAS_FREE3_FREE : Fld := ⟨0x120, 16, 0, .ro, 0x0, false⟩
abbrev F.BAS_FREE4_FREE : Fld := ⟨0x124, 16, 0, .ro, 0x0, false⟩
abbrev F.BAS_CREDITS_RESERVED : Fld := ⟨0x128, 31, 16, .ro, 0x0, true⟩
abbrev F.BAS_CREDITS_IN_USE : Fld := ⟨0x128, 15, 0, .ro, 0x0, false⟩
abbrev F.BAS_FALLBACK_COUNT : Fld := ⟨0x12C, 31, 0, .rc, 0x0, false⟩
abbrev F.BAS_STALLS_COUNT : Fld := ⟨0x130, 31, 0, .rc, 0x0, false⟩
abbrev F.BAS_ECC_UNC : Fld := ⟨0x134, 31, 16, .rc, 0x0, false⟩
abbrev F.BAS_ECC_CORR : Fld := ⟨0x134, 15, 0, .rc, 0x0, false⟩
/-- Fields of the BAS page, part 0. -/
def tabBas0 : List Fld := [
  F.BAS_CAP0_CREDITS, F.BAS_INT_RAW_UNC, F.BAS_INT_RAW_STALL, F.BAS_POOL0_DRAM, F.BAS_POOL0_SIZE_LOG2,
  F.BAS_POOL0_COUNT, F.BAS_POOL1_DRAM, F.BAS_POOL1_SIZE_LOG2, F.BAS_POOL1_COUNT, F.BAS_POOL2_DRAM,
  F.BAS_POOL2_SIZE_LOG2, F.BAS_POOL2_COUNT, F.BAS_POOL3_DRAM, F.BAS_POOL3_SIZE_LOG2, F.BAS_POOL3_COUNT,
  F.BAS_POOL4_DRAM, F.BAS_POOL4_SIZE_LOG2, F.BAS_POOL4_COUNT, F.BAS_FREE0_FREE, F.BAS_FREE1_FREE, F.BAS_FREE2_FREE,
  F.BAS_FREE3_FREE, F.BAS_FREE4_FREE, F.BAS_CREDITS_RESERVED, F.BAS_CREDITS_IN_USE, F.BAS_FALLBACK_COUNT,
  F.BAS_STALLS_COUNT, F.BAS_ECC_UNC, F.BAS_ECC_CORR]

/-! ### CSX -/
abbrev F.CSX_CAP0_CORES : Fld := ⟨0x008, 31, 24, .ro, 0x10, false⟩
abbrev F.CSX_CAP0_GBPS : Fld := ⟨0x008, 23, 16, .ro, 0x20, false⟩
abbrev F.CSX_CAP0_CTX : Fld := ⟨0x008, 15, 8, .ro, 0x40, false⟩
abbrev F.CSX_CAP0_KCACHE : Fld := ⟨0x008, 7, 0, .ro, 0x8, false⟩
abbrev F.CSX_INT_RAW_CORE_FAIL : Fld := ⟨0x018, 2, 2, .rw1c, 0x0, false⟩
abbrev F.CSX_INT_RAW_TLS_FAIL : Fld := ⟨0x018, 1, 1, .rw1c, 0x0, false⟩
abbrev F.CSX_INT_RAW_AUTH_FAIL : Fld := ⟨0x018, 0, 0, .rw1c, 0x0, false⟩
abbrev F.CSX_SCHED_CTRL_PREEMPT_MIN : Fld := ⟨0x100, 15, 8, .rw, 0x40, false⟩
abbrev F.CSX_SCHED_CTRL_PREEMPT_MAX : Fld := ⟨0x100, 2, 0, .rw, 0x4, false⟩
abbrev F.CSX_SCHED_STAT_CORES_OK : Fld := ⟨0x104, 31, 16, .ro, 0x0, false⟩
abbrev F.CSX_SCHED_STAT_CTX_USED : Fld := ⟨0x104, 14, 8, .ro, 0x0, false⟩
abbrev F.CSX_SCHED_STAT_QUEUED : Fld := ⟨0x104, 7, 0, .ro, 0x0, false⟩
abbrev F.CSX_SECT_ENC_COUNT : Fld := ⟨0x108, 31, 0, .rc, 0x0, false⟩
abbrev F.CSX_SECT_DEC_COUNT : Fld := ⟨0x10C, 31, 0, .rc, 0x0, false⟩
abbrev F.CSX_AUTH_FAIL_TLS : Fld := ⟨0x110, 31, 16, .rc, 0x0, false⟩
abbrev F.CSX_AUTH_FAIL_SECTOR : Fld := ⟨0x110, 15, 0, .rc, 0x0, false⟩
abbrev F.CSX_TLS_REC_COUNT : Fld := ⟨0x114, 31, 0, .rc, 0x0, false⟩
abbrev F.CSX_PREEMPTS_COUNT : Fld := ⟨0x118, 31, 0, .rc, 0x0, false⟩
abbrev F.CSX_KEY_LOADS_COUNT : Fld := ⟨0x11C, 31, 0, .rc, 0x0, false⟩
/-- Fields of the CSX page, part 0. -/
def tabCsx0 : List Fld := [
  F.CSX_CAP0_CORES, F.CSX_CAP0_GBPS, F.CSX_CAP0_CTX, F.CSX_CAP0_KCACHE, F.CSX_INT_RAW_CORE_FAIL,
  F.CSX_INT_RAW_TLS_FAIL, F.CSX_INT_RAW_AUTH_FAIL, F.CSX_SCHED_CTRL_PREEMPT_MIN, F.CSX_SCHED_CTRL_PREEMPT_MAX,
  F.CSX_SCHED_STAT_CORES_OK, F.CSX_SCHED_STAT_CTX_USED, F.CSX_SCHED_STAT_QUEUED, F.CSX_SECT_ENC_COUNT,
  F.CSX_SECT_DEC_COUNT, F.CSX_AUTH_FAIL_TLS, F.CSX_AUTH_FAIL_SECTOR, F.CSX_TLS_REC_COUNT, F.CSX_PREEMPTS_COUNT,
  F.CSX_KEY_LOADS_COUNT]

/-! ### SOR -/
abbrev F.SOR_CAP0_SLOTS : Fld := ⟨0x008, 31, 16, .ro, 0x2000, false⟩
abbrev F.SOR_CAP0_NS_SLOTS : Fld := ⟨0x008, 15, 0, .ro, 0x400, false⟩
abbrev F.SOR_INT_RAW_WP : Fld := ⟨0x018, 3, 3, .rw1c, 0x0, false⟩
abbrev F.SOR_INT_RAW_KEY_LOST : Fld := ⟨0x018, 2, 2, .rw1c, 0x0, false⟩
abbrev F.SOR_INT_RAW_CRED_FAIL : Fld := ⟨0x018, 1, 1, .rw1c, 0x0, false⟩
abbrev F.SOR_INT_RAW_KA_FAIL : Fld := ⟨0x018, 0, 0, .rw1c, 0x0, false⟩
abbrev F.SOR_SLOT_SEL_SLOT : Fld := ⟨0x100, 12, 0, .rw, 0x0, false⟩
abbrev F.SOR_SLOT_STAT_STATE : Fld := ⟨0x104, 31, 29, .ro, 0x0, false⟩
abbrev F.SOR_SLOT_STAT_WP : Fld := ⟨0x104, 28, 28, .ro, 0x0, false⟩
abbrev F.SOR_SLOT_STAT_TENANT : Fld := ⟨0x104, 27, 19, .ro, 0x0, false⟩
abbrev F.SOR_SLOT_STAT_GEN : Fld := ⟨0x104, 15, 0, .ro, 0x0, false⟩
abbrev F.SOR_SLOT_COUNT_BOUND : Fld := ⟨0x108, 26, 16, .ro, 0x0, false⟩
abbrev F.SOR_SLOT_COUNT_UNBOUND : Fld := ⟨0x108, 10, 0, .ro, 0x0, false⟩
abbrev F.SOR_ENROLLED_MF : Fld := ⟨0x10C, 31, 31, .ro, 0x0, false⟩
abbrev F.SOR_ENROLLED_TENANTS : Fld := ⟨0x10C, 9, 0, .ro, 0x0, false⟩
abbrev F.SOR_KA_FAIL_CRED : Fld := ⟨0x110, 31, 16, .rc, 0x0, false⟩
abbrev F.SOR_KA_FAIL_REQ : Fld := ⟨0x110, 15, 0, .rc, 0x0, false⟩
abbrev F.SOR_DESTROYED_COUNT : Fld := ⟨0x114, 31, 0, .rc, 0x0, false⟩
abbrev F.SOR_SPDM_REQ_COUNT : Fld := ⟨0x118, 31, 0, .rc, 0x0, false⟩
abbrev F.SOR_SELFTEST_DONE : Fld := ⟨0x11C, 7, 7, .ro, 0x0, false⟩
abbrev F.SOR_SELFTEST_RBG : Fld := ⟨0x11C, 4, 4, .ro, 0x0, false⟩
abbrev F.SOR_SELFTEST_ECDH : Fld := ⟨0x11C, 3, 3, .ro, 0x0, false⟩
abbrev F.SOR_SELFTEST_ECDSA : Fld := ⟨0x11C, 2, 2, .ro, 0x0, false⟩
abbrev F.SOR_SELFTEST_SHA : Fld := ⟨0x11C, 1, 1, .ro, 0x0, false⟩
abbrev F.SOR_SELFTEST_AES : Fld := ⟨0x11C, 0, 0, .ro, 0x0, false⟩
/-- Fields of the SOR page, part 0. -/
def tabSor0 : List Fld := [
  F.SOR_CAP0_SLOTS, F.SOR_CAP0_NS_SLOTS, F.SOR_INT_RAW_WP, F.SOR_INT_RAW_KEY_LOST, F.SOR_INT_RAW_CRED_FAIL,
  F.SOR_INT_RAW_KA_FAIL, F.SOR_SLOT_SEL_SLOT, F.SOR_SLOT_STAT_STATE, F.SOR_SLOT_STAT_WP, F.SOR_SLOT_STAT_TENANT,
  F.SOR_SLOT_STAT_GEN, F.SOR_SLOT_COUNT_BOUND, F.SOR_SLOT_COUNT_UNBOUND, F.SOR_ENROLLED_MF, F.SOR_ENROLLED_TENANTS,
  F.SOR_KA_FAIL_CRED, F.SOR_KA_FAIL_REQ, F.SOR_DESTROYED_COUNT, F.SOR_SPDM_REQ_COUNT, F.SOR_SELFTEST_DONE,
  F.SOR_SELFTEST_RBG, F.SOR_SELFTEST_ECDH, F.SOR_SELFTEST_ECDSA, F.SOR_SELFTEST_SHA, F.SOR_SELFTEST_AES]

/-! ### MRJ -/
abbrev F.MRJ_INT_RAW_MARK_WAIT : Fld := ⟨0x018, 3, 3, .rw1c, 0x0, false⟩
abbrev F.MRJ_INT_RAW_RING_HOLD : Fld := ⟨0x018, 2, 2, .rw1c, 0x0, false⟩
abbrev F.MRJ_INT_RAW_PL_INCOMPLETE : Fld := ⟨0x018, 1, 1, .rw1c, 0x0, false⟩
abbrev F.MRJ_INT_RAW_RECOVERED : Fld := ⟨0x018, 0, 0, .rw1c, 0x0, false⟩
abbrev F.MRJ_RING_HEAD_LAP : Fld := ⟨0x100, 31, 31, .ro, 0x0, true⟩
abbrev F.MRJ_RING_HEAD_INDEX : Fld := ⟨0x100, 22, 0, .ro, 0x0, true⟩
abbrev F.MRJ_RING_TAIL_LAP : Fld := ⟨0x104, 31, 31, .ro, 0x0, true⟩
abbrev F.MRJ_RING_TAIL_INDEX : Fld := ⟨0x104, 22, 0, .ro, 0x0, true⟩
abbrev F.MRJ_RING_CTRL_HOLD_PCT : Fld := ⟨0x108, 15, 8, .rw, 0x5F, false⟩
abbrev F.MRJ_RING_CTRL_CKPT_PCT : Fld := ⟨0x108, 7, 0, .rw, 0x40, false⟩
abbrev F.MRJ_ACK_STAT_PEAK_MIB : Fld := ⟨0x10C, 28, 16, .ro, 0x0, false⟩
abbrev F.MRJ_ACK_STAT_ACKED_MIB : Fld := ⟨0x10C, 12, 0, .ro, 0x0, false⟩
abbrev F.MRJ_PL_STAT_VALID : Fld := ⟨0x110, 31, 31, .ro, 0x0, true⟩
abbrev F.MRJ_PL_STAT_DONE : Fld := ⟨0x110, 30, 30, .ro, 0x0, true⟩
abbrev F.MRJ_PL_STAT_LAST_STEP : Fld := ⟨0x110, 18, 16, .ro, 0x0, true⟩
abbrev F.MRJ_PL_STAT_MS : Fld := ⟨0x110, 15, 0, .ro, 0x0, true⟩
abbrev F.MRJ_RECOV_STAT_KIND : Fld := ⟨0x114, 31, 30, .ro, 0x0, true⟩
abbrev F.MRJ_RECOV_STAT_MS : Fld := ⟨0x114, 13, 0, .ro, 0x0, false⟩
abbrev F.MRJ_FLUSHES_COUNT : Fld := ⟨0x118, 31, 0, .rc, 0x0, false⟩
abbrev F.MRJ_HOLDS_WINDOW : Fld := ⟨0x11C, 31, 16, .rc, 0x0, false⟩
abbrev F.MRJ_HOLDS_RING : Fld := ⟨0x11C, 15, 0, .rc, 0x0, false⟩
abbrev F.MRJ_MARK_WAITS_COUNT : Fld := ⟨0x120, 31, 0, .rc, 0x0, false⟩
/-- Fields of the MRJ page, part 0. -/
def tabMrj0 : List Fld := [
  F.MRJ_INT_RAW_MARK_WAIT, F.MRJ_INT_RAW_RING_HOLD, F.MRJ_INT_RAW_PL_INCOMPLETE, F.MRJ_INT_RAW_RECOVERED,
  F.MRJ_RING_HEAD_LAP, F.MRJ_RING_HEAD_INDEX, F.MRJ_RING_TAIL_LAP, F.MRJ_RING_TAIL_INDEX, F.MRJ_RING_CTRL_HOLD_PCT,
  F.MRJ_RING_CTRL_CKPT_PCT, F.MRJ_ACK_STAT_PEAK_MIB, F.MRJ_ACK_STAT_ACKED_MIB, F.MRJ_PL_STAT_VALID,
  F.MRJ_PL_STAT_DONE, F.MRJ_PL_STAT_LAST_STEP, F.MRJ_PL_STAT_MS, F.MRJ_RECOV_STAT_KIND, F.MRJ_RECOV_STAT_MS,
  F.MRJ_FLUSHES_COUNT, F.MRJ_HOLDS_WINDOW, F.MRJ_HOLDS_RING, F.MRJ_MARK_WAITS_COUNT]

/-! ### DRX -/
abbrev F.DRX_INT_RAW_CONFIG : Fld := ⟨0x018, 5, 5, .rw1c, 0x0, false⟩
abbrev F.DRX_INT_RAW_NO_SPARE : Fld := ⟨0x018, 4, 4, .rw1c, 0x0, false⟩
abbrev F.DRX_INT_RAW_LOST : Fld := ⟨0x018, 3, 3, .rw1c, 0x0, false⟩
abbrev F.DRX_INT_RAW_SPARE_DONE : Fld := ⟨0x018, 2, 2, .rw1c, 0x0, false⟩
abbrev F.DRX_INT_RAW_SPARE_START : Fld := ⟨0x018, 1, 1, .rw1c, 0x0, false⟩
abbrev F.DRX_INT_RAW_PANIC : Fld := ⟨0x018, 0, 0, .rw1c, 0x0, false⟩
abbrev F.DRX_CONFIG_SPEED : Fld := ⟨0x100, 17, 16, .ro, 0x0, true⟩
abbrev F.DRX_CONFIG_RANKS_INSVC : Fld := ⟨0x100, 11, 8, .ro, 0x0, true⟩
abbrev F.DRX_CONFIG_DIMM : Fld := ⟨0x100, 3, 2, .ro, 0x0, true⟩
abbrev F.DRX_CONFIG_RANKS : Fld := ⟨0x100, 1, 0, .ro, 0x0, true⟩
abbrev F.DRX_SPARE_STATE : Fld := ⟨0x104, 31, 30, .ro, 0x0, true⟩
abbrev F.DRX_SPARE_SPARE_CH : Fld := ⟨0x104, 7, 5, .ro, 0x0, true⟩
abbrev F.DRX_SPARE_SPARE_RANK : Fld := ⟨0x104, 4, 4, .ro, 0x0, true⟩
abbrev F.DRX_SPARE_FAILED_CH : Fld := ⟨0x104, 3, 1, .ro, 0x0, true⟩
abbrev F.DRX_SPARE_FAILED_RANK : Fld := ⟨0x104, 0, 0, .ro, 0x0, true⟩
abbrev F.DRX_COPY_PTR_PIECES : Fld := ⟨0x108, 23, 0, .ro, 0x0, false⟩
abbrev F.DRX_SPARE_CTRL_CE_THR : Fld := ⟨0x10C, 31, 16, .rw, 0x400, false⟩
abbrev F.DRX_SPARE_CTRL_CE_WIN_H : Fld := ⟨0x10C, 15, 8, .rw, 0x18, false⟩
abbrev F.DRX_SPARE_CTRL_FORCE_CH : Fld := ⟨0x10C, 6, 4, .rw, 0x0, false⟩
abbrev F.DRX_SPARE_CTRL_FORCE_RANK : Fld := ⟨0x10C, 3, 3, .rw, 0x0, false⟩
abbrev F.DRX_SPARE_CTRL_FORCE : Fld := ⟨0x10C, 0, 0, .wo, 0x0, false⟩
abbrev F.DRX_RETRAIN_PERIOD_MS : Fld := ⟨0x110, 15, 8, .rw, 0x20, false⟩
abbrev F.DRX_RETRAIN_ENABLE : Fld := ⟨0x110, 0, 0, .rw, 0x1, false⟩
abbrev F.DRX_RTP_CTRL_PANIC_HI : Fld := ⟨0x114, 15, 8, .rw, 0x4B, false⟩
abbrev F.DRX_RTP_CTRL_PANIC_LO : Fld := ⟨0x114, 7, 0, .rw, 0x19, false⟩
abbrev F.DRX_RTP_STAT_PANIC1 : Fld := ⟨0x118, 31, 31, .ro, 0x0, false⟩
abbrev F.DRX_RTP_STAT_LEVEL1_KIB : Fld := ⟨0x118, 28, 16, .ro, 0x0, false⟩
abbrev F.DRX_RTP_STAT_PANIC0 : Fld := ⟨0x118, 15, 15, .ro, 0x0, false⟩
abbrev F.DRX_RTP_STAT_LEVEL0_KIB : Fld := ⟨0x118, 12, 0, .ro, 0x0, false⟩
abbrev F.DRX_PANICS_PORT1 : Fld := ⟨0x11C, 31, 16, .rc, 0x0, false⟩
abbrev F.DRX_PANICS_PORT0 : Fld := ⟨0x11C, 15, 0, .rc, 0x0, false⟩
abbrev F.DRX_RTP_DROPS_COUNT : Fld := ⟨0x120, 31, 0, .rc, 0x0, false⟩
abbrev F.DRX_LOST_MAP : Fld := ⟨0x124, 31, 24, .rc, 0x0, false⟩
abbrev F.DRX_LOST_TABLE : Fld := ⟨0x124, 23, 16, .rc, 0x0, false⟩
abbrev F.DRX_LOST_STAGED : Fld := ⟨0x124, 15, 8, .rc, 0x0, false⟩
abbrev F.DRX_LOST_OTHER : Fld := ⟨0x124, 7, 0, .rc, 0x0, false⟩
abbrev F.DRX_INSVC_MIB : Fld := ⟨0x128, 23, 0, .ro, 0x0, true⟩
/-- Fields of the DRX page, part 0. -/
def tabDrx0 : List Fld := [
  F.DRX_INT_RAW_CONFIG, F.DRX_INT_RAW_NO_SPARE, F.DRX_INT_RAW_LOST, F.DRX_INT_RAW_SPARE_DONE,
  F.DRX_INT_RAW_SPARE_START, F.DRX_INT_RAW_PANIC, F.DRX_CONFIG_SPEED, F.DRX_CONFIG_RANKS_INSVC, F.DRX_CONFIG_DIMM,
  F.DRX_CONFIG_RANKS, F.DRX_SPARE_STATE, F.DRX_SPARE_SPARE_CH, F.DRX_SPARE_SPARE_RANK, F.DRX_SPARE_FAILED_CH,
  F.DRX_SPARE_FAILED_RANK, F.DRX_COPY_PTR_PIECES, F.DRX_SPARE_CTRL_CE_THR, F.DRX_SPARE_CTRL_CE_WIN_H,
  F.DRX_SPARE_CTRL_FORCE_CH, F.DRX_SPARE_CTRL_FORCE_RANK, F.DRX_SPARE_CTRL_FORCE, F.DRX_RETRAIN_PERIOD_MS,
  F.DRX_RETRAIN_ENABLE, F.DRX_RTP_CTRL_PANIC_HI, F.DRX_RTP_CTRL_PANIC_LO, F.DRX_RTP_STAT_PANIC1,
  F.DRX_RTP_STAT_LEVEL1_KIB, F.DRX_RTP_STAT_PANIC0, F.DRX_RTP_STAT_LEVEL0_KIB, F.DRX_PANICS_PORT1]
/-- Fields of the DRX page, part 1. -/
def tabDrx1 : List Fld := [
  F.DRX_PANICS_PORT0, F.DRX_RTP_DROPS_COUNT, F.DRX_LOST_MAP, F.DRX_LOST_TABLE, F.DRX_LOST_STAGED, F.DRX_LOST_OTHER,
  F.DRX_INSVC_MIB]

/-! ### DRC -/
abbrev F.DRC_INT_RAW_UE : Fld := ⟨0x018, 1, 1, .rw1c, 0x0, false⟩
abbrev F.DRC_INT_RAW_CE_THR : Fld := ⟨0x018, 0, 0, .rw1c, 0x0, false⟩
abbrev F.DRC_RANK_STAT_RANK1 : Fld := ⟨0x100, 7, 4, .ro, 0x0, true⟩
abbrev F.DRC_RANK_STAT_RANK0 : Fld := ⟨0x100, 3, 0, .ro, 0x0, true⟩
abbrev F.DRC_CE_RANK1 : Fld := ⟨0x104, 31, 16, .rc, 0x0, false⟩
abbrev F.DRC_CE_RANK0 : Fld := ⟨0x104, 15, 0, .rc, 0x0, false⟩
abbrev F.DRC_UE_RANK1 : Fld := ⟨0x108, 31, 16, .rc, 0x0, false⟩
abbrev F.DRC_UE_RANK0 : Fld := ⟨0x108, 15, 0, .rc, 0x0, false⟩
abbrev F.DRC_CE_WIN_RANK1 : Fld := ⟨0x10C, 31, 16, .ro, 0x0, false⟩
abbrev F.DRC_CE_WIN_RANK0 : Fld := ⟨0x10C, 15, 0, .ro, 0x0, false⟩
abbrev F.DRC_RETRAIN_STAT_LAST_NS : Fld := ⟨0x110, 31, 16, .ro, 0x0, false⟩
abbrev F.DRC_RETRAIN_STAT_COUNT : Fld := ⟨0x110, 15, 0, .rc, 0x0, false⟩
/-- Fields of the DRC page, part 0. -/
def tabDrc0 : List Fld := [
  F.DRC_INT_RAW_UE, F.DRC_INT_RAW_CE_THR, F.DRC_RANK_STAT_RANK1, F.DRC_RANK_STAT_RANK0, F.DRC_CE_RANK1,
  F.DRC_CE_RANK0, F.DRC_UE_RANK1, F.DRC_UE_RANK0, F.DRC_CE_WIN_RANK1, F.DRC_CE_WIN_RANK0,
  F.DRC_RETRAIN_STAT_LAST_NS, F.DRC_RETRAIN_STAT_COUNT]

/-! ### NIM -/
abbrev F.NIM_INT_RAW_LINK_FAIL : Fld := ⟨0x018, 3, 3, .rw1c, 0x0, false⟩
abbrev F.NIM_INT_RAW_RETRAIN : Fld := ⟨0x018, 2, 2, .rw1c, 0x0, false⟩
abbrev F.NIM_INT_RAW_SYNC_LOSS : Fld := ⟨0x018, 1, 1, .rw1c, 0x0, false⟩
abbrev F.NIM_INT_RAW_CRC_FAIL : Fld := ⟨0x018, 0, 0, .rw1c, 0x0, false⟩
abbrev F.NIM_LINK_CTRL_RETRAIN_THR : Fld := ⟨0x100, 15, 8, .rw, 0x8, false⟩
abbrev F.NIM_LINK_CTRL_RETRAIN_REQ : Fld := ⟨0x100, 0, 0, .wo, 0x0, false⟩
abbrev F.NIM_LINK_STAT_STATE : Fld := ⟨0x104, 18, 16, .ro, 0x0, false⟩
abbrev F.NIM_LINK_STAT_H2T_NEXT : Fld := ⟨0x104, 15, 8, .ro, 0x0, false⟩
abbrev F.NIM_LINK_STAT_T2H_NEXT : Fld := ⟨0x104, 7, 0, .ro, 0x0, false⟩
abbrev F.NIM_CRC_FAIL_TILE_RX : Fld := ⟨0x108, 31, 16, .rc, 0x0, false⟩
abbrev F.NIM_CRC_FAIL_HUB_RX : Fld := ⟨0x108, 15, 0, .rc, 0x0, false⟩
abbrev F.NIM_SYNC_LOSS_TILE_RX : Fld := ⟨0x10C, 31, 16, .rc, 0x0, false⟩
abbrev F.NIM_SYNC_LOSS_HUB_RX : Fld := ⟨0x10C, 15, 0, .rc, 0x0, false⟩
abbrev F.NIM_REPLAY_TILE_RX : Fld := ⟨0x110, 31, 16, .rc, 0x0, false⟩
abbrev F.NIM_REPLAY_HUB_RX : Fld := ⟨0x110, 15, 0, .rc, 0x0, false⟩
abbrev F.NIM_RETRAIN_FAILED : Fld := ⟨0x114, 31, 16, .rc, 0x0, false⟩
abbrev F.NIM_RETRAIN_DONE : Fld := ⟨0x114, 15, 0, .rc, 0x0, false⟩
/-- Fields of the NIM page, part 0. -/
def tabNim0 : List Fld := [
  F.NIM_INT_RAW_LINK_FAIL, F.NIM_INT_RAW_RETRAIN, F.NIM_INT_RAW_SYNC_LOSS, F.NIM_INT_RAW_CRC_FAIL,
  F.NIM_LINK_CTRL_RETRAIN_THR, F.NIM_LINK_CTRL_RETRAIN_REQ, F.NIM_LINK_STAT_STATE, F.NIM_LINK_STAT_H2T_NEXT,
  F.NIM_LINK_STAT_T2H_NEXT, F.NIM_CRC_FAIL_TILE_RX, F.NIM_CRC_FAIL_HUB_RX, F.NIM_SYNC_LOSS_TILE_RX,
  F.NIM_SYNC_LOSS_HUB_RX, F.NIM_REPLAY_TILE_RX, F.NIM_REPLAY_HUB_RX, F.NIM_RETRAIN_FAILED, F.NIM_RETRAIN_DONE]

/-! ### TIL -/
abbrev F.TIL_INT_RAW_LANE_OOS : Fld := ⟨0x018, 1, 1, .rw1c, 0x0, false⟩
abbrev F.TIL_INT_RAW_GEOM : Fld := ⟨0x018, 0, 0, .rw1c, 0x0, false⟩
abbrev F.TIL_THY_VER_ROM_VER : Fld := ⟨0x100, 31, 16, .ro, 0x0, false⟩
abbrev F.TIL_THY_VER_PATCH_ID : Fld := ⟨0x100, 15, 0, .ro, 0x0, true⟩
abbrev F.TIL_GEOM0_CW_LEN : Fld := ⟨0x104, 28, 16, .ro, 0x0, true⟩
abbrev F.TIL_GEOM0_SPARE : Fld := ⟨0x104, 11, 0, .ro, 0x0, true⟩
abbrev F.TIL_GEOM1_BLOCKS : Fld := ⟨0x108, 28, 16, .ro, 0x0, true⟩
abbrev F.TIL_GEOM1_WL : Fld := ⟨0x108, 9, 0, .ro, 0x0, true⟩
abbrev F.TIL_GEOM2_MODEL : Fld := ⟨0x10C, 26, 24, .ro, 0x0, true⟩
abbrev F.TIL_GEOM2_PAIR_WL : Fld := ⟨0x10C, 18, 16, .ro, 0x0, true⟩
abbrev F.TIL_GEOM2_DENSITY : Fld := ⟨0x10C, 11, 10, .ro, 0x0, true⟩
abbrev F.TIL_GEOM2_LUNS : Fld := ⟨0x10C, 9, 8, .ro, 0x0, true⟩
abbrev F.TIL_GEOM2_MODES : Fld := ⟨0x10C, 2, 0, .ro, 0x0, true⟩
abbrev F.TIL_TIMING0_TPROG_US : Fld := ⟨0x110, 31, 16, .ro, 0x0, true⟩
abbrev F.TIL_TIMING0_TR_US : Fld := ⟨0x110, 15, 0, .ro, 0x0, true⟩
abbrev F.TIL_TIMING1_TBERS_US : Fld := ⟨0x114, 31, 16, .ro, 0x0, true⟩
abbrev F.TIL_TIMING1_TSUSP_US : Fld := ⟨0x114, 15, 0, .ro, 0x0, true⟩
abbrev F.TIL_SUSP_CTRL_ERASE_HOLD_MS : Fld := ⟨0x118, 31, 24, .rw, 0xA, false⟩
abbrev F.TIL_SUSP_CTRL_PROG_HOLD : Fld := ⟨0x118, 23, 16, .rw, 0xA, false⟩
abbrev F.TIL_SUSP_CTRL_RUN_MIN_US : Fld := ⟨0x118, 15, 8, .rw, 0x28, false⟩
abbrev F.TIL_SUSP_CTRL_ERASE_MAX : Fld := ⟨0x118, 7, 3, .rw, 0x10, false⟩
abbrev F.TIL_SUSP_CTRL_PROG_MAX : Fld := ⟨0x118, 2, 0, .rw, 0x4, false⟩
abbrev F.TIL_LANES_POPULATED : Fld := ⟨0x11C, 31, 16, .ro, 0x0, true⟩
abbrev F.TIL_LANES_INSVC : Fld := ⟨0x11C, 15, 0, .ro, 0x0, true⟩
abbrev F.TIL_TIMING2_TPROG_SLC_US : Fld := ⟨0x120, 31, 16, .ro, 0x0, true⟩
abbrev F.TIL_TIMING2_TRES_US : Fld := ⟨0x120, 15, 0, .ro, 0x0, true⟩
/-- Fields of the TIL page, part 0. -/
def tabTil0 : List Fld := [
  F.TIL_INT_RAW_LANE_OOS, F.TIL_INT_RAW_GEOM, F.TIL_THY_VER_ROM_VER, F.TIL_THY_VER_PATCH_ID, F.TIL_GEOM0_CW_LEN,
  F.TIL_GEOM0_SPARE, F.TIL_GEOM1_BLOCKS, F.TIL_GEOM1_WL, F.TIL_GEOM2_MODEL, F.TIL_GEOM2_PAIR_WL,
  F.TIL_GEOM2_DENSITY, F.TIL_GEOM2_LUNS, F.TIL_GEOM2_MODES, F.TIL_TIMING0_TPROG_US, F.TIL_TIMING0_TR_US,
  F.TIL_TIMING1_TBERS_US, F.TIL_TIMING1_TSUSP_US, F.TIL_SUSP_CTRL_ERASE_HOLD_MS, F.TIL_SUSP_CTRL_PROG_HOLD,
  F.TIL_SUSP_CTRL_RUN_MIN_US, F.TIL_SUSP_CTRL_ERASE_MAX, F.TIL_SUSP_CTRL_PROG_MAX, F.TIL_LANES_POPULATED,
  F.TIL_LANES_INSVC, F.TIL_TIMING2_TPROG_SLC_US, F.TIL_TIMING2_TRES_US]

/-! ### SIG -/
abbrev F.SIG_CAP0_HARD : Fld := ⟨0x008, 31, 24, .ro, 0x10, false⟩
abbrev F.SIG_CAP0_SOFT : Fld := ⟨0x008, 23, 16, .ro, 0x4, false⟩
abbrev F.SIG_CAP0_CHECK : Fld := ⟨0x008, 15, 8, .ro, 0x2, false⟩
abbrev F.SIG_CAP0_ENC : Fld := ⟨0x008, 7, 0, .ro, 0x10, false⟩
abbrev F.SIG_CAP1_Z : Fld := ⟨0x00C, 15, 8, .ro, 0x40, false⟩
abbrev F.SIG_CAP1_MATRICES : Fld := ⟨0x00C, 7, 0, .ro, 0x19, false⟩
abbrev F.SIG_INT_RAW_REBUILD : Fld := ⟨0x018, 2, 2, .rw1c, 0x0, false⟩
abbrev F.SIG_INT_RAW_RAW_FAIL : Fld := ⟨0x018, 1, 1, .rw1c, 0x0, false⟩
abbrev F.SIG_INT_RAW_UNC : Fld := ⟨0x018, 0, 0, .rw1c, 0x0, false⟩
abbrev F.SIG_DEC_CTRL_ITER5 : Fld := ⟨0x100, 29, 24, .rw, 0x28, false⟩
abbrev F.SIG_DEC_CTRL_ITER4 : Fld := ⟨0x100, 21, 16, .rw, 0x14, false⟩
abbrev F.SIG_DEC_CTRL_PASSES : Fld := ⟨0x100, 10, 8, .rw, 0x3, false⟩
abbrev F.SIG_DEC_CTRL_HARD_ITER : Fld := ⟨0x100, 4, 0, .rw, 0xC, false⟩
abbrev F.SIG_DET_CTRL_ERASED_THR : Fld := ⟨0x104, 23, 16, .rw, 0x20, false⟩
abbrev F.SIG_DET_CTRL_TRACK_HITS : Fld := ⟨0x104, 11, 8, .rw, 0x2, false⟩
abbrev F.SIG_DET_CTRL_SOFT_DELTA : Fld := ⟨0x104, 5, 0, .rw, 0x4, false⟩
abbrev F.SIG_RAW_CTRL_RAW_THR : Fld := ⟨0x108, 31, 16, .rw, 0x60, false⟩
abbrev F.SIG_RAW_CTRL_SLC_ALL : Fld := ⟨0x108, 7, 7, .rw, 0x1, false⟩
abbrev F.SIG_RAW_CTRL_RAW_RATE : Fld := ⟨0x108, 6, 0, .rw, 0x40, false⟩
abbrev F.SIG_HMAT_SEL_MATRIX : Fld := ⟨0x10C, 28, 24, .rw, 0x0, false⟩
abbrev F.SIG_HMAT_SEL_ROW : Fld := ⟨0x10C, 22, 16, .rw, 0x0, false⟩
abbrev F.SIG_HMAT_SEL_COL : Fld := ⟨0x10C, 9, 0, .rw, 0x0, false⟩
abbrev F.SIG_HMAT_DATA_SHIFT : Fld := ⟨0x110, 7, 0, .ro, 0x0, false⟩
abbrev F.SIG_ENDS1_COUNT : Fld := ⟨0x114, 31, 0, .rc, 0x0, false⟩
abbrev F.SIG_ENDS2_COUNT : Fld := ⟨0x118, 31, 0, .rc, 0x0, false⟩
abbrev F.SIG_ENDS3_COUNT : Fld := ⟨0x11C, 31, 0, .rc, 0x0, false⟩
abbrev F.SIG_ENDS4_COUNT : Fld := ⟨0x120, 31, 0, .rc, 0x0, false⟩
abbrev F.SIG_ENDS5_COUNT : Fld := ⟨0x124, 31, 0, .rc, 0x0, false⟩
abbrev F.SIG_ENDS6_COUNT : Fld := ⟨0x128, 31, 0, .rc, 0x0, false⟩
abbrev F.SIG_ENDS7_COUNT : Fld := ⟨0x12C, 31, 0, .rc, 0x0, false⟩
abbrev F.SIG_ENDS8_COUNT : Fld := ⟨0x130, 31, 0, .rc, 0x0, false⟩
abbrev F.SIG_REBUILD_FAILED : Fld := ⟨0x134, 31, 16, .rc, 0x0, false⟩
abbrev F.SIG_REBUILD_DONE : Fld := ⟨0x134, 15, 0, .rc, 0x0, false⟩
abbrev F.SIG_RAW_SAMPLES_COUNT : Fld := ⟨0x138, 31, 0, .rc, 0x0, false⟩
abbrev F.SIG_RAW_FAILS_COUNT : Fld := ⟨0x13C, 31, 0, .rc, 0x0, false⟩
abbrev F.SIG_SOFT_STAT_PEAK_WAIT_US : Fld := ⟨0x140, 31, 16, .rc, 0x0, false⟩
abbrev F.SIG_SOFT_STAT_QUEUED : Fld := ⟨0x140, 7, 0, .ro, 0x0, false⟩
/-- Fields of the SIG page, part 0. -/
def tabSig0 : List Fld := [
  F.SIG_CAP0_HARD, F.SIG_CAP0_SOFT, F.SIG_CAP0_CHECK, F.SIG_CAP0_ENC, F.SIG_CAP1_Z, F.SIG_CAP1_MATRICES,
  F.SIG_INT_RAW_REBUILD, F.SIG_INT_RAW_RAW_FAIL, F.SIG_INT_RAW_UNC, F.SIG_DEC_CTRL_ITER5, F.SIG_DEC_CTRL_ITER4,
  F.SIG_DEC_CTRL_PASSES, F.SIG_DEC_CTRL_HARD_ITER, F.SIG_DET_CTRL_ERASED_THR, F.SIG_DET_CTRL_TRACK_HITS,
  F.SIG_DET_CTRL_SOFT_DELTA, F.SIG_RAW_CTRL_RAW_THR, F.SIG_RAW_CTRL_SLC_ALL, F.SIG_RAW_CTRL_RAW_RATE,
  F.SIG_HMAT_SEL_MATRIX, F.SIG_HMAT_SEL_ROW, F.SIG_HMAT_SEL_COL, F.SIG_HMAT_DATA_SHIFT, F.SIG_ENDS1_COUNT,
  F.SIG_ENDS2_COUNT, F.SIG_ENDS3_COUNT, F.SIG_ENDS4_COUNT, F.SIG_ENDS5_COUNT, F.SIG_ENDS6_COUNT, F.SIG_ENDS7_COUNT]
/-- Fields of the SIG page, part 1. -/
def tabSig1 : List Fld := [
  F.SIG_ENDS8_COUNT, F.SIG_REBUILD_FAILED, F.SIG_REBUILD_DONE, F.SIG_RAW_SAMPLES_COUNT, F.SIG_RAW_FAILS_COUNT,
  F.SIG_SOFT_STAT_PEAK_WAIT_US, F.SIG_SOFT_STAT_QUEUED]

/-! ### LAN -/
abbrev F.LAN_INT_RAW_DIE_FAULT : Fld := ⟨0x018, 3, 3, .rw1c, 0x0, false⟩
abbrev F.LAN_INT_RAW_REFUSED : Fld := ⟨0x018, 2, 2, .rw1c, 0x0, false⟩
abbrev F.LAN_INT_RAW_DIAG_DONE : Fld := ⟨0x018, 1, 1, .rw1c, 0x0, false⟩
abbrev F.LAN_INT_RAW_TRAIN_FAIL : Fld := ⟨0x018, 0, 0, .rw1c, 0x0, false⟩
abbrev F.LAN_LINK_TRAINED : Fld := ⟨0x100, 8, 8, .ro, 0x0, false⟩
abbrev F.LAN_LINK_RATE : Fld := ⟨0x100, 2, 0, .ro, 0x0, false⟩
abbrev F.LAN_CE_POP_CE : Fld := ⟨0x104, 7, 0, .ro, 0x0, true⟩
abbrev F.LAN_DIE_STATE0_STATES : Fld := ⟨0x108, 31, 0, .ro, 0x0, false⟩
abbrev F.LAN_DIE_STATE1_STATES : Fld := ⟨0x10C, 31, 0, .ro, 0x0, false⟩
abbrev F.LAN_DIE_STATE2_STATES : Fld := ⟨0x110, 31, 0, .ro, 0x0, false⟩
abbrev F.LAN_DIE_STATE3_STATES : Fld := ⟨0x114, 31, 0, .ro, 0x0, false⟩
abbrev F.LAN_OOS_DIES : Fld := ⟨0x118, 31, 0, .ro, 0x0, true⟩
abbrev F.LAN_FAILS_ERASE : Fld := ⟨0x11C, 31, 16, .rc, 0x0, false⟩
abbrev F.LAN_FAILS_PROGRAM : Fld := ⟨0x11C, 15, 0, .rc, 0x0, false⟩
abbrev F.LAN_TIMEOUTS_COUNT : Fld := ⟨0x120, 15, 0, .rc, 0x0, false⟩
abbrev F.LAN_SUSPENDS_ERASE : Fld := ⟨0x124, 31, 16, .rc, 0x0, false⟩
abbrev F.LAN_SUSPENDS_PROGRAM : Fld := ⟨0x124, 15, 0, .rc, 0x0, false⟩
abbrev F.LAN_SUSP_WAIT_COUNT : Fld := ⟨0x128, 31, 0, .rc, 0x0, false⟩
abbrev F.LAN_REFUSED_NEST : Fld := ⟨0x12C, 31, 16, .rc, 0x0, false⟩
abbrev F.LAN_REFUSED_IN_ERASE : Fld := ⟨0x12C, 15, 0, .rc, 0x0, false⟩
abbrev F.LAN_DIAG_PUA_LO_PUA_LO : Fld := ⟨0x130, 31, 0, .rw, 0x0, false⟩
abbrev F.LAN_DIAG_PUA_HI_PUA_HI : Fld := ⟨0x134, 4, 0, .rw, 0x0, false⟩
abbrev F.LAN_DIAG_CTRL_SLC : Fld := ⟨0x138, 7, 7, .rw, 0x0, false⟩
abbrev F.LAN_DIAG_CTRL_THR : Fld := ⟨0x138, 6, 4, .rw, 0x0, false⟩
abbrev F.LAN_DIAG_CTRL_SUB : Fld := ⟨0x138, 2, 1, .rw, 0x0, false⟩
abbrev F.LAN_DIAG_CTRL_GO : Fld := ⟨0x138, 0, 0, .wo, 0x0, false⟩
abbrev F.LAN_DIAG_STAT_BUSY : Fld := ⟨0x13C, 31, 31, .ro, 0x0, false⟩
abbrev F.LAN_DIAG_STAT_RESULT : Fld := ⟨0x13C, 27, 24, .ro, 0x0, false⟩
abbrev F.LAN_DIAG_STAT_BITS : Fld := ⟨0x13C, 15, 0, .ro, 0x0, false⟩
/-- Fields of the LAN page, part 0. -/
def tabLan0 : List Fld := [
  F.LAN_INT_RAW_DIE_FAULT, F.LAN_INT_RAW_REFUSED, F.LAN_INT_RAW_DIAG_DONE, F.LAN_INT_RAW_TRAIN_FAIL,
  F.LAN_LINK_TRAINED, F.LAN_LINK_RATE, F.LAN_CE_POP_CE, F.LAN_DIE_STATE0_STATES, F.LAN_DIE_STATE1_STATES,
  F.LAN_DIE_STATE2_STATES, F.LAN_DIE_STATE3_STATES, F.LAN_OOS_DIES, F.LAN_FAILS_ERASE, F.LAN_FAILS_PROGRAM,
  F.LAN_TIMEOUTS_COUNT, F.LAN_SUSPENDS_ERASE, F.LAN_SUSPENDS_PROGRAM, F.LAN_SUSP_WAIT_COUNT, F.LAN_REFUSED_NEST,
  F.LAN_REFUSED_IN_ERASE, F.LAN_DIAG_PUA_LO_PUA_LO, F.LAN_DIAG_PUA_HI_PUA_HI, F.LAN_DIAG_CTRL_SLC,
  F.LAN_DIAG_CTRL_THR, F.LAN_DIAG_CTRL_SUB, F.LAN_DIAG_CTRL_GO, F.LAN_DIAG_STAT_BUSY, F.LAN_DIAG_STAT_RESULT,
  F.LAN_DIAG_STAT_BITS]

/-! ### TF -/
abbrev F.TF_CTRL_QUIESCE : Fld := ⟨0x010, 0, 0, .rw, 0x0, false⟩
abbrev F.TF_STAT_STATE : Fld := ⟨0x014, 3, 1, .ro, 0x0, true⟩
abbrev F.TF_STAT_QUIESCED : Fld := ⟨0x014, 0, 0, .ro, 0x0, false⟩
abbrev F.TF_INT_RAW_KATO : Fld := ⟨0x018, 3, 3, .rw1c, 0x0, false⟩
abbrev F.TF_INT_RAW_CTRL_RESET : Fld := ⟨0x018, 2, 2, .rw1c, 0x0, false⟩
abbrev F.TF_INT_RAW_VIOL : Fld := ⟨0x018, 1, 1, .rw1c, 0x0, false⟩
abbrev F.TF_INT_RAW_QUIESCED : Fld := ⟨0x018, 0, 0, .rw1c, 0x0, false⟩
abbrev F.TF_DESC_VER_VER : Fld := ⟨0x100, 31, 0, .ro, 0x0, true⟩
abbrev F.TF_QUEUES_IOQ_GRANT : Fld := ⟨0x104, 23, 16, .ro, 0x0, true⟩
abbrev F.TF_QUEUES_IOQ_USED : Fld := ⟨0x104, 7, 0, .ro, 0x0, false⟩
abbrev F.TF_ZONES_ACTIVE_USED : Fld := ⟨0x108, 31, 16, .ro, 0x0, true⟩
abbrev F.TF_ZONES_OPEN_USED : Fld := ⟨0x108, 15, 0, .ro, 0x0, true⟩
abbrev F.TF_INFLIGHT_COUNT : Fld := ⟨0x10C, 17, 0, .ro, 0x0, false⟩
abbrev F.TF_VIOL_COUNT : Fld := ⟨0x110, 31, 0, .rc, 0x0, false⟩
abbrev F.TF_RESETS_TENANT : Fld := ⟨0x114, 31, 16, .rc, 0x0, false⟩
abbrev F.TF_RESETS_CONTROLLER : Fld := ⟨0x114, 15, 0, .rc, 0x0, false⟩
abbrev F.TF_CONN_EVT_LOST : Fld := ⟨0x118, 31, 16, .rc, 0x0, false⟩
abbrev F.TF_CONN_EVT_PROTO : Fld := ⟨0x118, 15, 0, .rc, 0x0, false⟩
/-- Fields of the TF page, part 0. -/
def tabTf0 : List Fld := [
  F.TF_CTRL_QUIESCE, F.TF_STAT_STATE, F.TF_STAT_QUIESCED, F.TF_INT_RAW_KATO, F.TF_INT_RAW_CTRL_RESET,
  F.TF_INT_RAW_VIOL, F.TF_INT_RAW_QUIESCED, F.TF_DESC_VER_VER, F.TF_QUEUES_IOQ_GRANT, F.TF_QUEUES_IOQ_USED,
  F.TF_ZONES_ACTIVE_USED, F.TF_ZONES_OPEN_USED, F.TF_INFLIGHT_COUNT, F.TF_VIOL_COUNT, F.TF_RESETS_TENANT,
  F.TF_RESETS_CONTROLLER, F.TF_CONN_EVT_LOST, F.TF_CONN_EVT_PROTO]

/-- The fields of one kind of page, beside the common header's. -/
def pageFields : PageKind → List Fld
  | .dir => tabDir0 ++ tabDir1
  | .pwr => tabPwr0 ++ tabPwr1
  | .thm => tabThm0 ++ tabThm1
  | .recd => tabRec0
  | .mtr => tabMtr0
  | .boot => tabBoot0
  | .fwp => tabFwp0
  | .sea => tabSea0
  | .mgt => tabMgt0
  | .gpio => tabGpio0
  | .dbg => tabDbg0
  | .eth => tabEth0
  | .tte => tabTte0
  | .cfe => tabCfe0
  | .qeng => tabQeng0
  | .zne => tabZne0
  | .mape => tabMape0 ++ tabMape1
  | .mcc => tabCache0 ++ tabCache1
  | .ccc => tabCache0 ++ tabCache1
  | .bas => tabBas0
  | .csx => tabCsx0
  | .sor => tabSor0
  | .mrj => tabMrj0
  | .drx => tabDrx0 ++ tabDrx1
  | .drc => tabDrc0
  | .nim => tabNim0
  | .til => tabTil0
  | .sig => tabSig0 ++ tabSig1
  | .lan => tabLan0
  | .tf => tabTf0

end Sys2Proof.Machine
end

