-- ==== Sys2Proof/Machine/State.lean ====
section
/-! DEFINITION. The state of the block: everything the spec gives it, as plain data, with the queue of commands that
wait. State.reset is the part right after its first POR, before start-up. -/

namespace Sys2Proof.Machine

/-- Reasons a command stops the block with a fault. No command of this block does: an access to an address without a
page is answered with a status (R72), and a command the spec gives no effect in the present state has none. -/
inductive Fault
  /-- Raised by nothing. Safe: it would stop the machine where the part goes on. -/
  | none
  deriving DecidableEq, Repr

/-- Reasons a command is refused. -/
inductive Refusal
  /-- Raised by an arm of exec whose command has no meaning yet. Safe: the model stops where the part goes on. -/
  | notModelled (mnemonic : String)
  deriving DecidableEq, Repr

/-- The part. -/
structure State where
  /-- The commands that wait, first in first out. -/
  pending : List Instr := []
  /-- What has left the part, newest first: completions, frames, events, answers. -/
  out : List Out := []
  /-- The model's clock in ns (log 16). -/
  now : Nat := 0
  /-- The model's own counter of free values used so far (log 4). -/
  free : Nat := 0
  /-- Register words by byte address (R12, R50); an unlisted register holds its reset word (R16). -/
  regs : FMap Word := []
  /-- The operating mode (R591) or where the part is outside one (R678, R688). -/
  mode : Mode := .reset
  /-- POS, power-on seconds (R643). -/
  pos : Nat := 0
  /-- The count of power cycles (R643). -/
  pcyc : Nat := 0
  /-- The fault queue and the central fault log (R674, R675). -/
  flog : FaultUnit := {}
  /-- Units out of service, as the sealed configuration records them (R668). -/
  oos : Oos := {}
  /-- Sideband and interrupt routing (R88–R100, R684). -/
  mgmt : Mgmt := {}
  /-- The four Nimbus links (R25–R40). -/
  nims : FMap NimLink := []
  /-- The two Ethernet ports (R101–R116, R142–R144). -/
  eth : FMap EthPort := []
  /-- The committed interface table (R106, R156). -/
  ifs : FMap IfEntry := []
  /-- Connections and queue pairs by name (R110, R118–R134). -/
  conns : FMap Conn := []
  /-- Frames that wait for a paused priority or for a link, oldest first (R113, R126). -/
  txWait : List Out := []
  /-- Transport key slots in use, with the key each holds (R137). -/
  tslots : FMap Nat := []
  /-- Controllers by function; 512 is MF (R158). -/
  ctrls : FMap Ctrl := []
  /-- Tenants by number (R200–R238). -/
  tenants : FMap Tenant := []
  /-- Namespaces by key slot (R218). -/
  nss : FMap Ns := []
  /-- The key in each bound key slot (R464, R472). -/
  nsKeys : FMap Nat := []
  /-- The generation of each key slot (R472). -/
  keyGen : FMap Nat := []
  /-- Key slots that are LOST (R459). -/
  lostSlots : List Nat := []
  /-- The values that Sorrel's generator has given so far (R460; log 11). -/
  nextKey : Nat := 1
  /-- The key records, by slot, 1,024 + function, 2,048 + tenant for credentials, 3,072 + tenant for EK (R459). -/
  keyRecs : FMap KeyRec := []
  /-- The seal counter with its mark (R459). -/
  sealCtr : Counter := {}
  /-- SPDM exchanges by function (R461). -/
  spdm : FMap Spdm := []
  /-- The enrollment of MF (R470). -/
  mfEnroll : Option Enroll := none
  /-- The response each function's next Security Receive returns (R466). -/
  secs : FMap SecResp := []
  /-- Cipher cores (R487–R491). -/
  cores : FMap Core := []
  /-- Cipher jobs that wait (R488). -/
  cjobs : List CJob := []
  /-- Preempted cipher jobs whose context is saved (R489). -/
  cctx : List CJob := []
  /-- Register words that CONFIG_SAVE committed (R209). -/
  savedRegs : FMap Word := []
  /-- The interface table that CONFIG_SAVE committed (R209). -/
  savedIfs : FMap IfEntry := []
  /-- Commands in the part, in admission order (R161–R199). -/
  cmds : FMap Cmd := []
  /-- The model's number for the next command. -/
  nextCmd : Nat := 0
  /-- Admin commands that wait for their turn, oldest first: connection, command identifier, the command (R188, R189). -/
  held : List (Nat × Nat × Instr) := []
  /-- Admin commands whose completion comes later (R485). -/
  adminWaits : List (Nat × Nat × AdminWait) := []
  /-- Die sets by number (R264–R271). -/
  diesets : FMap DieSet := []
  /-- Bands by handle (R272–R276). -/
  bands : FMap Band := []
  /-- The counter of band handles with its mark (R352). -/
  bandCtr : Counter := { next := 1 }
  /-- The block table, by flash die × 8,192 + block (R304). -/
  blks : FMap Blk := []
  /-- Staged units (R261, R301). -/
  staged : FMap StUnit := []
  /-- The model's number for the next staged unit. -/
  nextUnit : Nat := 0
  /-- The order number of the next acknowledged unit (R355). -/
  nextAck : Nat := 0
  /-- Programmed plane pages by PUA (R263, R405). -/
  flash : FMap (List Cw) := []
  /-- A reading of HOLD_SENSE below READY_MV closes the acknowledgement window (R611). -/
  holdLow : Bool := false
  /-- The journal (R334–R341). -/
  jr : Journal := {}
  /-- Segment checkpoints, by key slot × 131,072 + segment (R342). -/
  ckpts : FMap Ckpt := []
  /-- The checkpoint of the other tables (R342). -/
  tabCkpt : TabCkpt := {}
  /-- When patrol is next due (R321). -/
  patrolAt : Nat := 0
  /-- Flash operations on their way to the queues of Cirrus (R437). -/
  feeds : List FlashOp := []
  /-- Flash dies (R379–R404). -/
  dies : FMap Die := []
  /-- Results that wait in a tile's staging SRAM while its link retrains, oldest first, by tile (R34). -/
  tileRes : FMap (List TileRes) := []
  /-- Lanes (R367–R378). -/
  lanes : FMap Lane := []
  /-- Climbs of the retry ladder (R418–R424). -/
  climbs : FMap Climb := []
  /-- The model's number for the next climb. -/
  nextClimb : Nat := 0
  /-- Read-after-write samples under way (R425). -/
  raws : List RawSample := []
  /-- Detector tables as refined, by table (R417). -/
  llr : FMap (List Int) := []
  /-- The Thyme contexts of each lane's sequencer (R389). -/
  thyme : FMap Thyme := []
  /-- Thyme patch RAM (R389, R394). -/
  patch : FMap (BitVec 128) := []
  /-- Thyme match registers: address and target (R394). -/
  matchRegs : FMap (Nat × Nat) := []
  /-- Byte buckets of tenants (R448). -/
  byteBkts : FMap Bucket := []
  /-- Command buckets of tenants (R448). -/
  cmdBkts : FMap Bucket := []
  /-- The read throttle bucket (R451, R630). -/
  readBkt : Option Bucket := none
  /-- The write throttle bucket (R451, R630). -/
  writeBkt : Option Bucket := none
  /-- The turn of the submission queues (04_commands_and_ordering.md, Ordering). -/
  arb : Arb := {}
  /-- The thermal stage (R628). -/
  stage : ThmStage := .normal
  /-- Migrations by tenant (R501–R525). -/
  migs : FMap Mig := []
  /-- The device recorder (R646–R655). -/
  recd : Recorder := {}
  /-- Tenant recorders (R233). -/
  trecs : FMap Recorder := []
  /-- Metering (R656–R667). -/
  meter : Meter := {}
  /-- The always-on domain (R604, R643). -/
  aon : Aon := {}
  /-- The record of the last power-loss sequence and recovery (R364). -/
  plStat : PlStat := {}
  /-- A power-loss sequence under way (R355). -/
  plRun : Option PlRun := none
  /-- Rails, sense inputs, mode entry (R591–R612). -/
  pwr : Pwr := {}
  /-- Thermal channels (R621–R636). -/
  therm : Therm := {}
  /-- The board profile in force (R697). -/
  profile : Option Profile := none
  /-- The flash dies recorded at provisioning, by die index: Read ID, unique ID, parameter page (R377). -/
  dieRecs : FMap DieFind := []
  /-- The flash die model records in the sealed configuration (R369). -/
  models : List ModelRec := []
  /-- Whether the geometry is recorded (R376, R708). -/
  geometry : Bool := false
  /-- The two caches (R569–R589). -/
  caches : FMap Cache := []
  /-- Basil's buffers (R530–R536). -/
  basil : Basil := {}
  /-- DRAM (R537–R550). -/
  dram : Dram := {}
  /-- Test windows of the sealed memories (R556). -/
  windows : FMap TestByte := []
  /-- A FATAL reset asked for in this step: DETAIL and address words (R581). -/
  doom : Option (Nat × Nat × Nat) := none
  /-- The levels at the GPIO pads from outside (R739). -/
  gpioExt : Nat := 0
  /-- The packages in the two boot slots, as bytes (R689, R702). -/
  slots : FMap (List Nat) := []
  /-- The download buffer (R701). -/
  dlBuf : List Nat := []
  /-- An activation under way (R703). -/
  fwHold : Option FwHold := none
  /-- The image in the code SRAM (R696). -/
  code : List Nat := []
  /-- The board profile in the sealed configuration (R697). -/
  sealedProfile : Option Profile := none
  /-- When map recovery began (R358). -/
  recovAt : Nat := 0
  /-- The length of the last start-up in ms (R694). -/
  startMs : Nat := 0
  /-- Erase counts by unique ID and block, across provisionings (R708). -/
  eraseBook : FMap (FMap Nat) := []
  deriving DecidableEq, Repr

/-- The part right after its first POR, before start-up (R16, R678, R679): POR is the latched cause, and has raised POS and
the count of power cycles from 0; VDD_AON and VDD18_AON are good and the rail sequence begins (R605, R606). -/
def State.reset : State :=
  { pos := 1, pcyc := 1,
    pwr := { rails := [(0, { on := true, goodAt := some 0, mv := 800 }), (16, { on := true, goodAt := some 0, mv := 1800 })],
             seq := [15, 1, 6, 7, 8, 13, 14, 2, 3, 4, 5, 0x100, 0x101, 0x102, 0x103] } }

/-- What a command answers. -/
abbrev Res := Host.Outcome State Fault Refusal

end Sys2Proof.Machine
end

