-- ==== Sys2Proof/Machine/Ops.lean ====
section
/-! DEFINITION. The named operations every meaning is built from: register words and fields, free values, what leaves
the part, error reports and the fault queue, and what every step settles at its end (the interrupt lines). -/

namespace Sys2Proof.Machine

/-! ### Registers as stored (R12, R16) -/

/-- Byte address of the first register of a page. -/
def pageBase (k : PageKind) (i : Nat) : Nat := pageNo k i * 0x1000

/-- Every field of a page: the common header's and its own. -/
def fieldsOf (k : PageKind) : List Fld := tabHdr ++ pageFields k

/-- The reset word of the register at an offset: its fields' reset values in place. -/
def resetWord (k : PageKind) (off : Nat) : Nat :=
  (fieldsOf k).foldl (fun a f => if f.off = off then a + f.reset * 2 ^ f.lo else a) 0

/-- The word stored for a register; an unlisted register holds its reset word. -/
def rd (s : State) (k : PageKind) (i off : Nat) : Nat :=
  match mget s.regs (pageBase k i + off) with
  | some w => w.toNat
  | none => resetWord k off

/-- Store a register word. -/
def wr (s : State) (k : PageKind) (i off v : Nat) : State :=
  { s with regs := mput s.regs (pageBase k i + off) (BitVec.ofNat 32 (resetWord k off)) (BitVec.ofNat 32 v) }

/-- Read a field as stored. -/
def getF (s : State) (k : PageKind) (i : Nat) (f : Fld) : Nat := bitsOf (rd s k i f.off) f.hi f.lo

/-- Set a field. -/
def setF (s : State) (k : PageKind) (i : Nat) (f : Fld) (v : Nat) : State :=
  wr s k i f.off (putBits (rd s k i f.off) f.hi f.lo v)

/-- Set a one-bit field: an INT_RAW event (R60). -/
def raise (s : State) (k : PageKind) (i : Nat) (f : Fld) : State := setF s k i f 1

/-- The largest value a field holds. -/
def Fld.max (f : Fld) : Nat := 2 ^ (f.hi + 1 - f.lo) - 1

/-- Add to a counting field, saturating at its all-ones value. -/
def bumpBy (s : State) (k : PageKind) (i : Nat) (f : Fld) (n : Nat) : State :=
  setF s k i f (min f.max (getF s k i f + n))

/-- Count one event in a field. -/
def bump (s : State) (k : PageKind) (i : Nat) (f : Fld) : State := bumpBy s k i f 1

/-! ### Free values, outputs -/

/-- Something leaves the part. -/
def emit (s : State) (o : Out) : State := { s with out := o :: s.out }

/-- The next free number and the state that has used it. -/
def takeFree (s : State) : Nat × State := (s.free, { s with free := s.free + 1 })

/-- The least-significant-first bytes of a number. -/
def leBytes : Nat → Nat → List Nat
  | 0, _ => []
  | n + 1, v => v % 256 :: leBytes n (v / 256)

/-- The number that least-significant-first bytes spell. -/
def ofLe : List Nat → Nat
  | [] => 0
  | b :: t => b % 256 + 256 * ofLe t

/-- The ASCII codes of a text. -/
def ascii (t : String) : List Nat := t.toList.map Char.toNat

/-! ### Error reports and the fault queue (R672–R675) -/

/-- A TYPE 0x02 or 0x04 entry is never dropped: with every place in use its source holds it (R675). -/
def queueUnitOut (s : State) (type page info lo : Nat) : State :=
  let e : FaultEntry := ⟨0, s.pcyc, s.pos, type, page, info, lo, 0, 0, 0⟩
  if s.flog.queue.length < 256 then { s with flog := { s.flog with queue := s.flog.queue ++ [e] } }
  else { s with flog := { s.flog with held := s.flog.held ++ [e] } }

/-- Coalesce a report into the newest queued report when page and INFO [31:16] agree (R675). The list is newest
first; `none` when it does not coalesce. -/
def coalesce (pos page info : Nat) : List FaultEntry → Option (List FaultEntry)
  | [] => none
  | e :: t =>
    if e.type = 1 then
      if e.page = page ∧ e.info / 65536 = info / 65536 then
        some ({ e with rep := min 0xFFFF (e.rep + 1), span := min 0xFFFFFF (pos - e.pos) } :: t)
      else none
    else (coalesce pos page info t).map (e :: ·)

/-- A TYPE 0x01 entry coalesces, takes a place, or is dropped and counted (R675). -/
def queueReport (s : State) (page info lo hi : Nat) : State :=
  match coalesce s.pos page info s.flog.queue.reverse with
  | some q => { s with flog := { s.flog with queue := q.reverse } }
  | none =>
    if s.flog.queue.length < 240 then
      { s with flog := { s.flog with queue := s.flog.queue ++ [⟨0, s.pcyc, s.pos, 1, page, info, lo, hi, 0, 0⟩] } }
    else bump s .boot 0 F.BOOT_FLOG_QDROP_COUNT

/-- ERR_INFO of a report (R61). -/
def errInfo (src kind cause detail : Nat) : Nat :=
  src % 16 * 2 ^ 28 + kind % 16 * 2 ^ 24 + cause % 256 * 2 ^ 16 + detail % 65536

/-- One error reported to a page: count, capture if armed, else count as missed, and pass it to the central fault log
(R672). A capture is held exactly when ERR_INFO is nonzero, since every report has a nonzero CAUSE. -/
def report (s : State) (k : PageKind) (i src kind cause detail lo hi : Nat) : State :=
  let s1 := bump s k i F.HDR_ERR_COUNT
  let s2 :=
    if rd s1 k i 0x030 = 0 then
      wr (wr (wr s1 k i 0x028 lo) k i 0x02C hi) k i 0x030 (errInfo src kind cause detail)
    else bump s1 k i F.HDR_ERR_OVF
  queueReport s2 (pageNo k i) (errInfo src kind cause detail) lo hi

/-- A block error: SRC and KIND 0. -/
def blockError (s : State) (k : PageKind) (i cause detail lo hi : Nat) : State := report s k i 0 0 cause detail lo hi

end Sys2Proof.Machine
end

