-- ==== Sys2Proof/Machine/Send.lean ====
section
/-! DEFINITION. How the part sends: ports, interface entries and connections as they are looked up, the headers of every
frame, frames that wait for a paused priority or a link, and the records of a TLS connection
(03_ethernet_transport.md R103, R106, R110, R113, R115, R116, R126, R138, R139). -/

namespace Sys2Proof.Machine

/-! ### Ports, interface entries, connections -/

/-- A port. -/
def eth (s : State) (p : Nat) : EthPort := mgetD s.eth p {}

/-- Replace a port. -/
def setEth (s : State) (p : Nat) (e : EthPort) : State := { s with eth := mput s.eth p {} e }

/-- Change a port. -/
def modEth (s : State) (p : Nat) (f : EthPort → EthPort) : State := setEth s p (f (eth s p))

/-- The port's MAC address (R146). -/
def portMac (s : State) (p : Nat) : Nat := getF s .eth p F.ETH_MAC_HI_ADDR_HI * 2 ^ 32 + getF s .eth p F.ETH_MAC_LO_ADDR_LO

/-- Fields of an interface entry (R156). -/
def IfEntry.valid (e : IfEntry) : Bool := bitsOf e.cfg 31 31 = 1
def IfEntry.mgmt (e : IfEntry) : Bool := bitsOf e.cfg 30 30 = 1
def IfEntry.onPort (e : IfEntry) (p : Nat) : Bool := e.cfg / 2 ^ (28 + p) % 2 = 1
def IfEntry.dscp (e : IfEntry) : Nat := bitsOf e.cfg 20 15
def IfEntry.pcp (e : IfEntry) : Nat := bitsOf e.cfg 14 12
/-- VLAN of an interface; 0xFFF is treated as 0, untagged. -/
def IfEntry.vlan (e : IfEntry) : Nat := if bitsOf e.cfg 11 0 = 0xFFF then 0 else bitsOf e.cfg 11 0
/-- The address is an IPv4-mapped one. -/
def IfEntry.isV4 (e : IfEntry) : Bool := e.addr / 2 ^ 32 = 0xFFFF

/-- The interface entry at an index; an unlisted one is all zeros. -/
def ifAt (s : State) (i : Nat) : IfEntry := mgetD s.ifs i {}

/-- The connection, if it exists. -/
def connOf (s : State) (id : Nat) : Option Conn := mget s.conns id

/-- Replace a connection. -/
def setConn (s : State) (id : Nat) (c : Conn) : State := { s with conns := mset s.conns id c }

/-! ### Headers -/

/-- The header of a frame that an interface entry sends: untagged frames carry no PCP (R106, R156). `ip` frames carry the
DSCP and ECT(0) (R115). -/
def ifHdr (s : State) (port i vlan dst : Nat) (ip : Bool) : TxHdr :=
  let e := ifAt s i
  { port := port, dst := dst, src := portMac s port, vlan := vlan, pcp := if vlan = 0 then 0 else e.pcp,
    dscp := if ip then e.dscp else 0, ecn := if ip then 2 else 0 }

/-- The header of a connection's packets: to the MAC address and on the VLAN of the last packet received on it (R110),
with its ECE latch and the CWR flag it owes (R116, R118). -/
def connHdr (s : State) (c : Conn) : TxHdr :=
  { ifHdr s c.port c.ifIdx c.vlan c.peerMac true with ece := c.ece, cwr := c.cwr }

/-- The header of what leaves as a frame. -/
def Out.hdr? : Out → Option TxHdr
  | .cqe _ h => some h
  | .frame _ _ h => some h
  | .conn _ _ _ h => some h
  | _ => none

/-- What waited is addressed as its connection stands when it leaves. -/
def Out.readdress (s : State) (o : Out) : Out :=
  match o with
  | .cqe q h => .cqe q (match connOf s q.conn with
      | some c => { connHdr s c with ece := h.ece, cwr := h.cwr }
      | none => h)
  | .conn id w a h => .conn id w a (match connOf s id with
      | some c => { connHdr s c with ece := h.ece, cwr := h.cwr }
      | none => h)
  | o => o

/-! ### The transmitter of a port (R103, R113, R126, R144) -/

/-- The transmitter is on and the link up; the power-loss sequence has stopped the ports (R355). -/
def portSends (s : State) (p : Nat) : Bool := (eth s p).linkUp && s.plRun.isNone && getF s .eth p F.ETH_PORT_CTRL_ENABLE = 1

/-- A frame of a priority leaves at once. -/
def txOpen (s : State) (p prio : Nat) : Bool := portSends s p && (mget (eth s p).paused prio).isNone

/-- A frame leaves, or waits for its priority or its link. -/
def txPut (s : State) (h : TxHdr) (o : Out) : State :=
  if txOpen s h.port h.pcp then emit s o else { s with txWait := s.txWait ++ [o] }

/-- A waiting output may leave now. -/
def Out.mayGo (s : State) (o : Out) : Bool :=
  match o.hdr? with
  | some h => txOpen s h.port h.pcp
  | none => true

/-- What waited and may leave does, the oldest first. -/
def txFlush (s : State) : State :=
  (s.txWait.filter (·.mayGo s)).foldl (fun t o => emit t (o.readdress s)) { s with txWait := s.txWait.filter (fun o => !o.mayGo s) }

/-- Control traffic of a connection: what the transports send beside NVMe messages. -/
def tell (s : State) (id : Nat) (c : Conn) (what : String) (args : List Nat) : State :=
  txPut s (connHdr s c) (.conn id what args (connHdr s c))

/-! ### Messages and TLS records (R138, R139) -/

/-- Records of at most 16,384 bytes of plaintext that a message takes (log 152). -/
def tlsRecords (bytes : Nat) : Nat := max 1 ((bytes + 16383) / 16384)

/-- The sending sequence numbers below the last one suffice for a message. -/
def tlsRoom (c : Conn) (bytes : Nat) : Bool :=
  match c.tls with
  | some t => !t.ending && decide (t.txSeq + tlsRecords bytes < 2 ^ 64)
  | none => true

/-- A message of an NVMe queue goes out, on a TLS connection in records. Where the record numbers do not suffice it does
not, and the connection is at its end: the close_notify in the record numbered 2^64 − 1 follows at the end of the step. -/
def sendMsg (s : State) (id bytes : Nat) (mk : TxHdr → Out) : State :=
  match connOf s id with
  | none => s
  | some c =>
    if tlsRoom c bytes then
      txPut (setConn s id { c with
        cwr := false
        ackAt := some (c.ackAt.getD s.now)
        tls := c.tls.map (fun t => { t with txSeq := t.txSeq + tlsRecords bytes }) }) (connHdr s c) (mk (connHdr s c))
    else setConn s id { c with tls := c.tls.map (fun t => { t with txSeq := 2 ^ 64 - 1, ending := true }) }

end Sys2Proof.Machine
end

