-- ==== Sys2Proof/Machine/Flags.lean ====
section
/-! DEFINITION. The status values of completions (04_commands_and_ordering.md R161, R174, R190, R191), as the NVMe Base,
Fabrics and Zoned Namespace specifications number them (log 7), and the posting of completion entries. -/

namespace Sys2Proof.Machine

def stOk : Status := ⟨0, 0x00, false⟩
def stInvalidOpcode : Status := ⟨0, 0x01, true⟩
def stInvalidField : Status := ⟨0, 0x02, true⟩
def stDataTransfer : Status := ⟨0, 0x04, false⟩
def stAbortRequested : Status := ⟨0, 0x07, false⟩
def stInvalidNamespace : Status := ⟨0, 0x0B, true⟩
def stSequenceError : Status := ⟨0, 0x0C, false⟩
def stSglLength : Status := ⟨0, 0x0F, true⟩
def stSglType : Status := ⟨0, 0x11, true⟩
def stSanitizeInProgress : Status := ⟨0, 0x1D, false⟩
def stWriteProtected : Status := ⟨0, 0x20, true⟩
def stTransientTransport : Status := ⟨0, 0x22, false⟩
def stLbaRange : Status := ⟨0, 0x80, true⟩
def stCapacityExceeded : Status := ⟨0, 0x81, false⟩
def stNotReady : Status := ⟨0, 0x82, false⟩
def stFormatInProgress : Status := ⟨0, 0x84, false⟩
def stAbortLimit : Status := ⟨1, 0x03, false⟩
def stAerLimit : Status := ⟨1, 0x05, true⟩
def stInvalidLogPage : Status := ⟨1, 0x09, true⟩
def stInvalidSlot : Status := ⟨1, 0x06, true⟩
def stInvalidImage : Status := ⟨1, 0x07, true⟩
def stActProhibited : Status := ⟨1, 0x13, true⟩
def stNotSaveable : Status := ⟨1, 0x0D, true⟩
def stOverlappingRange : Status := ⟨1, 0x14, true⟩
def stConnectBusy : Status := ⟨1, 0x81, false⟩
def stConnectParams : Status := ⟨1, 0x82, true⟩
def stConnectHost : Status := ⟨1, 0x84, true⟩
def stAuthRequired : Status := ⟨1, 0x91, false⟩
def stZoneBoundary : Status := ⟨1, 0xB8, true⟩
def stZoneFull : Status := ⟨1, 0xB9, true⟩
def stZoneReadOnly : Status := ⟨1, 0xBA, true⟩
def stZoneOffline : Status := ⟨1, 0xBB, true⟩
def stZoneInvalidWrite : Status := ⟨1, 0xBC, false⟩
def stTooManyActive : Status := ⟨1, 0xBD, false⟩
def stTooManyOpen : Status := ⟨1, 0xBE, false⟩
def stZoneTransition : Status := ⟨1, 0xBF, true⟩
def stUnrecovered : Status := ⟨2, 0x81, false⟩
def stUnreadable : Status := ⟨2, 0x81, true⟩
def stDeferredWrite : Status := ⟨7, 0x80, false⟩
def stDeferredLoss : Status := ⟨7, 0x81, true⟩
def stNotQuiesced : Status := ⟨7, 0x82, false⟩
def stMigrationActive : Status := ⟨7, 0x83, false⟩
def stTenantQuiesced : Status := ⟨7, 0x84, false⟩
def stSectorAuth : Status := ⟨7, 0x85, true⟩
def stKeyNotBound : Status := ⟨7, 0x86, false⟩

/-- Post a completion entry and the data that the command returns, in a response of so many bytes. -/
def postN (s : State) (conn cid : Nat) (st : Status) (dw0 dw1 : Nat) (data : List Nat) (bytes : Nat) : State :=
  sendMsg s conn (bytes + 24) (fun h => .cqe ⟨conn, cid, st, dw0, dw1, data⟩ h)

/-- Post a completion entry with one number of data per byte. -/
def post (s : State) (conn cid : Nat) (st : Status) (dw0 dw1 : Nat) (data : List Nat) : State :=
  postN s conn cid st dw0 dw1 data data.length

/-- Complete a command with a status and nothing else. -/
def postSt (s : State) (conn cid : Nat) (st : Status) : State := post s conn cid st 0 0 []

/-- Complete a command with Successful Completion and its data. -/
def postOk (s : State) (conn cid : Nat) (dw0 : Nat) (data : List Nat) : State := post s conn cid stOk dw0 0 data

/-- A refusal of R207: Invalid Field in Command with DNR 1 and the offending field in dword 0. -/
def postR207 (s : State) (conn cid : Nat) (dw0 : Nat) : State := post s conn cid stInvalidField dw0 0 []

/-- Dword 0 of R207 for a field in a command dword. -/
def dwordRef (n : Nat) : Nat := 0xFFFF0000 + n

end Sys2Proof.Machine
end

