-- ==== Sys2Proof/Machine/Basil.lean ====
section
/-! DEFINITION. Basil: the pools, requests, shares and releases, and the parity accumulators that take their place in the
parity area or in a P4 buffer (14_memories_buffers_dram.md R526, R529–R535). -/

namespace Sys2Proof.Machine

/-! ### Pools and requests (R530–R532) -/

/-- Buffers of a pool, and the size of one. -/
def poolCount (p : Nat) : Nat := [16384, 4096, 1536, 65536, 32768].getD p 0
def poolSize (p : Nat) : Nat := [512, 4096, 16384, 65536, 262144].getD p 0

/-- Key of a buffer. -/
def bufKey (p i : Nat) : Nat := p * 2 ^ 20 + i

/-- Free buffers of a pool (R557). -/
def poolFree (s : State) (p : Nat) : Nat := poolCount p - (s.basil.used.filter (fun b => b / 2 ^ 20 = p)).length

/-- The minimum pool a client requests with (R532). -/
def Client.minPool : Client → Nat
  | .staging _ => 3
  | .parity _ _ => 4
  | _ => 0

/-- The pools that may serve a request, smallest first. -/
def eligible (r : BasilReq) : List Nat := (List.range 5).filter (fun p => r.client.minPool ≤ p && r.size ≤ poolSize p)

/-- Which free buffer of a pool is handed out, the spec leaves open: the first free one from a free number on. -/
def pickBuffer (s : State) (p n : Nat) : Nat :=
  (((List.range (s.basil.used.length + 1)).map (fun i => (n + i) % poolCount p)).find?
    (fun i => !s.basil.used.contains (bufKey p i))).getD 0

/-- A parity accumulator has its place. -/
def setAcc (s : State) (h code : Nat) (f : PAcc → PAcc) : State :=
  { s with bands := mmod s.bands h (fun b => { b with accs := mset b.accs code (f (mgetD b.accs code {})) }) }

/-- A buffer goes to a client with the count of its holders. -/
def giveBuffer (s : State) (r : BasilReq) (p i : Nat) : State :=
  let s1 := if (eligible r).head? = some p then s else bump s .bas 0 F.BAS_FALLBACK_COUNT
  let s2 := { s1 with basil := { s1.basil with
    count := mset s1.basil.count (bufKey p i) (r.holders % 256), used := bufKey p i :: s1.basil.used } }
  emit (match r.client with
    | .parity h code => setAcc s2 h code (fun a => { a with place := .buffer (bufKey p i) })
    | _ => s2) (.buffer r.client p i)

/-- A request names a size from 1 byte to 256 KiB and from 1 to 255 holders. -/
def basilAllocate (r : BasilReq) (s : State) : State :=
  if r.size = 0 || 262144 < r.size || r.holders = 0 || 255 < r.holders then s
  else match (eligible r).find? (fun p => decide (0 < poolFree s p)) with
    | some p =>
      let f := takeFree s
      giveBuffer f.2 r p (pickBuffer f.2 p ((Config.freeWord f.1).toNat % poolCount p))
    | none =>
      raise (bump { s with basil := { s.basil with stalled := s.basil.stalled ++ [r] } } .bas 0 F.BAS_STALLS_COUNT) .bas 0
        F.BAS_INT_RAW_STALL

/-- BASIL_ALLOCATE: a request that names a minimum pool. A client names its own of R532, so no other is a request. -/
def basilRequest (r : BasilReq) (pool : Nat) (s : State) : State :=
  if pool = r.client.minPool then basilAllocate r s else s

/-! ### Shares and releases (R533–R535) -/

/-- The buffer that contains a byte of a pool. -/
def bufAt (pool off : Nat) : Nat := bufKey pool (off / max 1 (poolSize pool) % max 1 (poolCount pool))

/-- The count of a buffer. -/
def bufCount (s : State) (b : Nat) : Nat := mgetD s.basil.count b 0

/-- BASIL_SHARE: the count wraps modulo 256. -/
def basilShare (pool off n : Nat) (s : State) : State :=
  { s with basil := { s.basil with count := mput s.basil.count (bufAt pool off) 0 ((bufCount s (bufAt pool off) + n) % 256) } }

/-- A buffer is freed: the oldest stalled request that it can serve takes it, or it returns to its pool. -/
def freeBuffer (s : State) (b : Nat) : State :=
  if !s.basil.used.contains b then s
  else
    let s1 := { s with basil := { s.basil with used := s.basil.used.erase b } }
    match s1.basil.stalled.find? (fun r => (eligible r).contains (b / 2 ^ 20)) with
    | some r => giveBuffer { s1 with basil := { s1.basil with stalled := s1.basil.stalled.erase r } } r (b / 2 ^ 20) (b % 2 ^ 20)
    | none => s1

/-- A release of a buffer, with the numbers that shares of the same cycle add to it: the operations of a cycle are summed
(R535). A release of a buffer whose count is 0 is ignored. -/
def releaseBuffer (s : State) (b shares : Nat) : State :=
  let c := bufCount s b + shares
  if c = 0 then s
  else
    let s1 := { s with basil := { s.basil with count := mput s.basil.count b 0 ((c - 1) % 256) } }
    if (c - 1) % 256 = 0 then freeBuffer s1 b else s1

/-! ### Parity accumulators (R529) -/

/-- Bytes of the parity area that accumulators take: one program unit each, 65,536 bytes for every bit per cell. -/
def areaUsed (s : State) : Nat :=
  (s.bands.map (fun q => (q.2.accs.filter (fun a => a.2.place = .area)).length * (65536 * q.2.bits))).sum

/-- The accumulator of a group of a row exists: it takes the parity area while that has room, else a P4 buffer. -/
def ensureAcc (s : State) (h code bits : Nat) : State :=
  match mget s.bands h with
  | some b =>
    if (mget b.accs code).isSome then s
    else if areaUsed s + 65536 * bits ≤ 8388608 then setAcc s h code (fun a => { a with place := .area })
    else basilAllocate ⟨.parity h code, 65536 * bits, 1⟩ (setAcc s h code id)
  | none => s

/-- The data units of a row wait while the accumulator of their group is stalled. -/
def accReady (b : Band) (code : Nat) : Bool := b.groups = 0 || (mgetD b.accs code {}).place ≠ .stalled

/-- XOR of two lists of codewords: what both hold cancels. -/
def xorCws (a b : List (Option Sector)) : List (Option Sector) := a.filter (fun x => !b.contains x) ++ b.filter (fun x => !a.contains x)

/-- The codewords of a data unit enter the accumulator of its group. -/
def accTake (s : State) (h code : Nat) (l : List (Nat × Option Sector)) : State :=
  setAcc s h code (fun a => { a with data := l.foldl (fun m p => mset m p.1 (xorCws (mgetD m p.1 []) [p.2])) a.data })

/-- An accumulator is released. -/
def dropAcc (s : State) (h code : Nat) : State :=
  match (mget s.bands h).bind (fun b => mget b.accs code) with
  | some a =>
    let s1 := { s with bands := mmod s.bands h (fun b => { b with accs := mdel b.accs code }) }
    (match a.place with
    | .buffer k => releaseBuffer s1 k 0
    | .stalled => { s1 with basil := { s1.basil with stalled := s1.basil.stalled.filter (fun r => r.client ≠ .parity h code) } }
    | .area => s1)
  | none => s

/-- Every accumulator of a band is released. -/
def dropAccs (s : State) (h : Nat) : State :=
  match mget s.bands h with
  | some b => b.accs.foldl (fun s a => dropAcc s h a.1) s
  | none => s

end Sys2Proof.Machine
end

