-- ==== Sys2Proof/Machine/Crypto.lean ====
section
/-! DEFINITION. The cryptographic standards that the part implements (00_scope.md R4): SHA-384 of FIPS 180-4, HMAC, HKDF of
RFC 5869, AES-256 of FIPS 197, GCM and GMAC of SP 800-38D, and ECDSA and ECDH over P-384 of FIPS 186-5 and SP 800-56A. Byte
strings are lists of bytes; the words of these standards have their most significant byte first. -/

namespace Sys2Proof.Machine

/-- Exclusive or of two numbers. -/
def xorN (a b : Nat) : Nat := Nat.xor a b

/-- Bytes with the most significant first. -/
def beBytes (n v : Nat) : List Nat := (leBytes n v).reverse

/-- The number that bytes with the most significant first spell. -/
def ofBe (l : List Nat) : Nat := ofLe l.reverse

/-- Bytewise exclusive or, as long as the shorter list. -/
def xorBytes (a b : List Nat) : List Nat := List.zipWith xorN a b

/-! ### SHA-384 -/

/-- The constants of FIPS 180-4 4.2.3: the first 64 bits of the fractional parts of the cube roots of the first 80 primes. -/
def shaK : List Nat :=
  [0x428A2F98D728AE22, 0x7137449123EF65CD, 0xB5C0FBCFEC4D3B2F, 0xE9B5DBA58189DBBC, 0x3956C25BF348B538,
   0x59F111F1B605D019, 0x923F82A4AF194F9B, 0xAB1C5ED5DA6D8118, 0xD807AA98A3030242, 0x12835B0145706FBE,
   0x243185BE4EE4B28C, 0x550C7DC3D5FFB4E2, 0x72BE5D74F27B896F, 0x80DEB1FE3B1696B1, 0x9BDC06A725C71235,
   0xC19BF174CF692694, 0xE49B69C19EF14AD2, 0xEFBE4786384F25E3, 0x0FC19DC68B8CD5B5, 0x240CA1CC77AC9C65,
   0x2DE92C6F592B0275, 0x4A7484AA6EA6E483, 0x5CB0A9DCBD41FBD4, 0x76F988DA831153B5, 0x983E5152EE66DFAB,
   0xA831C66D2DB43210, 0xB00327C898FB213F, 0xBF597FC7BEEF0EE4, 0xC6E00BF33DA88FC2, 0xD5A79147930AA725,
   0x06CA6351E003826F, 0x142929670A0E6E70, 0x27B70A8546D22FFC, 0x2E1B21385C26C926, 0x4D2C6DFC5AC42AED,
   0x53380D139D95B3DF, 0x650A73548BAF63DE, 0x766A0ABB3C77B2A8, 0x81C2C92E47EDAEE6, 0x92722C851482353B] ++
  [0xA2BFE8A14CF10364, 0xA81A664BBC423001, 0xC24B8B70D0F89791, 0xC76C51A30654BE30, 0xD192E819D6EF5218,
   0xD69906245565A910, 0xF40E35855771202A, 0x106AA07032BBD1B8, 0x19A4C116B8D2D0C8, 0x1E376C085141AB53,
   0x2748774CDF8EEB99, 0x34B0BCB5E19B48A8, 0x391C0CB3C5C95A63, 0x4ED8AA4AE3418ACB, 0x5B9CCA4F7763E373,
   0x682E6FF3D6B2B8A3, 0x748F82EE5DEFB2FC, 0x78A5636F43172F60, 0x84C87814A1F0AB72, 0x8CC702081A6439EC,
   0x90BEFFFA23631E28, 0xA4506CEBDE82BDE9, 0xBEF9A3F7B2C67915, 0xC67178F2E372532B, 0xCA273ECEEA26619C,
   0xD186B8C721C0C207, 0xEADA7DD6CDE0EB1E, 0xF57D4F7FEE6ED178, 0x06F067AA72176FBA, 0x0A637DC5A2C898A6,
   0x113F9804BEF90DAE, 0x1B710B35131C471B, 0x28DB77F523047D84, 0x32CAAB7B40C72493, 0x3C9EBE0A15C9BEBC,
   0x431D67C49C100D4C, 0x4CC5D4BECB3E42B6, 0x597F299CFC657E2A, 0x5FCB6FAB3AD6FAEC, 0x6C44198C4A475817]

/-- Initial hash value of SHA-384 (FIPS 180-4 5.3.4). -/
def sha384Iv : List Nat :=
  [0xCBBB9D5DC1059ED8, 0x629A292A367CD507, 0x9159015A3070DD17, 0x152FECD8F70E5939, 0x67332667FFC00B31,
   0x8EB44A8768581511, 0xDB0C2E0D64F98FA7, 0x47B5481DBEFA4FA4]

/-- Rotation of a 64-bit word to the right. -/
def rotR (n x : Nat) : Nat := x / 2 ^ n + x % 2 ^ n * 2 ^ (64 - n)

/-- The message schedule, newest word first, extended by `n` words. -/
def shaSched : Nat → List Nat → List Nat
  | 0, w => w
  | n + 1, w =>
    let a := w.getD 1 0
    let b := w.getD 14 0
    let s1 := xorN (xorN (rotR 19 a) (rotR 61 a)) (a / 2 ^ 6)
    let s0 := xorN (xorN (rotR 1 b) (rotR 8 b)) (b / 2 ^ 7)
    shaSched n ((s1 + w.getD 6 0 + s0 + w.getD 15 0) % 2 ^ 64 :: w)

/-- One round over the working variables a to h with a constant and a word. -/
def shaRound (v : List Nat) (kw : Nat × Nat) : List Nat :=
  match v with
  | [a, b, c, d, e, f, g, h] =>
    let s1 := xorN (xorN (rotR 14 e) (rotR 18 e)) (rotR 41 e)
    let ch := xorN (Nat.land e f) (Nat.land (2 ^ 64 - 1 - e) g)
    let t1 := h + s1 + ch + kw.1 + kw.2
    let s0 := xorN (xorN (rotR 28 a) (rotR 34 a)) (rotR 39 a)
    let maj := xorN (xorN (Nat.land a b) (Nat.land a c)) (Nat.land b c)
    [(t1 + s0 + maj) % 2 ^ 64, a, b, c, (d + t1) % 2 ^ 64, e, f, g]
  | _ => v

/-- Words of `n` bytes. -/
def beWords (n : Nat) : Nat → List Nat → List Nat
  | 0, _ => []
  | k + 1, l => ofBe (l.take n) :: beWords n k (l.drop n)

/-- One block into the hash value. -/
def shaBlock (hv : List Nat) (blk : List Nat) : List Nat :=
  let w := (shaSched 64 (beWords 8 16 blk).reverse).reverse
  List.zipWith (fun a b => (a + b) % 2 ^ 64) hv ((shaK.zip w).foldl shaRound hv)

/-- `k` pieces of `n` bytes. -/
def chunks (n : Nat) : Nat → List Nat → List (List Nat)
  | 0, _ => []
  | k + 1, l => l.take n :: chunks n k (l.drop n)

/-- The padded message. -/
def shaPad (m : List Nat) : List Nat :=
  m ++ 0x80 :: List.replicate ((239 - m.length % 128) % 128) 0 ++ beBytes 16 (8 * m.length)

/-- SHA-384 of a byte string (FIPS 180-4). -/
@[irreducible] def sha384 (m : List Nat) : List Nat :=
  let p := shaPad m
  (((chunks 128 (p.length / 128) p).foldl shaBlock sha384Iv).flatMap (beBytes 8)).take 48

/-- HMAC-SHA-384. -/
@[irreducible] def hmac384 (key m : List Nat) : List Nat :=
  let k0 := if 128 < key.length then sha384 key else key
  let k := k0 ++ List.replicate (128 - k0.length) 0
  sha384 (k.map (xorN 0x5C) ++ sha384 (k.map (xorN 0x36) ++ m))

/-- HKDF-Extract with SHA-384 (RFC 5869). -/
def hkdfExtract (salt ikm : List Nat) : List Nat := hmac384 salt ikm

/-- Blocks T(i), T(i + 1), … of HKDF-Expand, `n` of them. -/
def hkdfBlocks (prk info : List Nat) : Nat → Nat → List Nat → List Nat
  | 0, _, _ => []
  | n + 1, i, t =>
    let t1 := hmac384 prk (t ++ info ++ [i])
    t1 ++ hkdfBlocks prk info n (i + 1) t1

/-- HKDF-Expand with SHA-384 (RFC 5869). -/
def hkdfExpand (prk info : List Nat) (len : Nat) : List Nat := (hkdfBlocks prk info ((len + 47) / 48) 1 []).take len

/-! ### AES-256 -/

/-- The S-box of FIPS 197, byte `x` at bits `8x`. -/
def sboxWord : Nat :=
  0x16BB54B00F2D99416842E6BF0D89A18CDF2855CEE9871E9B948ED9691198F8E19E1DC186B95735610EF6034866B53E708A8BBD4B1F74DDE8C6B4A61C2E2578BA08AE7A65EAF4566CA94ED58D6D37C8E779E4959162ACD3C25C2406490A3A32E0DB0B5EDE14B8EE4688902A22DC4F816073195D643D7EA7C41744975FEC130CCDD2F3FF1021DAB6BCF5389D928F40A351A89F3C507F02F94585334D43FBAAEFD0CF584C4A39BECB6A5BB1FC20ED00D153842FE329B3D63B52A05A6E1B1A2C830975B227EBE28012079A059618C323C7041531D871F1E5A534CCF73F362693FDB7C072A49CAFA2D4ADF04759FA7DC982CA76ABD7FE2B670130C56F6BF27B777C63

/-- SubBytes of one byte. -/
def sbox (x : Nat) : Nat := sboxWord / 2 ^ (8 * (x % 256)) % 256

/-- Key expansion, newest word first: `n` words from word `i` on. -/
def aesExpand : Nat → Nat → List (List Nat) → List (List Nat)
  | 0, _, w => w
  | n + 1, i, w =>
    let t := w.getD 0 []
    let t1 := if i % 8 = 0 then xorBytes ((t.drop 1 ++ t.take 1).map sbox) [2 ^ (i / 8 - 1), 0, 0, 0]
      else if i % 8 = 4 then t.map sbox else t
    aesExpand n (i + 1) (xorBytes (w.getD 7 []) t1 :: w)

/-- The 15 round keys of a key of 32 bytes. -/
def aesKeys (key : List Nat) : List (List Nat) :=
  chunks 16 15 (aesExpand 52 8 (chunks 4 8 key).reverse).reverse.flatten

/-- Multiplication by x in GF(2^8). -/
def xtime (x : Nat) : Nat := if x < 128 then 2 * x else xorN (2 * x % 256) 0x1B

/-- MixColumns of one column. -/
def mixCol (l : List Nat) : List Nat :=
  match l with
  | [a, b, c, d] =>
    let t := xorN (xorN a b) (xorN c d)
    [xorN a (xorN t (xtime (xorN a b))), xorN b (xorN t (xtime (xorN b c))),
     xorN c (xorN t (xtime (xorN c d))), xorN d (xorN t (xtime (xorN d a)))]
  | _ => l

/-- SubBytes and ShiftRows. -/
def subShift (s : List Nat) : List Nat :=
  [0, 5, 10, 15, 4, 9, 14, 3, 8, 13, 2, 7, 12, 1, 6, 11].map (fun i => sbox (s.getD i 0))

/-- The rounds after the first key addition; the last one has no MixColumns. -/
def aesRounds : List (List Nat) → List Nat → List Nat
  | [], s => s
  | [k], s => xorBytes (subShift s) k
  | k :: ks, s => aesRounds ks (xorBytes ((chunks 4 4 (subShift s)).flatMap mixCol) k)

/-- AES-256 of a block of 16 bytes under the round keys of a key (FIPS 197). -/
@[irreducible] def aesBlock (keys : List (List Nat)) (b : List Nat) : List Nat :=
  aesRounds (keys.drop 1) (xorBytes b (keys.getD 0 []))

/-! ### GCM and GMAC (SP 800-38D), with an IV of 12 bytes -/

/-- Multiplication in GF(2^128) by the bits of `x` from bit `n - 1` down; bit 127 of a number is the first bit. -/
def gfMul (x : Nat) : Nat → Nat → Nat → Nat
  | 0, _, z => z
  | n + 1, v, z =>
    gfMul x n (if v % 2 = 1 then xorN (v / 2) (0xE1 * 2 ^ 120) else v / 2) (if x / 2 ^ n % 2 = 1 then xorN z v else z)

/-- GHASH of blocks under the hash subkey. -/
def ghash (h : Nat) (blocks : List Nat) : Nat := blocks.foldl (fun y b => gfMul (xorN y b) 128 h 0) 0

/-- A byte string as blocks of 16 bytes, the last one padded with zeros. -/
def gcmBlocks (l : List Nat) : List Nat :=
  beWords 16 ((l.length + 15) / 16) (l ++ List.replicate ((16 - l.length % 16) % 16) 0)

/-- `len` bytes of key stream: the counter starts at 2. -/
@[irreducible] def gcmStream (key iv : List Nat) (len : Nat) : List Nat :=
  let ks := aesKeys key
  ((List.range ((len + 15) / 16)).flatMap (fun i => aesBlock ks (iv ++ beBytes 4 (i + 2)))).take len

/-- The tag over additional authenticated data and ciphertext. -/
@[irreducible] def gcmTag (key iv aad ct : List Nat) : List Nat :=
  let ks := aesKeys key
  let y := ghash (ofBe (aesBlock ks (List.replicate 16 0)))
    (gcmBlocks aad ++ gcmBlocks ct ++ [8 * aad.length * 2 ^ 64 + 8 * ct.length])
  beBytes 16 (xorN y (ofBe (aesBlock ks (iv ++ [0, 0, 0, 1]))))

/-- AES-256-GCM encryption, and decryption of a ciphertext. -/
def gcmCrypt (key iv text : List Nat) : List Nat := xorBytes text (gcmStream key iv text.length)

/-- AES-GMAC. -/
def gmac (key iv m : List Nat) : List Nat := gcmTag key iv m []

/-! ### P-384 -/

/-- The field prime. -/
def ecP : Nat := 2 ^ 384 - 2 ^ 128 - 2 ^ 96 + 2 ^ 32 - 1

/-- The coefficient b. -/
def ecB : Nat := 0xB3312FA7E23EE7E4988E056BE3F82D19181D9C6EFE8141120314088F5013875AC656398D8A2ED19D2A85C8EDD3EC2AEF

/-- The order of the base point. -/
def ecN : Nat := 0xFFFFFFFFFFFFFFFFFFFFFFFFFFFFFFFFFFFFFFFFFFFFFFFFC7634D81F4372DDF581A0DB248B0A77AECEC196ACCC52973

/-- A point in Jacobian coordinates; Z = 0 is the point at infinity. -/
structure EcPt where
  x : Nat
  y : Nat
  z : Nat
  deriving DecidableEq, Repr

/-- The base point. -/
def ecG : EcPt :=
  ⟨0xAA87CA22BE8B05378EB1C71EF320AD746E1D3B628BA79B9859F741E082542A385502F25DBF55296C3A545E3872760AB7,
   0x3617DE4A96262C6F5D9E98BF9292DC29F8F41DBD289A147CE9DA3113B5F0B8C00A60B1CE1D7E819D7A431D7C90EA0E5F, 1⟩

/-- Difference modulo `m` of numbers below `m`. -/
def subMod (m a b : Nat) : Nat := (a + m - b) % m

/-- A power modulo `m`, by the `n` high bits of an exponent of 384 bits. -/
def powMod (m b e : Nat) : Nat → Nat
  | 0 => 1 % m
  | n + 1 =>
    let r := powMod m b e n
    let q := r * r % m
    if e / 2 ^ (383 - n) % 2 = 1 then q * b % m else q

/-- The inverse modulo a prime. -/
def invMod (m a : Nat) : Nat := powMod m (a % m) (m - 2) 384

/-- Twice a point. -/
def ecDbl (a : EcPt) : EcPt :=
  let d := a.z * a.z % ecP
  let g := a.y * a.y % ecP
  let b := a.x * g % ecP
  let al := 3 * subMod ecP a.x d * ((a.x + d) % ecP) % ecP
  let x3 := subMod ecP (al * al % ecP) (8 * b % ecP)
  ⟨x3, subMod ecP (al * subMod ecP (4 * b % ecP) x3 % ecP) (8 * (g * g % ecP) % ecP), 2 * a.y * a.z % ecP⟩

/-- The sum of two points. -/
def ecAdd (a b : EcPt) : EcPt :=
  if a.z = 0 then b
  else if b.z = 0 then a
  else
    let za := a.z * a.z % ecP
    let zb := b.z * b.z % ecP
    let u1 := a.x * zb % ecP
    let u2 := b.x * za % ecP
    let s1 := a.y * (b.z * zb % ecP) % ecP
    let s2 := b.y * (a.z * za % ecP) % ecP
    if u1 = u2 then (if s1 = s2 then ecDbl a else ⟨1, 1, 0⟩)
    else
      let h := subMod ecP u2 u1
      let r := subMod ecP s2 s1
      let h2 := h * h % ecP
      let h3 := h * h2 % ecP
      let v := u1 * h2 % ecP
      let x3 := subMod ecP (r * r % ecP) ((h3 + 2 * v) % ecP)
      ⟨x3, subMod ecP (r * subMod ecP v x3 % ecP) (s1 * h3 % ecP), h * (a.z * b.z % ecP) % ecP⟩

/-- A multiple of a point, by the `n` high bits of a scalar of 384 bits. -/
def ecMulN (k : Nat) (a : EcPt) : Nat → EcPt
  | 0 => ⟨1, 1, 0⟩
  | n + 1 =>
    let r := ecDbl (ecMulN k a n)
    if k / 2 ^ (383 - n) % 2 = 1 then ecAdd r a else r

/-- A multiple of a point, its coordinates made affine; nothing at infinity. -/
@[irreducible] def ecMul (k : Nat) (a : EcPt) : EcPt := ecMulN k a 384

/-- The affine coordinates of a point. -/
def EcPt.affine (a : EcPt) : Nat × Nat :=
  let i := invMod ecP a.z
  (a.x * (i * i % ecP) % ecP, a.y * (i * (i * i % ecP) % ecP) % ecP)

/-- A public key of 97 bytes: 0x04, then X and Y with the most significant byte first. -/
def EcPt.toBytes (a : EcPt) : List Nat := 0x04 :: (beBytes 48 a.affine.1 ++ beBytes 48 a.affine.2)

/-- The point of P-384 that 97 bytes name, if they name one. -/
def ecPoint (l : List Nat) : Option EcPt :=
  let x := ofBe ((l.drop 1).take 48)
  let y := ofBe ((l.drop 49).take 48)
  if l.length = 97 && l.head? = some 4 && x < ecP && y < ecP && y * y % ecP = (x * (x * x % ecP) + (ecP - 3) * x + ecB) % ecP
  then some ⟨x, y, 1⟩ else none

/-- The public key of a private key. -/
@[irreducible] def ecPublic (d : Nat) : List Nat := (ecMul d ecG).toBytes

/-- The shared secret of ECDH: the x-coordinate of the product (SP 800-56A). -/
@[irreducible] def ecdh (d : Nat) (peer : List Nat) : List Nat :=
  match ecPoint peer with
  | some q => beBytes 48 (ecMul d q).affine.1
  | none => []

/-- The ECDSA signature r, s over a message with SHA-384, by a private key and a per-message secret. -/
@[irreducible] def ecdsaSign (d k : Nat) (m : List Nat) : List Nat :=
  let r := (ecMul k ecG).affine.1 % ecN
  beBytes 48 r ++ beBytes 48 (invMod ecN k * ((ofBe (sha384 m) + r * d) % ecN) % ecN)

/-- An ECDSA signature verifies over a message with SHA-384 under a public key. -/
@[irreducible] def ecdsaVerify (pub sig m : List Nat) : Bool :=
  let r := ofBe (sig.take 48)
  let s := ofBe ((sig.drop 48).take 48)
  match ecPoint pub with
  | none => false
  | some q =>
    if r = 0 || s = 0 || ecN ≤ r || ecN ≤ s then false
    else
      let w := invMod ecN s
      let a := ecAdd (ecMul (ofBe (sha384 m) * w % ecN) ecG) (ecMul (r * w % ecN) q)
      a.z ≠ 0 && a.affine.1 % ecN = r

/-! ### The keys that Sorrel derives (R458, R470, R521) -/

/-- The pseudorandom key of the device secret. -/
def devicePrk : List Nat := hkdfExtract (List.replicate 48 0) Config.deviceSecret

/-- The device identity key, DIK. -/
@[irreducible] def dikScalar : Nat := ofBe (hkdfExpand devicePrk (ascii "ZF4064 DIK") 56) % (ecN - 1) + 1

/-- The key that seals key records. -/
def sealingKey : List Nat := hkdfExpand devicePrk (ascii "ZF4064 SEAL") 32

/-- Function number in Sorrel's messages and errors. -/
def fnCode (f : Nat) : Nat := if f = 512 then 0x0201 else f

/-- An agreement key of a function, by its label and length (R470). -/
def agreed (f : Nat) (e : Enroll) (label : String) (len : Nat) : List Nat :=
  hkdfExpand (hkdfExtract (List.replicate 48 0) (ecdh e.ssk e.tpk)) (ascii label ++ leBytes 2 (fnCode f)) len

def kCmd (f : Nat) (e : Enroll) : List Nat := agreed f e "ZF4064 cmd" 48
def kRsp (f : Nat) (e : Enroll) : List Nat := agreed f e "ZF4064 rsp" 48
def kWrap (f : Nat) (e : Enroll) : List Nat := agreed f e "ZF4064 wrap" 32

/-- The metering key, from MF's enrollment. -/
def meterKey (e : Enroll) : List Nat := agreed 512 e "ZF4064 meter" 32

/-- The key-encryption key of a key package, from one side's private key and the other's public key (R521). -/
def moveKey (d : Nat) (peer : List Nat) : List Nat :=
  hkdfExpand (hkdfExtract (List.replicate 48 0) (ecdh d peer)) (ascii "ZF4064 move") 32

/-! ### Sorrel's generator and the key records (R459, R460) -/

/-- The next value of the generator. -/
def drawBits (s : State) : Nat × State := ((Config.keyBits s.nextKey).toNat, { s with nextKey := s.nextKey + 1 })

/-- A fresh AES-256 key, and a fresh private key of P-384. -/
def freshKey (s : State) : Nat × State := ((drawBits s).1 % 2 ^ 256, (drawBits s).2)
def freshScalar (s : State) : Nat × State := ((drawBits s).1 % (ecN - 1) + 1, (drawBits s).2)

/-- The record: the valid copy with the higher generation. -/
def KeyRec.latest (r : KeyRec) : Option KeyCopy :=
  match r.a, r.b with
  | some x, some y => if x.gen < y.gen then some y else some x
  | some x, none => some x
  | none, y => y

/-- A record update writes the copy that does not hold the record. Its IV is the next value of the seal counter, whose mark is
raised first when it has no room (log 170). -/
def recPut (s : State) (id : Nat) (body : RecBody) : State :=
  let r := mgetD s.keyRecs id {}
  let x : KeyCopy := ⟨(r.latest.elim 0 (·.gen)) + 1, s.sealCtr.next, body⟩
  let inA := (match r.a, r.b with
    | some a, some b => decide (a.gen < b.gen)
    | some _, none => false
    | none, _ => true)
  let c := if s.sealCtr.next < s.sealCtr.mark then s.sealCtr else { s.sealCtr with mark := s.sealCtr.mark + 1048576 }
  { s with keyRecs := mset s.keyRecs id (if inA then { r with a := some x } else { r with b := some x }),
           sealCtr := { c with next := c.next + 1,
                               wanted := if c.mark ≤ c.next + 524289 && c.wanted.isNone then some (c.mark + 1048576) else c.wanted } }

/-- Both copies of a record are overwritten with zeros. -/
def recDel (s : State) (id : Nat) : State := { s with keyRecs := mdel s.keyRecs id }

/-- Records of a function's enrollment, a tenant's credentials and its EK. -/
def enrollRec (f : Nat) : Nat := 1024 + f
def credRec (t : Nat) : Nat := 2048 + t
def ekRec (t : Nat) : Nat := 3072 + t

end Sys2Proof.Machine
end

