-- ==== Sys2Proof/Machine/Formats.lean ====
section
/-! DEFINITION. What the part stores, byte by byte: map entries and segments (07_translation_and_wear.md R291–R295), journal
records (08_map_durability.md R335–R337), sectors with their metadata, codewords and plane pages (09 R378; 10 R405–R412), and
the encryption of sectors (12 R476–R479). State holds the same things as fields; the functions here give their bytes, and read
bytes that come from outside. -/

namespace Sys2Proof.Machine

/-! ### Map entries and segments (R291, R292, R295) -/

/-- A map entry as 40 bits: POISON, SUB, PUA; an unlisted entry is unmapped. -/
def entryWord : Option MapEnt → Nat
  | none => 0x1FFFFFFFFF
  | some .unreadable => 0x1FFFFFFFFE
  | some .lost => 2 ^ 39 + 0x1FFFFFFFFF
  | some (.at pua sub) => sub % 4 * 2 ^ 37 + pua % 2 ^ 37

/-- The value a map entry's 40 bits stand for. -/
def entryOf (w : Nat) : Option MapEnt :=
  if w / 2 ^ 39 % 2 = 1 then some .lost
  else if w % 2 ^ 37 = 0x1FFFFFFFFF then none
  else if w % 2 ^ 37 = 0x1FFFFFFFFE then some .unreadable
  else some (.at (w % 2 ^ 37) (w / 2 ^ 37 % 4))

/-- Entries of a map segment. -/
def segEntries : Nat := 209715

/-- Byte offset of an entry in its segment. -/
def entryOffset (i : Nat) : Nat := 5 * (i % segEntries)

/-- The byte of segment `k` at an offset; the last byte of a segment is 0. -/
def segByte (m : FMap MapEnt) (k off : Nat) : Nat :=
  if off < 5 * segEntries then entryWord (mget m (k * segEntries + off / 5)) / 256 ^ (off % 5) % 256 else 0

/-! ### Journal records (R335–R337) -/

/-- CRC-8 with polynomial 0x07 and initial value 0. -/
def crc8Bits : Nat → Nat → Nat
  | 0, c => c
  | n + 1, c => crc8Bits n (if c < 128 then 2 * c else xorN (2 * c % 256) 0x07)

def crc8 (l : List Nat) : Nat := l.foldl (fun c b => crc8Bits 8 (xorN c b)) 0

/-- A field at its lowest bit. -/
def fieldAt (lo width v : Nat) : Nat := v % 2 ^ width * 2 ^ lo

/-- TYPE and BODY of a record, as bits [123:8]. -/
def JRec.body : JRec → Nat
  | .extent k f c b sl rel sub tail conv =>
    fieldAt 120 4 1 + fieldAt 110 10 k + fieldAt 74 36 f + fieldAt 66 8 c + fieldAt 34 32 b + fieldAt 14 20 sl +
      fieldAt 13 1 rel.toNat + fieldAt 11 2 sub + fieldAt 9 2 tail + fieldAt 8 1 conv.toNat
  | .bandOpen b ds st d g pos =>
    fieldAt 120 4 2 + fieldAt 88 32 b + fieldAt 81 7 ds + fieldAt 76 5 st + fieldAt 69 7 d + fieldAt 63 6 g + fieldAt 23 40 pos
  | .bandBlock b m d blk => fieldAt 120 4 3 + fieldAt 88 32 b + fieldAt 82 6 m + fieldAt 71 11 d + fieldAt 58 13 blk
  | .bandClose b n pos => fieldAt 120 4 4 + fieldAt 88 32 b + fieldAt 68 20 n + fieldAt 28 40 pos
  | .release b => fieldAt 120 4 5 + fieldAt 88 32 b
  | .zone k z e ev => fieldAt 120 4 6 + fieldAt 110 10 k + fieldAt 78 32 z + fieldAt 46 32 e + fieldAt 43 3 ev
  | .erase d blk n => fieldAt 120 4 7 + fieldAt 109 11 d + fieldAt 96 13 blk + fieldAt 64 32 n
  | .dealloc k f c => fieldAt 120 4 8 + fieldAt 110 10 k + fieldAt 76 34 f + fieldAt 44 32 c
  | .seq w => fieldAt 120 4 9 + fieldAt 56 64 w
  | .poison k f c cause => fieldAt 120 4 10 + fieldAt 110 10 k + fieldAt 74 36 f + fieldAt 42 32 c + fieldAt 34 8 cause
  | .settled b => fieldAt 120 4 11 + fieldAt 88 32 b

/-- Records of the ring. -/
def ringSize : Nat := 6291456

/-- LAP of record `n`: the first pass is pass 1. -/
def lapOf (n : Nat) : Nat := (n / ringSize + 1) % 2

/-- Record `n` as the 16 bytes of its place in the ring. -/
def JRec.toBytes (n : Nat) (r : JRec) : List Nat :=
  let hi := leBytes 15 ((fieldAt 127 1 (lapOf n) + r.body) / 256)
  crc8 hi :: hi

/-- The record that a TYPE and BODY spell. -/
def JRec.ofBody (w : Nat) : Option JRec :=
  let g (hi lo : Nat) : Nat := w / 2 ^ lo % 2 ^ (hi + 1 - lo)
  match g 123 120 with
  | 1 => some (.extent (g 119 110) (g 109 74) (g 73 66) (g 65 34) (g 33 14) (g 13 13 = 1) (g 12 11) (g 10 9) (g 8 8 = 1))
  | 2 => some (.bandOpen (g 119 88) (g 87 81) (g 80 76) (g 75 69) (g 68 63) (g 62 23))
  | 3 => some (.bandBlock (g 119 88) (g 87 82) (g 81 71) (g 70 58))
  | 4 => some (.bandClose (g 119 88) (g 87 68) (g 67 28))
  | 5 => some (.release (g 119 88))
  | 6 => some (.zone (g 119 110) (g 109 78) (g 77 46) (g 45 43))
  | 7 => some (.erase (g 119 109) (g 108 96) (g 95 64))
  | 8 => some (.dealloc (g 119 110) (g 109 76) (g 75 44))
  | 9 => some (.seq (g 119 56))
  | 10 => some (.poison (g 119 110) (g 109 74) (g 73 42) (g 41 34))
  | 11 => some (.settled (g 119 88))
  | _ => none

/-- The record that 16 bytes of the ring hold on a pass, if its CHK verifies and its LAP is that of the pass (R358). -/
def JRec.ofBytes (lap : Nat) (l : List Nat) : Option JRec :=
  let w := ofLe l
  if l.head? = some (crc8 (l.drop 1)) && w / 2 ^ 127 % 2 = lap then JRec.ofBody w else none

/-! ### Sectors and their metadata (R407, R408) -/

/-- CRC-16 with polynomial 0x1021 and initial value 0xFFFF. -/
def crc16Bits : Nat → Nat → Nat
  | 0, c => c
  | n + 1, c => crc16Bits n (if c < 0x8000 then 2 * c else xorN (2 * c % 65536) 0x1021)

def crc16 (l : List Nat) : Nat := l.foldl (fun c b => crc16Bits 8 (xorN c (b * 256))) 0xFFFF

/-- Metadata of 48 bytes from its first 46. -/
def withCrc (l : List Nat) : List Nat := l ++ leBytes 2 (crc16 l)

/-- The metadata of a sector. -/
def Sector.metaBytes (x : Sector) : List Nat :=
  withCrc (leBytes 16 x.tag ++ leBytes 6 x.lsa ++ leBytes 2 (x.nsk % 1024) ++ leBytes 8 x.wseq ++ leBytes 8 x.nonce ++
    [x.conv.toNat * 16 + (if x.conv then 0 else x.zsize % 4) * 4, x.cls % 4 * 64 + x.life % 4 * 16 + x.group % 16, x.rgen % 256, 0, 0, 0])

/-- Bytes 0 to 4,143 of a sector's codeword. -/
def Sector.toBytes (x : Sector) : List Nat := leBytes 4096 x.ct ++ x.metaBytes

/-- FLAGS of a codeword's 4,144 bytes. -/
def flagsOf (l : List Nat) : Nat := l.getD 4136 0

/-- The metadata CRC of a codeword's 4,144 bytes verifies. -/
def crcVerifies (l : List Nat) : Bool := ofLe ((l.drop 4142).take 2) = crc16 ((l.drop 4096).take 46)

/-- The sector that a codeword's 4,144 bytes hold. -/
def Sector.ofBytes (l : List Nat) : Sector :=
  let g (off n : Nat) : Nat := ofLe ((l.drop (4096 + off)).take n)
  { ct := ofLe (l.take 4096), tag := g 0 16, lsa := g 16 6, nsk := g 22 2 % 1024, wseq := g 24 8, nonce := g 32 8,
    conv := g 40 1 / 16 % 2 = 1, zsize := g 40 1 / 4 % 4, cls := g 41 1 / 64 % 4, life := g 41 1 / 16 % 4, group := g 41 1 % 16,
    rgen := g 42 1 }

/-! ### Encryption of sectors (R476–R479) -/

/-- Sectors of a zone, by ZSIZE (R239). -/
def zoneSectors (code : Nat) : Nat :=
  match code with
  | 0 => 65536
  | 1 => 262144
  | _ => 1048576

/-- The IV, each field most significant byte first (R478). -/
def Sector.ivBytes (x : Sector) : List Nat :=
  if x.conv then [0, 0, 0, 0] ++ beBytes 8 x.nonce
  else beBytes 4 (x.nonce / 2 ^ 32) ++ beBytes 4 (x.lsa / zoneSectors x.zsize) ++ beBytes 4 (x.nonce % 2 ^ 32)

/-- The additional authenticated data: NSID, LSA, WSEQ (R477). -/
def Sector.aad (x : Sector) (nsid : Nat) : List Nat := leBytes 2 nsid ++ leBytes 6 x.lsa ++ leBytes 8 x.wseq

/-- Encryption and decryption of 4,096 bytes, as numbers. -/
def Sector.crypt (x : Sector) (key v : Nat) : Nat := xorN v (ofLe (gcmStream (leBytes 32 key) x.ivBytes 4096))

/-- The tag of a sector under a key and a namespace identifier. -/
def Sector.tagOf (x : Sector) (key nsid : Nat) : Nat :=
  ofLe (gcmTag (leBytes 32 key) x.ivBytes (x.aad nsid) (leBytes 4096 x.ct))

/-- A sector takes its data, encrypted under a namespace's key, and its tag (R476). -/
def Sector.sealed (x : Sector) (key nsid data : Nat) : Sector :=
  let y := { x with ct := x.crypt key data }
  { y with tag := y.tagOf key nsid }

/-- What CSX makes of a sector read under a namespace's key: the plaintext when the tag verifies (R479). -/
def Sector.opened (x : Sector) (key nsid : Nat) : Option Nat :=
  if x.tag = x.tagOf key nsid then some (x.crypt key x.ct) else none

/-! ### Codewords (R405, R406, R409, R412) -/

/-- Bytes 0 to 4,143 of a filler codeword. -/
def fillerBytes : List Nat := List.replicate 4096 0 ++ withCrc (List.replicate 40 0 ++ [0x40, 0, 0, 0, 0, 0])

/-- Bytes of what an accumulator took: a sector's codeword, or filler. -/
def accBytes : Option Sector → List Nat
  | some x => x.toBytes
  | none => fillerBytes

/-- A parity codeword: the XOR, with PARITY set (R409). -/
def parityBytes (l : List (Option Sector)) : List Nat :=
  let b := l.foldl (fun a x => xorBytes a (accBytes x)) (List.replicate 4144 0)
  b.take 4136 ++ [Nat.lor (b.getD 4136 0) 0x80] ++ b.drop 4137

/-- Bytes 0 to 4,143 of a codeword before scrambling, where the model holds them. -/
def Cw.plainBytes : Cw → Option (List Nat)
  | .filler => some fillerBytes
  | .parity l => some (parityBytes l)
  | .data x => some x.toBytes
  | .garbled => none

/-- One output bit of the scrambler: the sum of stages 31 and 28 enters stage 1 and is the output (log 169). -/
def scramStep (v : Nat) : Nat × Nat :=
  let b := (v / 2 ^ 30 + v / 2 ^ 27) % 2
  (b, v * 2 % 2 ^ 31 + b)

/-- One byte of the sequence, from its bit `i` on. -/
def scramByte : Nat → Nat → Nat × Nat
  | 0, v => (0, v)
  | n + 1, v =>
    let r := scramStep v
    let t := scramByte n r.2
    (r.1 + 2 * t.1, t.2)

/-- `n` bytes of the sequence; bit 0 of byte 0 is the first bit. -/
def scramBytes : Nat → Nat → List Nat
  | 0, _ => []
  | n + 1, v =>
    let r := scramByte 8 v
    r.1 :: scramBytes n r.2

/-- The seed of a codeword's place (R406). -/
def scramSeed (pua sub : Nat) : Nat :=
  let v := (pua % 2 ^ 29 * 4 + sub) % 2 ^ 31
  if v = 0 then 0x7FFFFFFF else v

/-- Scrambling and its removal. -/
def scramble (pua sub : Nat) (l : List Nat) : List Nat := xorBytes l (scramBytes l.length (scramSeed pua sub))

/-- The parity length of a plane page with a spare area (R378). -/
def parityLen (spare : Nat) : Nat := (spare - 192) / 32 * 8
def cwLen (spare : Nat) : Nat := 4144 + parityLen spare

/-- A codeword as the encoder gives it to the lane: scrambled bytes, then the LDPC parity over them by matrix (R − 464) / 8
(R406, R410, R412). -/
def cwBytes (spare pua sub : Nat) (l : List Nat) : List Nat :=
  let b := scramble pua sub l
  b ++ (List.range (parityLen spare)).map (fun i => Config.ldpcParity ((parityLen spare - 464) / 8) b i % 256)

/-- The bytes programmed into a plane page: codeword k at column k × CW_LEN, and 0xFF up to the end of the spare area
(R378). -/
def plainPage (spare pua : Nat) (cws : List (List Nat)) : List Nat :=
  let b := (cws.zipIdx.map (fun q => cwBytes spare pua q.2 q.1)).flatten
  b ++ List.replicate (16384 + spare - b.length) 0xFF

/-- The bytes that a program gives the lane for a plane page. -/
def pageCells (spare pua : Nat) (cws : List Cw) : List Nat := plainPage spare pua (cws.filterMap Cw.plainBytes)

end Sys2Proof.Machine
end

