-- ==== Sys2Proof/Machine/CacheOps.lean ====
section
/-! DEFINITION. The control and map caches: lookup and replacement, maintenance, enabling, draining, parity
(15_caches.md). -/

namespace Sys2Proof.Machine

/-- Page of a cache. -/
def CacheId.page : CacheId → PageKind
  | .ccc => .ccc
  | .mcc => .mcc

/-- Key of a cache in the state. -/
def CacheId.key : CacheId → Nat
  | .ccc => 0
  | .mcc => 1

/-- Number of sets (R569). -/
def CacheId.sets : CacheId → Nat
  | .ccc => 4096
  | .mcc => 16384

/-- A cache. -/
def cacheAt (s : State) (i : CacheId) : Cache := mgetD s.caches i.key {}

/-- Replace a cache. -/
def setCache (s : State) (i : CacheId) (c : Cache) : State := { s with caches := mput s.caches i.key {} c }

/-- Key of a line. -/
def lineKey (set way : Nat) : Nat := set * 16 + way

/-- Cache address of a line. -/
def lineAddr (i : CacheId) (key tag : Nat) : Nat := (tag * i.sets + key / 16) * 64

/-! ### Policies and ways (R570, R573, R574) -/

/-- The policy of an address: that of the lowest-numbered region it lies in. -/
def policyOf (c : Cache) (addr : Nat) : Nat :=
  match c.active.find? (fun q => q.2.base ≤ addr && addr < q.2.base + q.2.pages * 4096) with
  | some q => if q.2.policy ≤ 4 then q.2.policy else 0
  | none => 0

/-- WAYS as it acts. -/
def waysAct (w : Nat) : Nat := min 16 (max 2 w)

/-- The ways an allocation may take. -/
def allowedWays (s : State) (i : CacheId) : List Nat :=
  let lock := getF s i.page 0 F.CACHE_WAY_LOCK_LOCKED
  let fill := getF s i.page 0 F.CACHE_FILL_MASK_WAYS
  (List.range (cacheAt s i).ways).filter (fun w => lock / 2 ^ w % 2 = 0 && (fill = 0 || fill / 2 ^ w % 2 = 1))

/-- The way of a set that holds a tag. -/
def cacheFind (c : Cache) (set tag : Nat) : Option Nat :=
  (List.range 16).find? (fun w => match mget c.lines (lineKey set w) with
    | some l => l.tag = tag
    | none => false)

/-- Descend the pseudo-LRU tree over 2 ^ d ways from `lo`, keeping to halves with an allowed way. -/
def plruGo (bits : Nat) (allowed : List Nat) : Nat → Nat → Nat → Nat
  | 0, _, lo => lo
  | d + 1, node, lo =>
    let half := 2 ^ d
    let l := allowed.any (fun w => lo ≤ w && w < lo + half)
    let r := allowed.any (fun w => lo + half ≤ w && w < lo + 2 * half)
    if (if l && r then bits.testBit node else r) then plruGo bits allowed d (2 * node + 1) (lo + half)
    else plruGo bits allowed d (2 * node) lo

/-- The tree after an access to a way: every node on its path names the other half. -/
def plruTouch (bits way : Nat) : Nat :=
  (List.range 4).foldl (fun b l =>
    let node := 2 ^ l + way / 2 ^ (4 - l)
    let right := way / 2 ^ (3 - l) % 2 = 1
    if right then b - (b / 2 ^ node % 2) * 2 ^ node else b ||| 2 ^ node) bits

/-- The way an allocation takes: an invalid one, or the one the tree names. -/
def victimWay (c : Cache) (set : Nat) (allowed : List Nat) : Option Nat :=
  if allowed.isEmpty then none
  else match allowed.find? (fun w => (mget c.lines (lineKey set w)).isNone) with
    | some w => some w
    | none => some (plruGo (mgetD c.lru set 0) allowed 4 1 0)

/-! ### Parity (R581, R588) -/

/-- The line of a parity error, given by the line's key, plus 2 ^ 18 where the error is in the tag. -/
def badKey (b : Nat) : Nat := b % 2 ^ 18

/-- A parity error on a line that is read: a clean line is fetched again, a dirty one leads to a FATAL reset, and a way
without a valid line is cleared. -/
def parityCheck (s : State) (i : CacheId) (key : Nat) : State :=
  let c := cacheAt s i
  if !c.bad.any (fun b => badKey b = key) then s
  else
    let s1 := setCache s i { c with bad := c.bad.filter (fun b => badKey b ≠ key) }
    match mget c.lines key with
    | some l =>
      let a := lineAddr i key l.tag
      if l.dirty then
        { blockError s1 i.page 0 2 (key % 16) (a % 2 ^ 32) (a / 2 ^ 32) with
          doom := some (s1.doom.getD (pageNo i.page 0, a % 2 ^ 32, a / 2 ^ 32)) }
      else
        raise (blockError (bump s1 i.page 0 F.CACHE_PARITY) i.page 0 1 (key % 16) (a % 2 ^ 32) (a / 2 ^ 32)) i.page 0
          F.CACHE_INT_RAW_PARITY
    | none => s1

/-- A lookup reads the tag of every way of its set, so it finds every tag parity error there. -/
def tagChecks (i : CacheId) (set : Nat) (s : State) : State :=
  ((cacheAt s i).bad.filter (fun b => 2 ^ 18 ≤ b && badKey b / 16 = set)).foldl (fun s b => parityCheck s i (badKey b)) s

/-! ### Accesses (R573–R575, R579, R587) -/

/-- Put a line into a way. The line that was there is evicted, which finds its parity error, and written back if dirty. -/
def fillWay (s : State) (i : CacheId) (set way tag : Nat) (dirty : Bool) : State :=
  let key := lineKey set way
  let s1 := parityCheck s i key
  let c := cacheAt s1 i
  setCache s1 i { c with lines := mset c.lines key ⟨tag, dirty⟩, lru := mset c.lru set (plruTouch (mgetD c.lru set 0) way) }

/-- Allocate a line under R574. -/
def allocLine (s : State) (i : CacheId) (set tag : Nat) (dirty : Bool) : State :=
  match victimWay (cacheAt s i) set (allowedWays s i) with
  | some w => fillWay s i set w tag dirty
  | none => bump s i.page 0 F.CACHE_NOALLOC

/-- A client's access to an address. -/
def cacheAccess (i : CacheId) (addr : Nat) (write : Bool) (s0 : State) : State :=
  let pol := policyOf (cacheAt s0 i) addr
  if getF s0 i.page 0 F.CACHE_STAT_ENABLED = 0 || pol = 0 then s0
  else
    let s := tagChecks i (addr / 64 % i.sets) s0
    let drain := getF s i.page 0 F.CACHE_STAT_DRAINING = 1
    let line := addr / 64
    let set := line % i.sets
    let tag := line / i.sets
    match cacheFind (cacheAt s i) set tag with
    | some w =>
      let key := lineKey set w
      let s1 := bump (parityCheck s i key) i.page 0 F.CACHE_HITS
      let c := cacheAt s1 i
      setCache s1 i { c with
        lru := mset c.lru set (plruTouch (mgetD c.lru set 0) w),
        lines := mmod c.lines key (fun l => if write && !drain && 3 ≤ pol then { l with dirty := true } else l) }
    | none =>
      let s1 := bump s i.page 0 F.CACHE_MISSES
      if drain || (write && (pol = 1 || pol = 3)) then s1 else allocLine s1 i set tag (write && pol = 4)

/-- DRAM address of a map segment, which lies anywhere in the forward-map pool, and of its place in the namespace's segment
table. -/
def segAddr (k seg : Nat) : Nat := Config.segMib k seg * 2 ^ 20

/-- An access to the map entry `e` of a key slot through MCC: the segment table gives the segment, and an entry whose five
bytes cross a line is two lines (R295, R299, R573). -/
def mapAccess (k e : Nat) (write : Bool) (s : State) : State :=
  let a := segAddr k (e / segEntries) + entryOffset e
  let s1 := cacheAccess .mcc a write (cacheAccess .mcc (Config.segTable k (e / segEntries)) false s)
  if a / 64 = (a + 4) / 64 then s1 else cacheAccess .mcc (a + 4) write s1

/-! ### Maintenance (R575, R576, R588, R589) -/

/-- One maintenance step on a line: clean, drop, or both. -/
def maintLine (i : CacheId) (op : Nat) (s : State) (key : Nat) : State :=
  let s1 := parityCheck s i key
  let c := cacheAt s1 i
  setCache s1 i { c with lines := if op = 1 then mmod c.lines key (fun l => { l with dirty := false }) else mdel c.lines key }

/-- A way that FILL_MASK leaves out. -/
def outsideMask (s : State) (i : CacheId) (w : Nat) : Bool :=
  getF s i.page 0 F.CACHE_FILL_MASK_WAYS ≠ 0 && getF s i.page 0 F.CACHE_FILL_MASK_WAYS / 2 ^ w % 2 = 0

/-- Preload one line: it is filled where it is absent, moves into an allowed way out of a way outside FILL_MASK, or stays (a
line in a locked way of FILL_MASK stays too). With no allowed way to move into it stays, and the request counts in NOALLOC as
any other. -/
def preloadLine (i : CacheId) (s0 : State) (line : Nat) : State :=
  let set := line % i.sets
  let tag := line / i.sets
  let s := tagChecks i set s0
  if policyOf (cacheAt s0 i) (line * 64) = 0 || getF s0 i.page 0 F.CACHE_STAT_ENABLED = 0 then s0
  else match cacheFind (cacheAt s i) set tag with
    | none => allocLine s i set tag false
    | some w =>
      if !outsideMask s i w then s
      else
        let s1 := parityCheck s i (lineKey set w)
        match victimWay (cacheAt s1 i) set (allowedWays s1 i), mget (cacheAt s1 i).lines (lineKey set w) with
        | some v, some l =>
          let s2 := fillWay s1 i set v tag l.dirty
          setCache s2 i { cacheAt s2 i with lines := mdel (cacheAt s2 i).lines (lineKey set w) }
        | none, _ => bump s1 i.page 0 F.CACHE_NOALLOC
        | some _, none => s1

/-- Run a maintenance request. -/
def runMaint (i : CacheId) (m : CMaint) (s : State) : State :=
  let op := bitsOf m.ctrl 3 1
  if bitsOf m.ctrl 4 4 = 1 then maintLine i op s (lineKey (bitsOf m.setway 13 0 % i.sets) (bitsOf m.setway 19 16))
  else
    let ls := (List.range (bitsOf m.ctrl 31 16 + 1)).map (m.addr / 64 + ·)
    if op = 4 then ls.foldl (preloadLine i) s
    else ls.foldl (fun s0 l =>
      let s := tagChecks i (l % i.sets) s0
      match cacheFind (cacheAt s i) (l % i.sets) (l / i.sets) with
      | some w => maintLine i op s (lineKey (l % i.sets) w)
      | none => s) s

/-- A write of MAINT_CTRL with GO. -/
def maintGo (i : CacheId) (v : Nat) (s : State) : State :=
  let op := bitsOf v 3 1
  if getF s i.page 0 F.CACHE_STAT_MAINT_BUSY = 1 then s
  else if op = 0 || 4 < op || (op = 4 && bitsOf v 4 4 = 1) then blockError s i.page 0 3 (v % 65536) 0 0
  else
    let m : CMaint := ⟨v, rd s i.page 0 0x120 % 256 * 2 ^ 32 + rd s i.page 0 0x11C, rd s i.page 0 0x124⟩
    let s1 := setF s i.page 0 F.CACHE_STAT_MAINT_BUSY 1
    if getF s i.page 0 F.CACHE_STAT_DRAINING = 1 then setCache s1 i { cacheAt s1 i with held := some m }
    else runMaint i m s1

/-- MAINT_DONE. -/
def maintDone (i : CacheId) (s : State) : State :=
  if getF s i.page 0 F.CACHE_STAT_MAINT_BUSY = 1 && (cacheAt s i).held.isNone then
    raise (setF s i.page 0 F.CACHE_STAT_MAINT_BUSY 0) i.page 0 F.CACHE_INT_RAW_MAINT_DONE
  else s

/-! ### Enabling, disabling, draining (R571, R579, R580) -/

/-- ENABLE changes from 0 to 1. -/
def cacheOn (i : CacheId) (s : State) : State :=
  let c := cacheAt s i
  let s1 := setCache s i { c with
    lines := [], lru := [], bad := [], enable := false, active := c.regions, ways := waysAct (getF s i.page 0 F.CACHE_CTRL_WAYS) }
  setF (wr s1 i.page 0 0x114 0) i.page 0 F.CACHE_STAT_ENABLED 1

/-- ENABLE is cleared: bypass at once with no dirty line, else the drain begins. -/
def cacheOff (i : CacheId) (s : State) : State :=
  let c := cacheAt s i
  if c.lines.any (fun q => q.2.dirty) then setF s i.page 0 F.CACHE_STAT_DRAINING 1
  else setF (setCache s i { c with lines := [], lru := [] }) i.page 0 F.CACHE_STAT_ENABLED 0

/-- A write of CTRL has stored a value. -/
def cacheCtrl (i : CacheId) (s : State) : State :=
  let on := getF s i.page 0 F.CACHE_CTRL_ENABLE = 1
  let enabled := getF s i.page 0 F.CACHE_STAT_ENABLED = 1
  let drain := getF s i.page 0 F.CACHE_STAT_DRAINING = 1
  if drain then setCache s i { cacheAt s i with enable := on }
  else if on && !enabled then cacheOn i s
  else if !on && enabled then cacheOff i s
  else s

/-- CACHE_DRAIN_DONE: every dirty line is written back and every line invalid; what the drain held follows. -/
def cacheDrained (i : CacheId) (s : State) : State :=
  let c := cacheAt s i
  if getF s i.page 0 F.CACHE_STAT_DRAINING = 1 && (getF s i.page 0 F.CACHE_STAT_MAINT_BUSY = 0 || c.held.isSome) then
    let s1 := c.bad.foldl (fun s b => parityCheck s i (badKey b)) s
    let c1 := cacheAt s1 i
    let s2 := setCache s1 i { c1 with lines := [], lru := [], held := none, enable := false }
    let s3 := raise (setF (setF s2 i.page 0 F.CACHE_STAT_DRAINING 0) i.page 0 F.CACHE_STAT_ENABLED 0) i.page 0
      F.CACHE_INT_RAW_DRAIN_DONE
    let s4 := (match c.held with
      | some m => runMaint i m s3
      | none => s3)
    if c.enable then cacheOn i s4 else s4
  else s

/-- Lines found with a parity error from now on. -/
def addBad (i : CacheId) (l : List Nat) (s : State) : State :=
  if l.isEmpty then s else setCache s i { cacheAt s i with bad := (cacheAt s i).bad ++ l }

/-! ### Regions (R573, R585) -/

/-- A write of REG_SEL loads the selected region. -/
def regionSelect (i : CacheId) (s : State) : State :=
  let r := mgetD (cacheAt s i).regions (getF s i.page 0 F.CACHE_REG_SEL_INDEX) {}
  wr (wr (wr (wr s i.page 0 0x104 (r.base % 2 ^ 32)) i.page 0 0x108 (r.base / 2 ^ 32 % 256)) i.page 0 0x10C r.pages)
    i.page 0 0x110 r.policy

/-- A write of REG_ATTR commits the region registers to the selected region. -/
def regionCommit (i : CacheId) (s : State) : State :=
  let r : CRegion := ⟨getF s i.page 0 F.CACHE_REG_BASE_HI_BASE_HI * 2 ^ 32 + getF s i.page 0 F.CACHE_REG_BASE_LO_BASE_LO * 4096,
    getF s i.page 0 F.CACHE_REG_SIZE_PAGES, getF s i.page 0 F.CACHE_REG_ATTR_POLICY⟩
  let c := cacheAt s i
  setCache s i { c with regions := mput c.regions (getF s i.page 0 F.CACHE_REG_SEL_INDEX) {} r }

/-! ### A lost DRAM line (R582) -/

/-- DRX finds a line lost whose copy MCC may hold: a clean copy is dropped; answers whether a dirty one replaced it. -/
def mccLost (addr : Nat) (s0 : State) : Bool × State :=
  let line := addr / 64
  let s := (match cacheFind (cacheAt s0 .mcc) (line % 16384) (line / 16384) with
    | some w => parityCheck s0 .mcc (lineKey (line % 16384) w)
    | none => s0)
  let c := cacheAt s .mcc
  match cacheFind c (line % 16384) (line / 16384) with
  | some w =>
    let key := lineKey (line % 16384) w
    match mget c.lines key with
    | some l =>
      if l.dirty then (true, setCache s .mcc { c with lines := mmod c.lines key (fun l => { l with dirty := false }) })
      else (false, setCache s .mcc { c with lines := mdel c.lines key })
    | none => (false, s)
  | none => (false, s)

end Sys2Proof.Machine
end

