-- ==== Sys2Proof/Machine/CtrlOps.lean ====
section
/-! DEFINITION. Controllers, associations and connections: asynchronous events (R96, R180, R671), the loss of a
connection (R124, R125) and controller resets (R185, R681). -/

namespace Sys2Proof.Machine

/-! ### Accessors -/

/-- The function number of MF. Tenants are 0 to 511. -/
def fnMF : Nat := 512

/-- A controller; one that nothing has changed is as at reset. -/
def ctrl (s : State) (f : Nat) : Ctrl := mgetD s.ctrls f {}

/-- Replace a controller. -/
def setCtrl (s : State) (f : Nat) (c : Ctrl) : State := { s with ctrls := mput s.ctrls f {} c }

/-- Change a controller. -/
def modCtrl (s : State) (f : Nat) (g : Ctrl → Ctrl) : State := setCtrl s f (g (ctrl s f))

/-- A tenant; an unlisted tenant is FREE. -/
def tenant (s : State) (t : Nat) : Tenant := mgetD s.tenants t {}

/-- Replace a tenant. -/
def setTenant (s : State) (t : Nat) (x : Tenant) : State := { s with tenants := mput s.tenants t {} x }

/-- Change a tenant. -/
def modTenant (s : State) (t : Nat) (g : Tenant → Tenant) : State := setTenant s t (g (tenant s t))

/-- Count one event in a TFn register of a tenant; MF has no TFn page. -/
def bumpTf (s : State) (f : Nat) (x : Fld) : State := if f < 512 then bump s .tf f x else s

/-- Set a TFn interrupt bit of a tenant. -/
def raiseTf (s : State) (f : Nat) (x : Fld) : State := if f < 512 then raise s .tf f x else s

/-! ### Asynchronous events -/

/-- Completion dword 0 of an Asynchronous Event Request: type, information, log page identifier. -/
def aerDw0 (type info lid : Nat) : Nat := type + info * 256 + lid * 65536

/-- Post an event to a function: it completes the oldest outstanding Asynchronous Event Request, or waits for one
(log 8). -/
def postEvent (s : State) (f : Nat) (dw0 : Nat) : State :=
  let c := ctrl s f
  match c.aers with
  | (conn, cid) :: t => postOk (setCtrl s f { c with aers := t }) conn cid dw0 []
  | [] => setCtrl s f { c with events := c.events ++ [dw0] }

/-! ### Transport key slots (R137, R465) -/

/-- Every cipher core drops a slot from its cache, and the scheduler the waiting jobs of the slot (R465). -/
def dropKey (s : State) (slot : Nat) : State :=
  { s with cores := s.cores.map (fun q => (q.1, { q.2 with cache := q.2.cache.filter (· ≠ slot) })),
           cjobs := s.cjobs.filter (·.addr ≠ slot), cctx := s.cctx.filter (·.addr ≠ slot) }

/-- Destroy a transport key slot. -/
def destroyTslot (s : State) (slot : Nat) : State :=
  bump (dropKey { s with tslots := mdel s.tslots slot } slot) .sor 0 F.SOR_DESTROYED_COUNT

/-! ### Commands dropped (R124, R185) -/

/-- Count commands for which no completion is posted (R198). -/
def countDiscards (s : State) (n : Nat) : State :=
  if n = 0 then s else raise (bumpBy s .qeng 0 F.QENG_DISCARDED n) .qeng 0 F.QENG_INT_RAW_DISCARD

/-- The dispatch point of these commands is their admission (R182). -/
def IoOp.goesAtOnce : IoOp → Bool
  | .flush => true
  | .zmSend _ _ => true
  | .zmRecv => true
  | .abort => true
  | _ => false

/-- The command has passed its dispatch point (R182). -/
def Cmd.past (c : Cmd) : Bool :=
  c.phase = .dispatched || c.phase = .ready || (c.phase = .admitted && c.op.goesAtOnce)

/-- Commands of a selection: those past their dispatch point finish silently, the others are dropped. -/
def dropCmds (s : State) (p : Cmd → Bool) : State :=
  let hit := s.cmds.filter (fun q => p q.2 && !q.2.silent)
  let keep := s.cmds.filter (fun q => !(p q.2) || (q.2.past && !(q.2.phase = .ready)) || q.2.silent)
  countDiscards
    { s with cmds := keep.map (fun q => if p q.2 then (q.1, { q.2 with silent := true }) else q) } hit.length

/-- Admin commands that wait for their turn are dropped. -/
def dropHeld (s : State) (p : Nat → Bool) : State :=
  countDiscards { s with held := s.held.filter (fun h => !p h.1) } (s.held.filter (fun h => p h.1)).length

/-- Remove a connection: its transport key slot is destroyed, the commands that wait on it are dropped, and its pool entry
returns. -/
def removeConn (s0 : State) (id : Nat) : State :=
  match connOf s0 id with
  | some c =>
    let s := dropHeld s0 (· = id)
    let s1 := match c.tls with
      | some t => destroyTslot s t.slot
      | none => s
    { s1 with conns := mdel s1.conns id }
  | none => s0

/-- A connection ends under R124: TTE.INT_RAW.CONN_LOST is set, and TFn.CONN_EVT.LOST counts it (R230, R236). One that no
queue uses only returns its pool entry. -/
def endConn (s : State) (id : Nat) : State :=
  match connOf s id with
  | none => s
  | some c =>
    let s1 := removeConn s id
    match c.fn with
    | none => s1
    | some f => bumpTf (raise s1 .tte 0 F.TTE_INT_RAW_CONN_LOST) f F.TF_CONN_EVT_LOST

/-- The part ends several connections. -/
def endConns (s : State) : List Nat → State
  | [] => s
  | id :: t => endConns (endConn s id) t

/-- The part ends a connection and tells the host. -/
def hangUp (s : State) (id : Nat) (what : String) : State :=
  match connOf s id with
  | some c => endConn (tell s id c what []) id
  | none => s

/-- The outstanding Asynchronous Event Requests and waiting admin commands of a controller get no completion (R124, R185):
what the latter started goes on. -/
def dropAdmin (s : State) (f : Nat) : State :=
  let mine (w : Nat) : Bool := (match connOf s w with
    | some c => c.fn = some f && c.qid = 0
    | none => false)
  let n := (ctrl s f).aers.length + (s.adminWaits.filter (fun w => mine w.1)).length
  dropHeld (countDiscards (modCtrl { s with adminWaits := s.adminWaits.filter (fun w => !(mine w.1)) } f
    (fun k => { k with aers := [] })) n)
    mine

/-- A reset of kind CONTROLLER takes effect (R185 step 4, R681): the I/O queues and their connections end, features and
outstanding Asynchronous Event Requests are dropped, and the counts rise. `expiry` ends the association and its admin
connection, and counts a keep-alive expiry. -/
def ctrlReset (s : State) (f : Nat) (expiry kato : Bool) : State :=
  let c := ctrl s f
  let s1 := dropCmds (dropAdmin s f) (fun q => q.fn = f)
  let s2 := endConns s1 (c.ioqs.map Prod.snd)
  let s3 := if expiry then (match c.assoc with
      | some a => (match a.conn with
        | some id => hangUp s2 id "end"
        | none => s2)
      | none => s2) else s2
  let s4 := setCtrl s3 f { c with
    cc := 0, rdy := false, shst := 0, feats := [], aers := [], events := [], ioqs := [], resetting := false,
    shutdown := false, assoc := if expiry then none else c.assoc }
  let s5 := bumpTf (raiseTf s4 f F.TF_INT_RAW_CTRL_RESET) f F.TF_RESETS_CONTROLLER
  let s6 := if f < 512 then modTenant s5 f (fun t => { t with resets := t.resets + 1 }) else s5
  if kato then raiseTf s6 f F.TF_INT_RAW_KATO else s6

/-- The admin connection of a controller is lost (R125): its I/O queues stay and the controller waits for a new admin
Connect, or is reset at once when its keep-alive timeout is 0. Outstanding admin commands are dropped, Aborts among them. -/
def adminLost (s : State) (f id : Nat) : State :=
  let c := ctrl s f
  let dropped := c.aers.length + (s.adminWaits.filter (fun w => w.1 = id)).length
  let s1 := dropCmds (countDiscards { s with adminWaits := s.adminWaits.filter (fun w => w.1 ≠ id) } dropped) (fun q => q.conn = id)
  match c.assoc with
  | some a =>
    let s2 := setCtrl s1 f { c with aers := [], assoc := some { a with conn := none, lostAt := some s.now } }
    if a.kato = 0 then ctrlReset s2 f true false else s2
  | none => s1

/-- A connection is lost (R124): an I/O queue is deleted with its undispatched commands dropped; an admin connection is
handled under R125. The transport key slot of the connection is destroyed. -/
def connLost (s : State) (id : Nat) : State :=
  match connOf s id with
  | none => s
  | some c =>
    let s1 := endConn s id
    match c.fn with
    | none => s1
    | some f =>
      if c.qid = 0 then adminLost s1 f id
      else modCtrl (dropCmds s1 (fun q => q.conn = id)) f (fun k => { k with ioqs := mdel k.ioqs c.qid })

/-- Several connections are lost. -/
def connsLost (s : State) : List Nat → State
  | [] => s
  | id :: t => connsLost (connLost s id) t

/-- A connection is lost and the host is told why. -/
def connDrop (s : State) (id : Nat) (what : String) : State :=
  match connOf s id with
  | some c => connLost (tell s id c what []) id
  | none => s

/-- A TLS connection closes with close_notify and FIN (R139). -/
def tlsClose (s : State) (id : Nat) : State :=
  connDrop (raise (bump s .tte 0 F.TTE_TLS_END) .tte 0 F.TTE_INT_RAW_TLS_END) id "close_notify"

/-- The connections whose sending direction came to its last record in this step close. -/
def settleTls (s : State) : State :=
  (s.conns.filter (fun q => q.2.tls.any (·.ending))).foldl (fun t q => tlsClose t q.1) s

/-- A transport protocol error of a connection's tenant (R236 PROTO). -/
def protoError (s : State) (c : Conn) : State :=
  match c.fn with
  | some f => bumpTf s f F.TF_CONN_EVT_PROTO
  | none => s

end Sys2Proof.Machine
end

