-- ==== Sys2Proof/Machine/PowerOps.lean ====
section
/-! DEFINITION. Modes and wakes: what a wake source does in DOZE, in HOLD and during a mode entry, rails, the effect of a
wake on links, ports, lanes and pads (16_power_modes.md R590–R609; 03_ethernet_transport.md R141–R143). -/

namespace Sys2Proof.Machine

/-! ### Rails (R605, R606, R608) -/

/-- Nominal voltage of a monitored rail in mV (21_pins_and_electrical.md, supplies). -/
def railNominal (i : Nat) : Nat :=
  [800, 750, 750, 750, 750, 750, 800, 1800, 1100, 1200, 1200, 1200, 1200, 900, 1200, 900, 1800].getD i 0

/-- The order in which the part turns on the rails it controls; 0x100 + g is flash group g. -/
def railOrder : List Nat := [15, 1, 6, 7, 8, 13, 14, 2, 3, 4, 5, 0x100, 0x101, 0x102, 0x103]

/-- The rails that a wake from HOLD turns on: VDDQ_DDR stayed on (R590, R601). -/
def holdOrder : List Nat := railOrder.filter (· ≠ 8)

/-- The monitored rail of an item of the order: VCCQ_FLg for flash group g. -/
def railMon (i : Nat) : Nat := if 0x100 ≤ i then i - 0x100 + 9 else i

/-- A rail. -/
def railAt (s : State) (i : Nat) : Rail := mgetD s.pwr.rails i {}

/-- Replace a rail. -/
def setRail (s : State) (i : Nat) (r : Rail) : State := { s with pwr := { s.pwr with rails := mset s.pwr.rails i r } }

/-- A rail is good from now on, at its nominal voltage. -/
def railOn (s : State) (i : Nat) : State :=
  setRail s (railMon i) { railAt s (railMon i) with on := true, goodAt := some (s.now), mv := railNominal (railMon i) }

/-- A rail is off. -/
def railOff (s : State) (i : Nat) : State := setRail s (railMon i) { ({} : Rail) with minMv := (railAt s (railMon i)).minMv }

/-- Rails of a list come on. -/
def railsOn (s : State) (l : List Nat) : State := l.foldl railOn s

/-- Rails of a list go off, in the reverse of their order. -/
def railsOff (s : State) (l : List Nat) : State := l.reverse.foldl railOff s

/-! ### Mode and links -/

/-- MODE_STAT.MODE of a mode. -/
def Mode.code : Mode → Nat
  | .hold => 1
  | .doze => 2
  | .run => 3
  | .guard => 4
  | .service => 5
  | _ => 0

/-- The part is in a mode and MODE_STAT shows it. -/
def setMode (s : State) (m : Mode) : State := setF { s with mode := m } .pwr 0 F.PWR_MODE_STAT_MODE m.code

/-- The Nimbus links of the tiles in service are trained and up. -/
def linksUp (s : State) : State :=
  let ts := (List.range 4).filter (fun t => !s.oos.tiles.contains t)
  { s with nims := ts.foldl (fun m t => mset m t ({ state := .up } : NimLink)) s.nims }

/-- The Nimbus links are off. -/
def linksOff (s : State) : State :=
  { s with nims := s.nims.map (fun q => (q.1, if q.2.state = .failed then q.2 else ({} : NimLink))) }

/-- A port locks at the end of a start-up or a wake from HOLD, and its link comes up unless ENABLE is 0 (R103, R144). -/
def portUp (s : State) (p : Nat) : State :=
  let s1 := modEth s p (fun e => { e with amLock := true, serAt := none, holdUntil := none, serdesUntil := none })
  if getF s .eth p F.ETH_PORT_CTRL_ENABLE = 1 then
    raise (modEth s1 p (fun e => { e with linkUp := true })) .eth p F.ETH_INT_RAW_LINK_UP
  else s1

/-! ### Wakes (R596, R598–R603) -/

/-- A wake source of a mode (1 DOZE, 2 HOLD) that is enabled. Codes 2 and 3 are enabled where they arise. -/
def wakeSource (s : State) (target code : Nat) : Bool :=
  match code with
  | 1 => target = 1
  | 2 => target = 2
  | 3 => true
  | 4 => getF s .pwr 0 F.PWR_WAKE_EN_WAKE_N = 1
  | 5 => getF s .pwr 0 F.PWR_WAKE_EN_TIMER = 1
  | 6 => target = 1
  | _ => false

/-- What every wake does: the mode is RUN, REQ reads RUN, the wake is recorded. -/
def wakeCommon (s : State) (code : Nat) : State :=
  let s1 := setF (setF (setMode s .run) .pwr 0 F.PWR_MODE_STAT_LAST_WAKE code) .pwr 0 F.PWR_MODE_CTRL_REQ 0
  let s2 := setF (setF s1 .pwr 0 F.PWR_PAD_HOLD_DDR 0) .pwr 0 F.PWR_PAD_HOLD_FL 0
  raise (linksUp { s2 with pwr := { s2.pwr with lastCmd := s2.now, guardAt := s2.now } }) .pwr 0 F.PWR_INT_RAW_WAKE

/-- A lane whose warm bring-up outlasts step 4 of R601: its flash dies read bring-up. -/
def laneLate (s : State) (l : Nat) : State :=
  { s with lanes := mset s.lanes l { (mgetD s.lanes l ({} : Lane)) with trained := false },
           dies := s.dies.map (fun q => if q.1 / 32 = l && q.2.st = .idle then (q.1, { q.2 with st := .bringUp }) else q) }

/-- A wake from HOLD (R601): rails, ports, links and lanes come back; `late` names the lanes whose training is not done. -/
def holdWake (s : State) (code : Nat) (late : List Nat) : State :=
  let s1 := setF (wakeCommon (railsOn s holdOrder) code) .pwr 0 F.PWR_MODE_CTRL_PS 0
  late.foldl laneLate (portUp (portUp s1 0) 1)

/-- An entry is abandoned (R596): REQ reads RUN, and admission resumes. -/
def entryAbort (s : State) : State :=
  raise (bump (setF { s with pwr := { s.pwr with entry := none, lastCmd := s.now } } .pwr 0 F.PWR_MODE_CTRL_REQ 0)
    .pwr 0 F.PWR_COUNTS_ABORTS) .pwr 0 F.PWR_INT_RAW_ENTRY_ABORT

/-- A wake source occurs: it wakes the part from DOZE or HOLD, abandons an entry into a mode it would wake from, and has
no effect otherwise. -/
def wakeLate (late : List Nat) (code : Nat) (s : State) : State :=
  match s.mode with
  | .doze => if wakeSource s 1 code then wakeCommon s code else s
  | .hold => if wakeSource s 2 code then holdWake s code late else s
  | _ => match s.pwr.entry with
    | some t => if wakeSource s t code then entryAbort s else s
    | none => s

/-- A wake source with no lane late. -/
def wakeEvent (code : Nat) (s : State) : State := wakeLate [] code s

/-- A wake frame (R141, R142): its key matches the port's committed key, which is not 0, and FRAME_WAKE is set. -/
def wakeFrameOp (port key : Nat) (s : State) : State :=
  let k := (mgetD s.eth port {}).wakeKey
  if k ≠ 0 && k = key && getF s .eth port F.ETH_WAKE_CTRL_FRAME_WAKE = 1 then wakeEvent 3 s else s

end Sys2Proof.Machine
end

