-- ==== Sys2Proof/Machine/Operands.lean ====
section
/-! DEFINITION. The operand forms of commands: parameter blocks read from sparse bytes, the fields of command dwords,
structures returned to a host, and the admission gate that every admin command passes (R159, R161, R162, R211). -/

namespace Sys2Proof.Machine

/-! ### Parameter blocks (R211, R216, R267) -/

/-- A parameter block's bytes; unlisted bytes are 0. -/
abbrev Block := FMap Byte

/-- The little-endian field of `n` bytes at an offset. -/
def blkField (b : Block) (off n : Nat) : Nat := ofLe ((List.range n).map (fun i => (mgetD b (off + i) 0).toNat))

/-- The lowest offset from `lo` up to `hi` (excluded) whose byte is not 0. -/
def blkNonzero (b : Block) (lo hi : Nat) : Option Nat :=
  (b.find? (fun p => lo ≤ p.1 && p.1 < hi && p.2 ≠ 0)).map Prod.fst

/-! ### Structures returned to a host -/

/-- A structure of `n` bytes: the bytes the spec states, by offset, over content it leaves open (log 4). -/
def overlay (n key : Nat) (fields : List (Nat × Nat × Nat)) : List Nat :=
  let known : FMap Nat := fields.foldl (fun m f => msetList m f.1 (leBytes f.2.1 f.2.2)) []
  let base := Config.freeData key
  (List.range n).map (fun i => mgetD known i (base.getD i 0))

/-- A structure of `n` bytes of which the unnamed ones are 0. -/
def zeroOverlay (n : Nat) (fields : List (Nat × Nat × Nat)) : List Nat :=
  let known : FMap Nat := fields.foldl (fun m f => msetList m f.1 (leBytes f.2.1 f.2.2)) []
  (List.range n).map (fun i => mgetD known i 0)

/-! ### Log pages as Get Log Page asks for them (R159) -/

/-- Log page identifier, Log Specific Field, Retain Asynchronous Event, bytes asked for, Log Specific Identifier, offset. -/
def logLid (q : Capsule) : Nat := bitsOf q.dw10 7 0
def logLsp (q : Capsule) : Nat := bitsOf q.dw10 14 8
def logRae (q : Capsule) : Bool := bitsOf q.dw10 15 15 = 1
def logLen (q : Capsule) : Nat := (bitsOf q.dw10 31 16 + bitsOf q.dw11 15 0 * 65536 + 1) * 4
def logLsi (q : Capsule) : Nat := bitsOf q.dw11 31 16
def logOff (q : Capsule) : Nat := q.dw12 % 2 ^ 32 + q.dw13 % 2 ^ 32 * 2 ^ 32

/-- A page: its length, its fields, whether its other bytes are open (else 0), and what serving it does. -/
structure Page where
  len : Nat
  fields : List (Nat × Nat × Nat)
  isOpen : Bool
  after : State → State

/-- The bytes of a page in a range; those that no field gives are 0, or content the spec leaves open (log 4). -/
def pageBytes (p : Page) (key off len : Nat) : List Nat :=
  let m : FMap Nat := p.fields.foldl (fun m f => msetList m f.1 (leBytes f.2.1 f.2.2)) []
  (List.range (min len (p.len - off))).map (fun i =>
    mgetD m (off + i) (if p.isOpen then (Config.freeData key).getD (off + i) 0 else 0))

/-- A number in decimal, with at least so many digits. -/
def decimal : Nat → Nat → List Nat
  | 0, _ => []
  | n + 1, v => if v < 10 ∧ n = 0 then [48 + v] else decimal n (v / 10) ++ [48 + v % 10]

/-- A number in decimal without leading zeros. -/
def decimalOf (v : Nat) : List Nat :=
  match (decimal 10 v).dropWhile (· = 48) with
  | [] => [48]
  | l => l

/-- A text field of `n` bytes at an offset, filled up with a pad byte. -/
def textField (off n pad : Nat) (l : List Nat) : Nat × Nat × Nat := (off, n, ofLe ((l ++ List.replicate n pad).take n))

/-- The part's serial number as text: its bytes up to the first 0 (PRESUMED, log 163). -/
def serialText : List Nat := (leBytes 16 Config.serial).takeWhile (· ≠ 0)

/-- The subsystem NQN of a tenant (R203). -/
def subNqn (t : Nat) : List Nat := ascii "nqn.2023-01.com.kenbouc:zf-4064:" ++ serialText ++ ascii ":tf" ++ decimal 3 t

/-! ### Admission of admin commands (R159, R161, R162) -/

/-- The function whose admin queue a connection is: MF, a tenant, or the discovery controller 513. -/
def adminFn (s : State) (conn : Nat) : Option Nat :=
  match connOf s conn with
  | some c => if c.ready && c.qid = 0 then c.fn else none
  | none => none

/-- The tenant requires authentication that has not succeeded (R140). -/
def authMissing (s : State) (f : Nat) : Bool :=
  f < 512 && (tenant s f).par.flags / 2 % 2 = 1 &&
    !(match (ctrl s f).assoc with
      | some a => a.authDone
      | none => false)

/-- A tenant is quiesced: CFE admits only the commands of R162 for it (R220). -/
def isQuiesced (s : State) (f : Nat) : Bool :=
  f < 512 && (match (tenant s f).state with
    | .quiescing => true
    | .quiesced => true
    | .resetting => true
    | .removing => true
    | _ => false)

/-- The keep-alive timer of a controller restarts (R125, R127; log 22). -/
def touch (s : State) (f : Nat) : State :=
  modCtrl s f (fun c => { c with assoc := c.assoc.map (fun a => { a with kaAt := s.now }) })

/-- A command fails a check of R161. -/
def refuse (s : State) (c : Capsule) (st : Status) (dw0 : Nat) : State :=
  post (bump s .cfe 0 F.CFE_REFUSED) c.conn c.cid st dw0 0 []

/-- The part takes command capsules: one that arrives in DOZE wakes it first, one that arrives during DOZE entry
abandons the entry (R596, R598, R600). -/
def serveMode (s : State) : State := if s.mode = .doze || s.pwr.entry = some 1 then wakeEvent 1 s else s

/-- A command other than Keep Alive is admitted (R594). -/
def cmdSeen (s : State) : State := { s with pwr := { s.pwr with lastCmd := s.now } }

/-- The status of the last Firmware Commit (R711). -/
def fwResult (s : State) (st : Status) : State := setF s .fwp 0 F.FWP_RESULT_SC st.sc

/-- Step 3 of an activation, or its failure (R703). The hold of R188 ends; CFE.STAT.HOLDING still reads 1 until the
commands that waited are taken. -/
def fwEnd (s0 : State) (h : FwHold) : State :=
  let s := raise (setF { s0 with fwHold := none } .cfe 0 F.CFE_HOLD_LAST_US (ceilDiv (s0.now - h.since) 1000))
    .cfe 0 F.CFE_INT_RAW_HOLD_END
  let st := if h.ok then stOk else stInvalidImage
  let s1 := if h.ok then
      let a := setF (setF s .fwp 0 F.FWP_SLOT_STAT_RUNNING h.slot) .fwp 0 F.FWP_SLOT_STAT_NEXT h.slot
      let b := setF (setF a .fwp 0 F.FWP_SLOT_STAT_TRIAL 0) .fwp 0 F.FWP_SVN_RUNNING h.svn
      { raise b .fwp 0 F.FWP_INT_RAW_ACTIVATED with code := h.image }
    else s
  let s2 := fwResult s1 st
  if (connOf s2 h.conn).isSome then postSt s2 h.conn h.cid st else s2

/-! ### Capsules and their turn (R129, R132, R133, R188, R189) -/

/-- A capsule's PDU holds up (R129, R132, R133): a bad header digest or more than 8,192 bytes of in-capsule data ends the
connection, and a bad data digest completes the command with Transient Transport Error. -/
def capsuleIn (q : Capsule) (run : State → State) (s : State) : State :=
  match connOf s q.conn with
  | none => s
  | some c =>
    if (!c.rdma && c.hdgst && !q.hdgstOk) || 8192 < q.icd then connDrop (protoError s c) q.conn "end"
    else if !c.rdma && c.ddgst && !q.ddgstOk then postSt (protoError s c) q.conn q.cid stTransientTransport
    else run s

/-- An admin command of a controller is outstanding: one that completes later. -/
def adminBusy (s : State) (f : Nat) : Bool :=
  s.adminWaits.any (fun w => adminFn s w.1 = some f) ||
    s.tenants.any (fun t => t.2.cmd.any (fun c => adminFn s c.1 = some f))

/-- The commands that wait for their turn at a controller, oldest first. -/
def heldOf (s : State) (f : Nat) : List (Nat × Nat × Instr) := s.held.filter (fun h => adminFn s h.1 = some f)

/-- A command is next at its queue: the admission of every function is not held (R188), and unless it is served as it
arrives no command of its controller is outstanding or waits before it (R189). -/
def itsTurn (s : State) (q : Capsule) (atOnce : Bool) : Bool :=
  s.fwHold.isNone && (atOnce || (match adminFn s q.conn with
    | some f => !adminBusy s f && (match heldOf s f with
      | h :: _ => h.1 = q.conn && h.2.1 = q.cid
      | [] => true)
    | none => true))

/-- Admin commands of one controller execute one at a time in submission order, and none is admitted during an activation:
one whose turn it is not waits (R188, R189). A command that waited leaves its place when it runs. -/
def inTurn (q : Capsule) (i : Instr) (atOnce : Bool) (run : State → State) (s : State) : State :=
  capsuleIn q (fun s =>
    if itsTurn s q atOnce then run { s with held := s.held.filter (fun h => !(h.1 = q.conn && h.2.1 = q.cid)) }
    else if s.held.any (fun h => h.1 = q.conn && h.2.1 = q.cid) then s
    else { s with held := s.held ++ [(q.conn, q.cid, i)] }) s

/-- The first command waiting whose turn has come. -/
def nextHeld (s : State) : Option Instr :=
  if s.fwHold.isSome then none
  else (s.held.find? (fun h => match adminFn s h.1 with
    | some f => !adminBusy s f
    | none => true)).map (·.2.2)

/-! ### The admission of admin commands -/

/-- Which functions accept an admin command (check 1, R123, R159), whether it is among those of R162, needs no
authentication (R140) or is Keep Alive, and the bits of command dwords 10 to 15 that its description names; a dword that
is not listed is not looked at. -/
structure Accept where
  mf : Bool := true
  tf : Bool := true
  disc : Bool := false
  quiet : Bool := false
  noAuth : Bool := false
  keepAlive : Bool := false
  masks : List Nat := []

/-- What an admin command comes to: a check refuses it, with dword 0 and what the refusal does besides, or it executes. -/
inductive Verdict
  | no (st : Status) (dw0 : Nat) (side : State → State)
  | yes (s : State)

/-- A check fails. -/
def no (st : Status) : Verdict := .no st 0 id

/-- A refusal of R207. -/
def no207 (dw0 : Nat) : Verdict := .no stInvalidField dw0 id

/-- The lowest-numbered command dword with a bit set that its description does not name. -/
def badDword (q : Capsule) (masks : List Nat) : Option Nat :=
  (([q.dw10, q.dw11, q.dw12, q.dw13, q.dw14, q.dw15].zip masks).zip (List.range 6)).findSome?
    (fun p => if p.1.1 - (p.1.1 &&& p.1.2) ≠ 0 then some (10 + p.2) else none)

/-- The part takes admin commands of a function. Keep Alive is the only one taken while the controller resets (R185) or a
mode entry is under way (R595); nothing is once the power-loss sequence has begun (R355). -/
def takesAdmin (s : State) (f : Nat) (keepAlive : Bool) : Bool :=
  (s.mode = .run || s.mode = .guard || (s.mode = .service && 512 ≤ f)) && s.plRun.isNone &&
    (keepAlive || (s.pwr.entry.isNone && !(ctrl s f).resetting))

/-- A function accepts the command (check 1). -/
def Accept.has (a : Accept) (f : Nat) : Bool := if f = fnMF then a.mf else if f < 512 then a.tf else a.disc

/-- The checks of R161 that every admin command passes before its own, in their order: its opcode, its reserved bits, its
authentication (R140), its SGL (R129). -/
def adminCheck (q : Capsule) (a : Accept) (f : Nat) (s : State) : Option Status :=
  if q.unknown || !a.has f then some stInvalidOpcode
  else if q.reserved || (badDword q a.masks).isSome then some stInvalidField
  else if authMissing s f && !a.noAuth then some stAuthRequired
  else if 1 < q.keyed then some stSglType
  else none

/-- The admission and execution of an admin command (R161, R162, R193): `run` makes its own checks and executes it, in the
state that has admitted it. -/
def admin (q : Capsule) (a : Accept) (run : Nat → State → Verdict) (s0 : State) : State :=
  let s := serveMode s0
  match adminFn s q.conn with
  | none => s
  | some f =>
    if !takesAdmin s f a.keepAlive then s
    else
      let s1 := touch s f
      match adminCheck q a f s1 with
      | some st => refuse s1 q st 0
      | none =>
        match run f (bump (if a.keepAlive then s1 else cmdSeen s1) .cfe 0 F.CFE_ADMITTED) with
        | .no st dw0 side => refuse (side s1) q st dw0
        | .yes t => if isQuiesced s1 f && !a.quiet then refuse s1 q stTenantQuiesced 0 else t

/-- MF alone accepts the command. -/
def mfOnly (masks : List Nat) : Accept := { tf := false, masks := masks }

end Sys2Proof.Machine
end

