-- ==== Sys2Proof/Machine/MediaOps.lean ====
section
/-! DEFINITION. Where data lies and what is known of it: geometry and addresses, namespaces and zones, die sets and
bands, the journal, staging, placement into data slots, programming, and the map (06_zones_and_placement.md,
07_translation_and_wear.md, 08_map_durability.md). -/

namespace Sys2Proof.Machine

/-! ### Geometry and addresses (R263, R289, R378) -/

/-- Tile of a flash die. -/
def tileOfDie (d : Nat) : Nat := d / 512

/-- Word lines per block, blocks per plane, and PAIR_WL, as TILn.GEOM1 and GEOM2 report them for the die's tile. -/
def wlOf (s : State) (d : Nat) : Nat := getF s .til (tileOfDie d) F.TIL_GEOM1_WL
def blocksOf (s : State) (d : Nat) : Nat := min 8191 (getF s .til (tileOfDie d) F.TIL_GEOM1_BLOCKS)
def pairWl (s : State) (d : Nat) : Nat := max 1 (getF s .til (tileOfDie d) F.TIL_GEOM2_PAIR_WL)

/-- The model record of a flash die (R369, R397). -/
def modelOf (s : State) (d : Nat) : Option ModelRec := s.models[getF s .til (tileOfDie d) F.TIL_GEOM2_MODEL]?

/-- The parameter page recorded of a flash die (R377). -/
def paramOf (s : State) (d : Nat) : Option ParamPage := (mget s.dieRecs d).bind (·.page)

/-- A PUA from its fields: die index, plane, block, page (R289). -/
def mkPua (die plane blk page : Nat) : Nat := die * 2 ^ 26 + plane * 2 ^ 24 + blk * 2 ^ 11 + page

/-- Fields of a PUA. -/
def puaDie (p : Nat) : Nat := p / 2 ^ 26
def puaPlane (p : Nat) : Nat := bitsOf p 25 24
def puaBlk (p : Nat) : Nat := bitsOf p 23 11
def puaPage (p : Nat) : Nat := bitsOf p 10 0

/-- Key of a block's records. -/
def blkKey (die blk : Nat) : Nat := die * 8192 + blk

/-- A block's records; a block never used is free with no erase. -/
def blkOf (s : State) (die blk : Nat) : Blk := mgetD s.blks (blkKey die blk) {}

/-- Change a block's records. -/
def modBlk (s : State) (die blk : Nat) (f : Blk → Blk) : State :=
  { s with blks := mput s.blks (blkKey die blk) {} (f (blkOf s die blk)) }

/-- A flash die is out of service, itself or with its lane or tile (R668). -/
def dieOut (s : State) (d : Nat) : Bool :=
  s.oos.dies.contains d || s.oos.lanes.contains (d / 32) || s.oos.tiles.contains (tileOfDie d)

/-! ### Namespaces and zones -/

/-- A namespace by key slot. -/
def nsAt (s : State) (k : Nat) : Option Ns := mget s.nss k

/-- Change a namespace. -/
def modNs (s : State) (k : Nat) (f : Ns → Ns) : State := { s with nss := mmod s.nss k f }

/-- The key slot of a tenant's namespace. -/
def nsSlot (s : State) (t nsid : Nat) : Option Nat :=
  (s.nss.find? (fun q => q.2.tenant = t && q.2.nsid = nsid)).map Prod.fst

/-- Zone size in sectors (R239). -/
def zoneSize (n : Ns) : Nat := zoneSectors n.zsize

/-- Number of zones. -/
def zoneCount (n : Ns) : Nat := n.capacity / zoneSize n

/-- A zone; one nothing has changed is Empty with epoch 0. -/
def zoneOf (n : Ns) (z : Nat) : Zone := mgetD n.zones z {}

/-- Replace a zone. -/
def setZone (s : State) (k z : Nat) (x : Zone) : State := modNs s k (fun n => { n with zones := mput n.zones z {} x })

/-- Open and active zone states. -/
def ZState.isOpen : ZState → Bool
  | .implicit => true
  | .explicit => true
  | _ => false
def ZState.isActive : ZState → Bool
  | .closed => true
  | x => x.isOpen

/-- Open and active zones a tenant holds (R251). -/
def openUsed (s : State) (t : Nat) : Nat :=
  ((s.nss.filter (fun q => q.2.tenant = t)).map (fun q => (q.2.zones.filter (fun z => z.2.state.isOpen)).length)).sum
def activeUsed (s : State) (t : Nat) : Nat :=
  ((s.nss.filter (fun q => q.2.tenant = t)).map (fun q => (q.2.zones.filter (fun z => z.2.state.isActive)).length)).sum

/-! ### Counters that never repeat (R352) -/

/-- Advance a counter by `n`; when it reaches its mark less 2^19 it asks for the next mark. -/
def Counter.take (c : Counter) (n : Nat) : Counter :=
  let nx := c.next + n
  { c with next := nx, wanted := if c.mark ≤ nx + 524288 ∧ c.wanted = none then some (c.mark + 1048576) else c.wanted }

/-- The counter may assign `n` values below its mark. -/
def Counter.room (c : Counter) (n : Nat) : Bool := decide (c.next + n ≤ c.mark)

/-! ### The journal (R334–R341) -/

/-- The number the next staged record takes. -/
def jCount (s : State) : Nat := s.jr.head + s.jr.flushing.length + s.jr.staged.length

/-- Begin a flush of everything staged, unless one is under way. -/
def jFlush (s : State) : State :=
  if s.jr.flushing = [] ∧ s.jr.staged ≠ [] then
    bump { s with jr := { s.jr with flushing := s.jr.staged, staged := [], oldest := none } } .mrj 0 F.MRJ_FLUSHES_COUNT
  else s

/-- Flush when 256 records are staged (R338). -/
def jFull (s : State) : State := if 256 ≤ s.jr.staged.length then jFlush s else s

/-- Stage records together, clearing the clean mark (R338, R364). -/
def jStage (s : State) (l : List JRec) : State :=
  jFull { s with jr := { s.jr with
    staged := s.jr.staged ++ l, oldest := some (s.jr.oldest.getD s.now), cleanMark := false } }

/-- The EXTENT record that joins two, when the second continues the first in the same band (R337). -/
def joinExtent : JRec → JRec → Option JRec
  | .extent n f c b sl r sub 0 cv, .extent n' f' c' b' sl' r' sub' t' cv' =>
    if n = n' ∧ b = b' ∧ r = r' ∧ cv = cv' ∧ f' = f + c ∧ c + c' ≤ 255 ∧
        (if cv then sl' * 4 + sub' = sl * 4 + sub + c else sl' = sl + c) then
      some (.extent n f (c + c') b sl r sub t' cv)
    else none
  | _, _ => none

/-- Stage an EXTENT record, joining it to the last staged record where that continues. -/
def jExtent (s : State) (e : JRec) : State :=
  match s.jr.staged.getLast? with
  | some l =>
    match joinExtent l e with
    | some j => { s with jr := { s.jr with staged := s.jr.staged.dropLast ++ [j] } }
    | none => jStage s [e]
  | none => jStage s [e]

/-- Occupancy of the ring in percent has reached HOLD_PCT, so changes wait (R341, R363). -/
def ringHeld (s : State) : Bool :=
  let ck := min 100 (getF s .mrj 0 F.MRJ_RING_CTRL_CKPT_PCT)
  let hp := max ck (min 100 (getF s .mrj 0 F.MRJ_RING_CTRL_HOLD_PCT))
  decide (hp * ringSize ≤ (jCount s - s.jr.tail) * 100)

/-- A change waits for the ring: MRJ counts it (R341). -/
def ringWaits (s : State) : State := raise (bump s .mrj 0 F.MRJ_HOLDS_RING) .mrj 0 F.MRJ_INT_RAW_RING_HOLD

/-- An assignment waits for a counter's mark: MRJ counts it (R352). -/
def markWaits (s : State) : State := raise (bump s .mrj 0 F.MRJ_MARK_WAITS_COUNT) .mrj 0 F.MRJ_INT_RAW_MARK_WAIT

/-! ### Die sets (R264–R281, R309–R315, R323) -/

/-- A die set. -/
def dsAt (s : State) (d : Nat) : Option DieSet := mget s.diesets d

/-- The die set of a flash die. -/
def dsOfDie (s : State) (d : Nat) : Option (Nat × DieSet) := s.diesets.find? (fun q => q.2.members.contains d)

/-- Change a die set. -/
def modDs (s : State) (d : Nat) (f : DieSet → DieSet) : State := { s with diesets := mmod s.diesets d f }

/-- Bits per cell of a mode (R267). -/
def modeBits (mode : Nat) : Nat := if mode = 1 then 3 else 4

/-- N of a parity setting of 1 in N, 0 for none (R216). -/
def parityN (p : Nat) : Nat :=
  match p with
  | 1 => 8
  | 2 => 16
  | 3 => 32
  | _ => 0

/-- Active members, with their member numbers (R270). -/
def activeMembers (s : State) (d : DieSet) : List (Nat × Nat) :=
  ((List.range d.members.length).zip d.members).filter (fun m => !dieOut s m.2)

/-- Parity groups of D active members (R273). -/
def groupsOf (parity dCount : Nat) : Nat := if parityN parity = 0 then 0 else ceilDiv dCount (parityN parity)

/-- Pages per plane of a member in the die set's mode: WL × B (R378). -/
def dsPages (s : State) (d : DieSet) : Nat := wlOf s (d.members.headD 0) * modeBits d.mode

/-- Data sectors of one band, P × (D − G) × 16 (R281). -/
def bandSectors (s : State) (d : DieSet) : Nat :=
  let n := (activeMembers s d).length
  dsPages s d * (n - groupsOf d.parity n) * 16

/-- Logical capacity in sectors (R281). -/
def dsLogical (s : State) (d : DieSet) : Nat := d.bandBlocks * bandSectors s d * (100 - d.opPct) / 100

/-- Capacity allotted to the die set's namespaces. -/
def dsAllotted (s : State) (d : Nat) : Nat := ((s.nss.filter (fun q => q.2.dieSet = d)).map (fun q => q.2.capacity)).sum

/-- Free blocks of a member outside its reserves: erased or queued for erase, good, less its spare pool (R305, R309). -/
def freeBlocks (s : State) (d : DieSet) (m : Nat) : Nat :=
  let die := d.members.getD m 0
  ((List.range (blocksOf s die)).filter (fun b =>
    let k := blkOf s die b
    (k.state = .free || k.state = .queued) && !k.bad)).length - d.spare.getD m 0

/-- The smallest of a list, 0 of the empty one. -/
def minOf (l : List Nat) : Nat :=
  match l with
  | [] => 0
  | h :: t => t.foldl min h

/-- Free bands (R313). -/
def freeBands (s : State) (d : DieSet) : Nat :=
  minOf ((activeMembers s d).map (fun m => freeBlocks s d m.1)) - getF s .mape 0 F.MAPE_GC_CTRL_RELOC_RES

/-- A die set's relocation is urgent (R314, R446). -/
def dsUrgent (s : State) (d : DieSet) : Bool :=
  decide (freeBands s d ≤ min (getF s .mape 0 F.MAPE_GC_CTRL_START) (getF s .mape 0 F.MAPE_GC_CTRL_URGENT))

/-- Places that reads in flight took their lookups into: those of climbs, and those of Reads not yet completed (R303). -/
def readsInto (s : State) : List Nat :=
  s.climbs.map (fun q => q.2.pua) ++ ((s.cmds.filter (fun q => q.2.phase = .dispatched)).map (fun q =>
    q.2.places.filterMap (fun p => match p.2 with
      | .flash pua _ => some pua
      | _ => none))).flatten

/-- A read into a block, or into another block of the released band it lay in, is still in flight: MAPE counts reads per
band (R303). -/
def blkRead (s : State) (die blk : Nat) : Bool :=
  let h := (blkOf s die blk).relBand
  (readsInto s).any (fun p => (puaDie p = die && puaBlk p = blk) ||
    (h ≠ 0 && (blkOf s (puaDie p) (puaBlk p)).relBand = h))

/-- The least worn of some blocks of a die: the lowest erase count, ties to the lowest number. -/
def leastOf (s : State) (die : Nat) (l : List Nat) : Option Nat :=
  l.foldl (fun best b => match best with
    | none => some b
    | some a => if (blkOf s die b).erases < (blkOf s die a).erases then some b else some a) none

/-- The free block of lowest erase count of a die, erased or queued for erase (R305). -/
def leastWorn (s : State) (die : Nat) : Option Nat :=
  leastOf s die ((List.range (blocksOf s die)).filter (fun b =>
    let k := blkOf s die b
    (k.state = .free || k.state = .queued) && !k.bad))

/-! ### Bands (R272–R276) -/

/-- A band. -/
def bandAt (s : State) (h : Nat) : Option Band := mget s.bands h

/-- Change a band. -/
def modBand (s : State) (h : Nat) (f : Band → Band) : State := { s with bands := mmod s.bands h f }

/-- Members, data members per row, and data slots per row. -/
def Band.size (b : Band) : Nat := b.members.length
def Band.dataW (b : Band) : Nat := b.size - b.groups
def Band.per (b : Band) : Nat := 4 * b.bits * b.dataW

/-- First position and size of parity group `g`: sizes differ by at most 1, the larger groups first (R273). -/
def Band.groupStart (b : Band) (g : Nat) : Nat := g * (b.size / b.groups) + min g (b.size % b.groups)
def Band.groupSize (b : Band) (g : Nat) : Nat := b.size / b.groups + (if g < b.size % b.groups then 1 else 0)

/-- Position of the parity of group `g` in row `r`: (r + g) mod S_g within the group (R274). -/
def Band.parityPos (b : Band) (r g : Nat) : Nat := b.groupStart g + (r + g) % b.groupSize g

/-- The parity positions of a row. -/
def Band.parities (b : Band) (r : Nat) : List Nat := (List.range b.groups).map (b.parityPos r)

/-- The data positions of a row, in member order. -/
def Band.dataPos (b : Band) (r : Nat) : List Nat := (List.range b.size).filter (fun p => !(b.parities r).contains p)

/-- The group of a position. -/
def Band.groupOf (b : Band) (p : Nat) : Nat :=
  ((List.range b.groups).find? (fun g => decide (b.groupStart g ≤ p ∧ p < b.groupStart g + b.groupSize g))).getD 0

/-- Row, position and page index j of a data slot (R275). -/
def Band.place (b : Band) (slot : Nat) : Nat × Nat × Nat :=
  let r := slot / b.per
  let k := slot % b.per
  (r, (b.dataPos r).getD (k % b.dataW) 0, k / b.dataW)

/-- The data slot of page j of a data position in a row. -/
def Band.slotOf (b : Band) (r pos j : Nat) : Nat := r * b.per + j * b.dataW + ((b.dataPos r).idxOf pos)

/-- Die and block of a position. -/
def Band.die (b : Band) (pos : Nat) : Nat := (b.members.getD pos (0, 0, 0)).2.1
def Band.blk (b : Band) (pos : Nat) : Nat := (b.members.getD pos (0, 0, 0)).2.2

/-- PUA of page j of a position's program unit in a row: plane j mod 4, page B × r + j div 4 (R275). -/
def Band.puaOf (b : Band) (r pos j : Nat) : Nat := mkPua (b.die pos) (j % 4) (b.blk pos) (b.bits * r + j / 4)

/-- PUA of a data slot. -/
def Band.slotPua (b : Band) (slot : Nat) : Nat := let p := b.place slot; b.puaOf p.1 p.2.1 p.2.2

/-- Code of a program unit in `sent` and `done`. -/
def unitCode (r pos : Nat) : Nat := r * 64 + pos

/-- The next slot that nothing uses, from the band's next slot on. -/
def Band.freeSlot (b : Band) : Nat :=
  (((List.range (b.slots.length + 1)).map (b.next + ·)).find? (fun k => (mget b.slots k).isNone)).getD b.next

/-- The band of a block, if any. -/
def bandOfBlk (s : State) (die blk : Nat) : Option Nat :=
  (s.bands.find? (fun q => q.2.members.any (fun m => m.2.1 = die && m.2.2 = blk))).map Prod.fst

/-- The open band of a stream (R279). -/
def openBandOf (s : State) (d stream : Nat) : Option Nat :=
  (s.bands.find? (fun q => q.2.dieSet = d && q.2.stream = stream && !q.2.closed)).map Prod.fst

/-- The band handle that a record names. -/
def JRec.band? : JRec → Option Nat
  | .extent _ _ _ b _ _ _ _ _ => some b
  | .bandOpen b _ _ _ _ _ => some b
  | .bandBlock b _ _ _ => some b
  | .bandClose b _ _ => some b
  | .release b => some b
  | .settled b => some b
  | _ => none

/-- A handle is free: no band holds it, and no record from the tail on names it (R354). -/
def handleFree (s : State) (h : Nat) : Bool :=
  (mget s.bands h).isNone && !(s.jr.ring.any (fun q => q.2.band? = some h)) &&
    !((s.jr.flushing ++ s.jr.staged).any (fun r => r.band? = some h))

/-- The next band handle: 1 to 0xFFFF_FFFE, those in use passed over (R354). -/
def nextHandle (s : State) : Nat × Counter :=
  let n := (((List.range (s.bands.length + s.jr.ring.length + s.jr.flushing.length + s.jr.staged.length + 1)).map (s.bandCtr.next + ·)).find?
    (fun v => handleFree s ((v - 1) % 0xFFFFFFFE + 1))).getD s.bandCtr.next
  ((n - 1) % 0xFFFFFFFE + 1, s.bandCtr.take (n + 1 - s.bandCtr.next))

/-- Targets of the three classes in ns (R454): 0 BULK, 1 STANDARD, 2 STRICT. -/
def clsTarget (s : State) (cls : Nat) : Nat :=
  (match cls with
  | 0 => max 1 (getF s .qeng 0 F.QENG_TGT1_BULK_US)
  | 1 => max 1 (getF s .qeng 0 F.QENG_TGT0_STANDARD_US)
  | _ => max 1 (getF s .qeng 0 F.QENG_TGT0_STRICT_US)) * 1000

/-- A block of a band that must be erased before its first program is erased once its release is in the ring and no read
into its old band is in flight, at the class of relocation (R303, R305, R314, R339). -/
def askErase (s : State) (die blk : Nat) : State :=
  let k := blkOf s die blk
  let cls := ((dsOfDie s die).any (fun q => dsUrgent s q.2)).toNat
  if k.dirty && !k.asked && k.waitRec ≤ s.jr.head && !blkRead s die blk && (s.plRun.isSome || !ringHeld s) then
    { modBlk s die blk (fun x => { x with asked := true }) with feeds := s.feeds ++ [
      { kind := .erase, die := die, pua := mkPua die 0 blk 0, owner := .erase die blk, cls := cls,
        deadline := 0, bg := true }] }
  else s

/-- The erases that bands wait for. -/
def askErases (s : State) : State :=
  (s.bands.filter (fun q => !q.2.closed || !q.2.slots.isEmpty)).foldl (fun s q => q.2.members.foldl (fun s m => askErase s m.2.1 m.2.2) s) s

/-- A member's block is taken for a band: a block queued for erase is erased before its first program (R305). -/
def takeBlock (s : State) (die blk : Nat) : State :=
  askErase (modBlk s die blk (fun x => { x with state := .open, dirty := x.state = .queued || x.dirty })) die blk

/-- A new band takes the least worn free block of each active member, and its opening records are staged (R272, R305,
R336). -/
def openBand (s : State) (d : Nat) (ds : DieSet) (stream : Nat) : State :=
  let act := activeMembers s ds
  let hc := nextHandle s
  let mem := act.filterMap (fun m => (leastWorn s m.2).map (fun b => (m.1, m.2, b)))
  let g := groupsOf ds.parity mem.length
  let s1 := mem.foldl (fun s m => takeBlock s m.2.1 m.2.2) { s with bandCtr := hc.2 }
  let s2 := jStage s1 (.bandOpen hc.1 d stream mem.length g s.pos
    :: mem.map (fun m => .bandBlock hc.1 m.1 m.2.1 m.2.2))
  let b : Band := { dieSet := d, stream := stream, bits := modeBits ds.mode, rows := wlOf s (ds.members.headD 0),
                    groups := g, members := mem, openRec := jCount s2 }
  { s2 with bands := mset s2.bands hc.1 b }

/-- A stream may open a band: a host stream needs a free band (R315), a relocation stream a free block outside the spare
pool on each member (R305, R314); the band handle has room under its mark, and the ring is not held (R341). -/
def canOpen (s : State) (ds : DieSet) (stream : Nat) : Bool :=
  s.bandCtr.room 1 && !(activeMembers s ds).isEmpty && (s.plRun.isSome || !ringHeld s) &&
    (if stream < 28 then decide (0 < freeBands s ds)
     else decide (0 < minOf ((activeMembers s ds).map (fun m => freeBlocks s ds m.1))))

/-- Close a band: it takes no further data (R336, R358). -/
def closeBand (s : State) (h : Nat) : State :=
  match bandAt s h with
  | some b =>
    if b.closed then s
    else
      let s1 := modBand s h (fun b => { b with closed := true, closedAt := s.pos })
      let s2 := b.members.foldl (fun s m =>
        modBlk s m.2.1 m.2.2 (fun x => { x with state := .closed, closedAt := s.pos })) s1
      jStage s2 [.bandClose h b.next s.pos]
  | none => s

/-- The open band of a stream with a slot left, opening one when needed and possible. -/
def ensureBand (s : State) (d stream : Nat) : State × Option Nat :=
  let openNew (s : State) : State × Option Nat :=
    match dsAt s d with
    | some ds => if canOpen s ds stream then let s1 := openBand s d ds stream; (s1, openBandOf s1 d stream) else (s, none)
    | none => (s, none)
  match openBandOf s d stream with
  | some h =>
    match bandAt s h with
    | some b => if b.freeSlot < b.rows * b.per then (s, some h) else openNew (closeBand s h)
    | none => (s, none)
  | none => openNew s

/-! ### Staging and the map (R261, R291–R301) -/

/-- A staged unit. -/
def stAt (s : State) (u : Nat) : Option StUnit := mget s.staged u

/-- The staged unit that holds the data slot of a PUA (R301). -/
def stagedAtPua (s : State) (pua : Nat) : Option (Nat × StUnit) :=
  s.staged.find? (fun q => match q.2.slot with
    | some (h, sl) => (match bandAt s h with
      | some b => b.slotPua sl = pua
      | none => false)
    | none => false)

/-- The codeword at a PUA and SUB, from the staged copy or from flash. -/
def codewordAt (s : State) (pua sub : Nat) : Option Sector :=
  match stagedAtPua s pua with
  | some (_, u) => (u.cws.getD sub none).map (·.sec)
  | none => match mget s.flash pua with
    | some cws => (match cws.getD sub .garbled with
      | .data x => some x
      | _ => none)
    | none => none

/-- Entry index of a sector (R293). -/
def entIdx (n : Ns) (lsa : Nat) : Nat := if n.zoned then lsa / 4 else lsa

/-- The map entry of a sector. -/
def entOf (n : Ns) (lsa : Nat) : Option MapEnt := mget n.map (entIdx n lsa)

/-- The segments that hold entries `i` to `i + c − 1` of a conventional map are dirty from now on (R345). -/
def Ns.soil (n : Ns) (rec i c : Nat) : Ns :=
  if n.zoned then n
  else { n with dirty := (List.range ((i + c - 1) / segEntries + 1 - i / segEntries)).foldl (fun m g =>
    let g := i / segEntries + g
    if (mget m g).isSome then m else mset m g rec) n.dirty }

/-- Set or clear one map entry, as one atomic update through MCC (R300, R573). -/
def setEnt (s : State) (k i : Nat) (e : Option MapEnt) : State :=
  modNs (mapAccess k i true s) k (fun n => { n.soil (jCount s) i 1 with map := match e with
    | some x => mset n.map i x
    | none => mdel n.map i })

/-! The written-unit log of a migration (R505, R506). -/

/-- A tenant's migration. -/
def migOf (s : State) (t : Nat) : Mig := mgetD s.migs t {}

/-- Change a tenant's migration. -/
def modMig (s : State) (t : Nat) (f : Mig → Mig) : State := { s with migs := mput s.migs t {} (f (migOf s t)) }

/-- A namespace is one of those that its tenant's migration names (NSMASK bit i selects NSID i + 1). -/
def Mig.names (m : Mig) (nsid : Nat) : Bool := m.mask / 2 ^ (nsid - 1) % 2 = 1

/-- Set one bit. -/
def MigBits.set (b : MigBits) (u : Nat) : MigBits :=
  if b.full || b.units.contains u then b else { b with units := u :: b.units }

/-- A log is kept for the tenant: it is the source of a move that has not been handed off. -/
def Mig.logs (m : Mig) : Bool := m.state = .copying || m.state = .frozen

/-- Unit `u` of a namespace changed: its bit is set where the namespace is migrating. -/
def migTouch (s : State) (k u : Nat) : State :=
  match nsAt s k with
  | some n =>
    if (migOf s n.tenant).logs && (migOf s n.tenant).names n.nsid then
      modMig s n.tenant (fun m =>
        { m with live := { m.live with bits := mset m.live.bits n.nsid ((mgetD m.live.bits n.nsid {}).set u) } })
    else s
  | none => s

/-- Several units of a namespace changed. -/
def migTouchRange (s : State) (k u n : Nat) : State := (List.range n).foldl (fun s i => migTouch s k (u + i)) s

/-- A zone of a namespace changed state: one ring entry, dropped with OVF set when the ring holds 65,536. -/
def migZone (s : State) (k event z epoch : Nat) : State :=
  match nsAt s k with
  | some n =>
    if (migOf s n.tenant).logs && (migOf s n.tenant).names n.nsid then
      modMig s n.tenant (fun m =>
        if m.live.ring.length < 65536 then
          { m with live := { m.live with ring := m.live.ring ++ [⟨n.nsid, event, z, epoch⟩] } }
        else { m with live := { m.live with ovf := true } })
    else s
  | none => s

/-- The newest staged sector with no slot yet that holds a logical sector (R261, R301). -/
def slotlessSector (s : State) (k lsa : Nat) : Option Sector :=
  s.staged.foldl (fun best q =>
    if q.2.slot.isNone && !q.2.reloc && q.2.nsk = k then
      q.2.cws.foldl (fun best c => match c with
        | some x => if x.sec.lsa = lsa && (match best with | some (y : Sector) => y.wseq ≤ x.sec.wseq | none => true)
            then some x.sec else best
        | none => best) best
    else best) none

/-- Write sequence of the data a conventional entry points at, 0 when it points at none. -/
def entWseq (s : State) (n : Ns) (lsa : Nat) : Nat :=
  match entOf n lsa with
  | some (.at pua sub) => (match codewordAt s pua sub with
    | some x => x.wseq
    | none => 0)
  | _ => 0

/-- The map takes the new place of one codeword of a host unit (R301, R167). -/
def mapCodeword (s : State) (u : StUnit) (pua sub : Nat) (x : Sector) : State :=
  match nsAt s u.nsk with
  | some n =>
    if n.zoned then setEnt (migTouch s u.nsk (x.lsa / 4)) u.nsk (x.lsa / 4) (some (.at pua 0))
    else if entWseq s n x.lsa ≤ x.wseq then setEnt (migTouch s u.nsk (x.lsa / 4)) u.nsk x.lsa (some (.at pua sub))
    else s
  | none => s

/-- Codewords of a unit with their places. -/
def StUnit.secs (u : StUnit) : List (Nat × StSec) :=
  ((List.range 4).zip u.cws).filterMap (fun p => p.2.map (fun x => (p.1, x)))

/-- TAIL of a zoned unit: the sectors written in it, 0b00 meaning 4 (R337). -/
def StUnit.tail (u : StUnit) : Nat := if u.zoned then u.secs.length % 4 else 0

/-- The EXTENT records of a unit at a slot: one for a zoned unit, one per codeword of a conventional page (R337). -/
def extentOf (u : StUnit) (h slot : Nat) : List JRec :=
  if u.zoned then [.extent u.nsk u.unit 1 h slot u.reloc 0 u.tail false]
  else u.secs.map (fun p => .extent p.2.sec.nsk p.2.sec.lsa 1 h slot u.reloc p.1 0 true)

/-! ### Programs (R275, R276, R346, R437) -/

/-- Program deadline in ns (R454). -/
def progDl (s : State) : Nat := max 1 (getF s .qeng 0 F.QENG_TGT1_PROG_DL_MS) * 1000000

/-- Something feeds an operation to Cirrus (R436). -/
def feed (s : State) (op : FlashOp) : State := { s with feeds := s.feeds ++ [op] }

/-- The staged units of a program unit. -/
def unitIds (b : Band) (r pos : Nat) : List Nat :=
  (List.range (4 * b.bits)).filterMap (fun j => match mget b.slots (b.slotOf r pos j) with
    | some (.unit u) => some u
    | _ => none)

/-- Highest effective class of the sectors of a program unit (R433). -/
def unitClass (s : State) (b : Band) (r pos : Nat) : Nat :=
  (unitIds b r pos).foldl (fun c u => match stAt s u with
    | some x => x.secs.foldl (fun c p => max c p.2.sec.cls) c
    | none => c) 0

/-- Every data slot of a program unit is in use. -/
def unitFull (b : Band) (r pos : Nat) : Bool :=
  (List.range (4 * b.bits)).all (fun j => (mget b.slots (b.slotOf r pos j)).isSome)

/-- The codewords of a data program unit, by page × 4 + codeword; `none` is filler. -/
def unitCws (s : State) (b : Band) (r pos : Nat) : List (Nat × Option Sector) :=
  (List.range (16 * b.bits)).map (fun i => match mget b.slots (b.slotOf r pos (i / 4)) with
    | some (.unit u) => (i, (stAt s u).bind (fun x => (x.cws.getD (i % 4) none).map (·.sec)))
    | _ => (i, none))

/-- Code of the parity group of a position in a row. -/
def Band.accCode (b : Band) (r pos : Nat) : Nat := unitCode r (b.groupOf pos)

/-- The row's group has its parity accumulator, if the band has parity (R529). -/
def needAcc (s : State) (h r pos : Nat) : State :=
  match bandAt s h with
  | some b => if b.groups = 0 then s else ensureAcc s h (b.accCode r pos) b.bits
  | none => s

/-- Class of a program of a band: relocation runs at the class of its die set's relocation (R314), a host unit at the
highest class of its sectors. -/
def progCls (s : State) (b : Band) (r pos : Nat) : Nat :=
  if 28 ≤ b.stream then ((dsAt s b.dieSet).any (dsUrgent s)).toNat else unitClass s b r pos

/-- Give a data program unit to Cirrus once it is full, its band's opening records are in the ring and its group has its
accumulator, which takes its codewords (R275, R339, R529). -/
def sendUnit (s0 : State) (h r pos : Nat) (urgent : Bool) : State :=
  let s := needAcc s0 h r pos
  match bandAt s h with
  | some b =>
    if unitFull b r pos ∧ !b.sent.contains (unitCode r pos) ∧ (blkOf s (b.die pos) (b.blk pos)).state ≠ .retired ∧ b.openRec ≤ s.jr.head ∧
        !(blkOf s (b.die pos) (b.blk pos)).dirty ∧ !dieOut s (b.die pos) ∧ accReady b (b.accCode r pos) then
      let s1 := if b.groups = 0 then s else accTake s h (b.accCode r pos) (unitCws s b r pos)
      feed (modBand s1 h (fun b => { b with sent := unitCode r pos :: b.sent }))
        { kind := .program, die := b.die pos, pua := b.puaOf r pos 0, owner := .prog h r pos, cls := progCls s b r pos,
          deadline := if 28 ≤ b.stream then 0 else s.now + progDl s, atEntry := urgent && b.stream < 28, bg := 28 ≤ b.stream }
    else s
  | none => s

/-- Send every full unit of a band, once its opening records are in the ring. -/
def sendBand (s : State) (h : Nat) : State :=
  match bandAt s h with
  | some b =>
    ((b.slots.map (fun q => let p := b.place q.1; (p.1, p.2.1))).eraseDups).foldl (fun s p => sendUnit s h p.1 p.2 false) s
  | none => s

/-- Give the parity units of a row to Cirrus for each group whose data units are programmed (R276). -/
def sendParity (s : State) (h r : Nat) : State :=
  match bandAt s h with
  | some b =>
    (List.range b.groups).foldl (fun s g =>
      let par := b.parityPos r g
      let dat := ((List.range (b.groupSize g)).map (b.groupStart g + ·)).filter (fun p => p ≠ par)
      match bandAt s h with
      | some b =>
        if dat.all (fun p => b.done.contains (unitCode r p) || b.failed.contains (unitCode r p)) ∧ !b.sent.contains (unitCode r par) ∧
            !(blkOf s (b.die par) (b.blk par)).dirty ∧ !dieOut s (b.die par) then
          feed (modBand s h (fun b => { b with sent := unitCode r par :: b.sent }))
            { kind := .program, die := b.die par, pua := b.puaOf r par 0, owner := .prog h r par,
              cls := if 28 ≤ b.stream then progCls s b r par else 1,
              deadline := if 28 ≤ b.stream then 0 else s.now + progDl s, bg := 28 ≤ b.stream }
        else s
      | none => s) s
  | none => s

/-! ### Slots (R275, R301) -/

/-- A staged unit takes a data slot: the map points there, the EXTENT is staged, and the program unit is sent when
full. A relocated unit's map change comes later (R350). -/
def setSlot (s : State) (u : Nat) (h slot : Nat) : State :=
  match stAt s u, bandAt s h with
  | some x, some b =>
    let olds := (match nsAt s x.nsk with
      | some n => if n.zoned || x.reloc then [] else x.secs.map (fun p => (p.2.sec.lsa, entOf n p.2.sec.lsa))
      | none => [])
    let s1 := { s with staged := mset s.staged u { x with slot := some (h, slot), olds := olds } }
    let s2 := modBand s1 h (fun b =>
      { b with slots := mset b.slots slot (.unit u), next := slot + 1, conv := b.conv || !x.zoned })
    let s3 := if x.reloc || x.stale then s2 else
      (extentOf x h slot).foldl jExtent (x.secs.foldl (fun s p => mapCodeword s x (b.slotPua slot) p.1 p.2.sec) s2)
    let p := b.place slot
    sendUnit s3 h p.1 p.2.1 false
  | _, _ => s

/-- The last codeword place of a staged unit is taken: in a zoned unit its fourth sector has arrived, a conventional page
is full (R261, R293). -/
def StUnit.isFull (u : StUnit) : Bool := if u.zoned && !u.reloc then (u.cws.getD 3 none).isSome else u.cws.all (·.isSome)

/-- A staged unit may take a slot: it is full or forced, and holds none. -/
def StUnit.isReady (u : StUnit) : Bool := u.slot.isNone && u.ready ≠ 0

/-- A staged unit becomes ready to take a slot, after those that already wait (R279). -/
def markReady (s : State) (u : Nat) : State :=
  { s with staged := mmod s.staged u (fun x =>
      if x.slot.isSome || x.ready ≠ 0 then x
      else { x with ready := (s.staged.map (fun q => if q.2.isReady then q.2.ready else 0)).foldl max 0 + 1 }) }

/-- The staged units of a stream that wait for a slot, in the order in which they became ready. -/
def readyUnits (s : State) (d stream : Nat) : List Nat :=
  ((s.staged.filter (fun q => q.2.isReady && q.2.dieSet = d && q.2.stream = stream)).mergeSort
    (fun a b => decide (a.2.ready ≤ b.2.ready))).map Prod.fst

/-- Staged units of a stream that hold no slot, in the order of their first acknowledged sector, the others last
(R348). -/
def slotless (s : State) (d stream : Nat) : List Nat :=
  let l := s.staged.filter (fun q => q.2.slot.isNone && q.2.dieSet = d && q.2.stream = stream && !q.2.reloc)
  let acked := (l.filter (fun q => q.2.firstAck.isSome)).mergeSort (fun a b => decide (a.2.firstAck.getD 0 ≤ b.2.firstAck.getD 0))
  (acked ++ l.filter (fun q => q.2.firstAck.isNone)).map Prod.fst

/-- The band and slot a staged unit holds, or is counted at (R348). -/
def countedSlot (s : State) (u : Nat) (x : StUnit) : Option (Nat × Nat) :=
  match x.slot with
  | some p => some p
  | none => (openBandOf s x.dieSet x.stream).bind (fun h => (bandAt s h).map (fun b =>
      (h, b.freeSlot + (slotless s x.dieSet x.stream).idxOf u)))

/-- The flash die a staged unit's data is aimed at (R348). -/
def aimOf (s : State) (u : Nat) (x : StUnit) : Option Nat :=
  (countedSlot s u x).bind (fun p => (bandAt s p.1).map (fun b => b.die (b.place (p.2 % max 1 (b.rows * b.per))).2.1))

/-- Sectors of staged host units aimed at a flash die: all of them, or those acknowledged. -/
def aimedAt (s : State) (die : Nat) (onlyAcked : Bool) : Nat :=
  (s.staged.map (fun q =>
    if !q.2.complete && !q.2.reloc && aimOf s q.1 q.2 = some die then
      (q.2.secs.filter (fun p => !onlyAcked || p.2.acked)).length else 0)).sum

/-- Flash dies at which more acknowledged data is aimed than 8 program units of their mode (R348). -/
def overDies (s : State) : List Nat :=
  ((s.staged.filterMap (fun q => aimOf s q.1 q.2)).eraseDups).filter (fun die =>
    decide (128 * (match s.diesets.find? (fun d => d.2.members.contains die) with
      | some d => modeBits d.2.mode
      | none => 4) < aimedAt s die true))

/-- One staged unit takes the next slot of its stream's band, if the stream has one. The assignment waits while the ring is
held (R341), and where it would bring more acknowledged data to a flash die than its limit (R348); the power-loss sequence
waits for neither (R355 step 3). -/
def placeOne (s : State) (u : Nat) : State :=
  match stAt s u with
  | some x =>
    if x.slot.isSome || (s.plRun.isNone && ringHeld s) then s
    else
      let r := ensureBand s x.dieSet x.stream
      (match r.2 with
      | some h => (match bandAt r.1 h with
        | some b =>
          let t := setSlot r.1 u h b.freeSlot
          if s.plRun.isSome || (overDies t).all (overDies r.1).contains then t else r.1
        | none => r.1)
      | none => r.1)
  | none => s

/-- Rows of the paired word-line group that holds a row (R346). -/
def groupRows (s : State) (b : Band) (r : Nat) : List Nat :=
  let w := pairWl s (b.die 0)
  ((List.range w).map (r / w * w + ·)).filter (· < b.rows)

/-- The slots of a position's program unit that nothing uses become filler (R172). -/
def fillUnit (s : State) (h r pos : Nat) : State :=
  let s1 := (match bandAt s h with
    | some b =>
      if (b.parities r).contains pos then s
      else modBand s h (fun b => (List.range (4 * b.bits)).foldl (fun b j =>
        let k := b.slotOf r pos j
        if (mget b.slots k).isSome then b else { b with slots := mset b.slots k .filler }) b)
    | none => s)
  sendUnit s1 h r pos true

/-- A staged unit that holds a slot is programmed at once with its whole paired word-line group, missing pages as filler
(R172, R261). When its position holds a row's parity, that row's group is completed first (R276). -/
def fillGroup (s : State) (u : Nat) : State :=
  match (stAt s u).bind (·.slot) with
  | some (h, sl) => (match bandAt s h with
    | some b =>
      let p := b.place sl
      (groupRows s b p.1).foldl (fun s r =>
        if (b.parities r).contains p.2.1 then
          ((List.range (b.groupSize (b.groupOf p.2.1))).map (b.groupStart (b.groupOf p.2.1) + ·)).foldl
            (fun s q => fillUnit s h r q) s
        else fillUnit s h r p.2.1) s
    | none => s)
  | none => s

/-- The units of a stream that wait take slots as its band has them, in order; one that is forced is then programmed. -/
def placeStream (s : State) (d stream : Nat) : State :=
  (readyUnits s d stream).foldl (fun s u =>
    let s1 := placeOne s u
    if (stAt s1 u).any (fun x => x.forced) then fillGroup s1 u else s1) s

/-- A staged unit is to be placed in the next slot of its stream, after those of the stream that wait. -/
def placeUnit (s : State) (u : Nat) : State :=
  match stAt s u with
  | some x => if x.slot.isSome then s else placeStream (markReady s u) x.dieSet x.stream
  | none => s

/-- Program a staged unit at once; while its stream has no band it waits for one. -/
def forceUnit (s : State) (u : Nat) : State :=
  let s1 := { s with staged := mmod s.staged u (fun x => { x with forced := true }) }
  match stAt s1 u with
  | some x => if x.slot.isSome then fillGroup s1 u else placeUnit s1 u
  | none => s

/-- The order in which units that are to be programmed at once take their slots: those that hold one first, then the others
in the order of their first acknowledged sector (R348). -/
def inAckOrder (s : State) (l : List Nat) : List Nat :=
  let rank (u : Nat) : Nat := match stAt s u with
    | some x => if x.slot.isSome then 0 else (x.firstAck.getD s.nextAck) + 1
    | none => 0
  l.mergeSort (fun a b => decide (rank a ≤ rank b))

/-- Several staged units are programmed at once. -/
def forceUnits (s : State) (l : List Nat) : State := (inAckOrder s l).foldl forceUnit s

/-! ### Unit states (R297, R304) -/

/-- A plane page is programmed: the flash lists it, or its program unit was programmed and nothing of it can be read. -/
def pageDone (s : State) (b : Band) (pua : Nat) : Bool :=
  (mget s.flash pua).isSome || (match (List.range b.size).find? (fun p => b.die p = puaDie pua && b.blk p = puaBlk pua) with
    | some p => b.done.contains (unitCode (puaPage pua / b.bits) p)
    | none => false)

/-- A plane page is cross-die parity of its row. -/
def pageParity (b : Band) (pua : Nat) : Bool :=
  match (List.range b.size).find? (fun p => b.die p = puaDie pua && b.blk p = puaBlk pua) with
  | some p => (b.parities (puaPage pua / b.bits)).contains p
  | none => false

/-- Some map entry points to a plane page. -/
def pageLive (s : State) (pua : Nat) : Bool :=
  s.nss.any (fun q => q.2.map.any (fun e => match e.2 with
    | .at p _ => p = pua
    | _ => false))

/-- The unit state table's code of a plane page (R304): 0 erased or not yet programmed, 1 data with a live unit or sector, 2
data with none, 3 parity, filler or an SLC system page. The table is this view of the map, the bands and the flash; the
entries of pages a block does not have in its mode read 0 (R297). -/
def unitState (s : State) (pua : Nat) : Nat :=
  if (blkOf s (puaDie pua) (puaBlk pua)).state = .system then
    (if puaPage pua * 4 + puaPlane pua < (blkOf s (puaDie pua) (puaBlk pua)).fill then 3 else 0)
  else match (bandOfBlk s (puaDie pua) (puaBlk pua)).bind (bandAt s) with
  | some b =>
    if b.rows * b.bits ≤ puaPage pua || !pageDone s b pua then 0
    else if pageParity b pua then 3
    else if pageLive s pua then 1
    else if (mget s.flash pua).any (fun l => l.all (· = .filler)) then 3 else 2
  | none => match mget s.flash pua with
    | some l => if l.all (· = .filler) then 3 else if pageLive s pua then 1 else 2
    | none => 0

end Sys2Proof.Machine
end

