-- ==== Sys2Proof/Machine/ReadOps.lean ====
section
/-! DEFINITION. The start of a climb of the retry ladder and what a command in the part is given by it
(10_signal_channel.md R418–R424), and the token buckets (11_cirrus_latency.md R448–R451). -/

namespace Sys2Proof.Machine

/-! ### Commands in the part -/

/-- Change a command in the part. -/
def modCmd (s : State) (k : Nat) (f : Cmd → Cmd) : State := { s with cmds := mmod s.cmds k f }

/-- Remove a command from the part. -/
def delCmd (s : State) (k : Nat) : State := { s with cmds := mdel s.cmds k }

/-- A command has its result: it waits for the commit of its completion, or leaves silently (R124, R185). -/
def finishCmd (s : State) (k : Nat) (st : Status) (dw0 dw1 : Nat) : State :=
  match mget s.cmds k with
  | some c => if c.silent then delCmd s k else modCmd s k (fun c => { c with phase := .ready, st := st, dw0 := dw0, dw1 := dw1 })
  | none => s

/-- Insert an offset with its value, keeping offsets rising. -/
def putOff {α : Type} (l : List (Nat × α)) (o : Nat) (v : α) : List (Nat × α) := mset l o v

/-- A read has every sector: it completes with its data, or with the status of its lowest failing sector (R174). -/
def readSettle (s : State) (k : Nat) : State :=
  match mget s.cmds k with
  | some c =>
    if c.op = .read ∧ c.phase = .dispatched ∧ c.left = [] ∧ c.plain = [] then
      match c.fails with
      | (o, st) :: _ => finishCmd s k st o 0
      | [] => finishCmd s k stOk 0 0
    else s
  | none => s

/-- A sector of a read fails. -/
def readFail (s : State) (k o : Nat) (st : Status) : State :=
  readSettle (modCmd s k (fun c => { c with
    left := c.left.filter (· ≠ o), plain := c.plain.filter (·.1 ≠ o), fails := putOff c.fails o st })) k

/-- A sector of a read has its plaintext. -/
def readGive (s : State) (k o v : Nat) : State :=
  readSettle (modCmd s k (fun c => { c with
    left := c.left.filter (· ≠ o), plain := c.plain.filter (·.1 ≠ o), data := putOff c.data o v })) k

/-- A sector of a read has its ciphertext and waits for a cipher job (R479). -/
def readCipher (s : State) (k o : Nat) (x : Sector) : State :=
  modCmd s k (fun c => { c with left := c.left.filter (· ≠ o), plain := putOff c.plain o x })

/-! ### Climbs (R418, R419, R422, R424) -/

/-- A read of a plane page. -/
def FlashOp.isReadOf (o : FlashOp) (pua : Nat) : Bool := o.kind = .read && o.pua = pua

/-- The climb of a codeword, if it is climbing. -/
def climbOf (s : State) (pua sub : Nat) : Option (Nat × Climb) := s.climbs.find? (fun q => q.2.pua = pua && q.2.sub = sub)

/-- The climbs of a read descriptor, which climb together (R418). -/
def mates (s : State) (g : Nat) : List (Nat × Climb) := s.climbs.filter (fun q => q.2.desc = g)

/-- A read descriptor of some climbs goes to Cirrus with a threshold set: in the highest class and with the earliest deadline
of its climbs (R419, R422, R437, R440). -/
def descRead (s : State) (g thr pua : Nat) : State :=
  let ms := mates s g
  let cls := ms.foldl (fun c q => max c q.2.cls) 0
  feed s { kind := .read, die := puaDie pua, pua := pua, owner := .climb g, cls := cls,
           deadline := minOf ((ms.map (·.2.deadline)).filter (· ≠ 0)), susp := ms.any (·.2.susp), thr := thr, cws := ms.map (·.2.sub),
           bg := ms.any (fun q => q.2.readers.any (fun r => match r with
             | .host _ _ => false
             | _ => true)) }

/-- A descriptor that has not entered its queue and reads the same plane page in the same class with the same deadline: one
more codeword joins it (R379). -/
def openDesc (s : State) (pua sub cls deadline : Nat) : Option Nat :=
  (s.feeds.find? (fun o => o.isReadOf pua && o.cls = cls && o.deadline = deadline && o.thr = 0 && !o.cws.contains sub)).bind
    (fun o => match o.owner with
      | .climb g => if (mates s g).all (fun q => q.2.step = 1 && q.2.pua = pua) then some g else none
      | _ => none)

/-- Read a codeword for a reader: it joins a climb under way, or starts one at step 1, or at step 7 when its flash die is
out of service. A deadline of 0 stands for the entry into the queue plus the target of the class (R437). -/
def startClimb (s : State) (pua sub cls deadline : Nat) (r : Reader) : State :=
  match climbOf s pua sub with
  | some (id, c) =>
    { s with climbs := mset s.climbs id { c with
        readers := c.readers ++ [r], cls := max c.cls cls, susp := c.susp || 1 ≤ cls,
        deadline := if c.deadline = 0 then deadline else if c.cls < cls && deadline ≠ 0 then min c.deadline deadline
          else c.deadline } }
  | none =>
    let out := dieOut s (puaDie pua)
    let id := s.nextClimb
    let g := if out then none else openDesc s pua sub cls deadline
    let c : Climb := { pua := pua, sub := sub, cls := cls, deadline := deadline, susp := 1 ≤ cls, readers := [r],
                       step := if out then 7 else 1, reads := if out then 0 else 1, desc := g.getD id,
                       dec := rd s .sig (tileOfDie (puaDie pua)) 0x100, det := rd s .sig (tileOfDie (puaDie pua)) 0x104 }
    let s1 := { s with climbs := mset s.climbs id c, nextClimb := id + 1 }
    if out then s1
    else match g with
    | some g => { s1 with feeds := s1.feeds.map (fun o => if o.owner = .climb g then { o with cws := o.cws ++ [sub] } else o) }
    | none => descRead s1 id 0 pua

/-! ### Buckets (R448–R451) -/

/-- The level of a bucket now: it gains `gain` per ns up to its depth; a bucket nothing has charged is full. -/
def bktLevel (b : Option Bucket) (gain depth now : Nat) : Int :=
  match b with
  | some x => min (Int.ofNat depth) (x.level + Int.ofNat (gain * (now - x.asOf)))
  | none => Int.ofNat depth

/-- What a bucket gains in BURST_MS. -/
def bktDepth (s : State) (gain : Nat) : Nat := gain * max 1 (getF s .qeng 0 F.QENG_TOK_CTRL_BURST_MS) * 1000000

/-- Gains per ns: bytes of a tenant in thousandths, commands in millionths, the throttle caps in thousandths of a byte. -/
def byteGain (s : State) (t : Nat) : Nat := (tenant s t).par.rateMbps
def cmdGain (s : State) (t : Nat) : Nat := (tenant s t).par.iopsK
def readGain (s : State) : Nat := 1000 * max 1 (getF s .qeng 0 F.QENG_THROTTLE_RD_GBPS)
def writeGain (s : State) : Nat := 1000 * max 1 (getF s .qeng 0 F.QENG_THROTTLE_WR_GBPS)

/-- The level of one bucket of a tenant. -/
def byteLevel (s : State) (t : Nat) : Int := bktLevel (mget s.byteBkts t) (byteGain s t) (bktDepth s (byteGain s t)) s.now
def cmdLevel (s : State) (t : Nat) : Int := bktLevel (mget s.cmdBkts t) (cmdGain s t) (bktDepth s (cmdGain s t)) s.now
def readLevel (s : State) : Int := bktLevel s.readBkt (readGain s) (bktDepth s (readGain s)) s.now
def writeLevel (s : State) : Int := bktLevel s.writeBkt (writeGain s) (bktDepth s (writeGain s)) s.now

/-- A tenant's buckets are brought up to date at their present rate; one without a rate starts full when it gets one (R450,
R453). -/
def rebaseTenant (s : State) (t : Nat) : State :=
  { s with byteBkts := if byteGain s t = 0 then mdel s.byteBkts t else mset s.byteBkts t ⟨byteLevel s t, s.now⟩,
           cmdBkts := if cmdGain s t = 0 then mdel s.cmdBkts t else mset s.cmdBkts t ⟨cmdLevel s t, s.now⟩ }

/-- Every bucket is brought up to date before its rate or its depth changes. -/
def rebaseAll (s : State) : State :=
  let s1 := (s.tenants.map Prod.fst).foldl rebaseTenant s
  { s1 with readBkt := some ⟨readLevel s1, s1.now⟩, writeBkt := some ⟨writeLevel s1, s1.now⟩ }

/-- A tenant's budgets let a command be taken (R449): each bucket it has is above 0. -/
def budgetOpen (s : State) (t : Nat) : Bool :=
  (byteGain s t = 0 || decide (0 < byteLevel s t)) && (cmdGain s t = 0 || decide (0 < cmdLevel s t))

/-- The throttle caps let a command be taken (R451). -/
def throttleOpen (s : State) (reads writes : Bool) : Bool :=
  getF s .qeng 0 F.QENG_THROTTLE_ACTIVE = 0 ||
    ((!reads || decide (0 < readLevel s)) && (!writes || decide (0 < writeLevel s)))

/-- Charge a tenant's buckets, and the part-wide bucket of the kind while the caps are in force. -/
def charge (s : State) (t bytes : Nat) (reads writes : Bool) : State :=
  let s1 := if byteGain s t = 0 then s
    else { s with byteBkts := mset s.byteBkts t ⟨byteLevel s t - Int.ofNat (bytes * 1000), s.now⟩ }
  let s2 := if cmdGain s t = 0 then s1
    else { s1 with cmdBkts := mset s1.cmdBkts t ⟨cmdLevel s t - 1000000, s.now⟩ }
  if getF s .qeng 0 F.QENG_THROTTLE_ACTIVE = 0 then s2
  else
    let s3 := if reads then { s2 with readBkt := some ⟨readLevel s - Int.ofNat (bytes * 1000), s.now⟩ } else s2
    if writes then { s3 with writeBkt := some ⟨writeLevel s - Int.ofNat (bytes * 1000), s.now⟩ } else s3

end Sys2Proof.Machine
end

