-- ==== Sys2Proof/Machine/IoOps.lean ====
section
/-! DEFINITION. The path of an I/O command: the checks of admission, what holds a command, the order of dispatch, what
each command does at its dispatch point, and when writes are acknowledged (04_commands_and_ordering.md R160–R174, R182;
06_zones_and_placement.md R243–R262; 08_map_durability.md R338–R348). -/

namespace Sys2Proof.Machine

/-! ### Kinds of command -/

/-- The command counts as a write under R164 for order. -/
def IoOp.orders : IoOp → Bool
  | .write => true
  | .writeZeroes _ => true
  | .dsm => true
  | .append => true
  | .zmSend _ _ => true
  | _ => false

/-- The command is a write for write protection: Write, Write Zeroes, Zone Append, Deallocate (R164, R483, R503). -/
def IoOp.writes : IoOp → Bool
  | .write => true
  | .writeZeroes _ => true
  | .dsm => true
  | .append => true
  | _ => false

/-- Write, Write Zeroes and Zone Append may carry the placement directive (R277). -/
def IoOp.hinted : IoOp → Bool
  | .write => true
  | .writeZeroes _ => true
  | .append => true
  | _ => false

/-- Write Zeroes with DEAC set in a conventional namespace deallocates instead of programming (R294). -/
def programs (zoned : Bool) : IoOp → Bool
  | .write => true
  | .append => true
  | .writeZeroes deac => zoned || !deac
  | _ => false

/-- Read, Write and Zone Append carry data (R449, R536). -/
def IoOp.data : IoOp → Bool
  | .read => true
  | .write => true
  | .append => true
  | _ => false

/-- The namespace a command names is zoned. -/
def cmdZoned (s : State) (c : Cmd) : Bool :=
  match c.nsk with
  | some k => (match nsAt s k with
    | some n => n.zoned
    | none => false)
  | none => false

/-- Key slots of the namespaces a command names: one, or all of the tenant (R160). -/
def cmdSlots (s : State) (c : Cmd) : List Nat :=
  match c.nsk with
  | some k => [k]
  | none => if c.nsid = 0xFFFFFFFF then (s.nss.filter (fun q => q.2.tenant = c.fn)).map Prod.fst else []

/-- Bytes a command is charged (R449). -/
def cmdBytes (s : State) (c : Cmd) : Nat :=
  if c.op = .read || programs (cmdZoned s c) c.op then 4096 * c.nlb else 0

/-- Credits a command takes (R536). -/
def cmdCredits (c : Cmd) : Nat := if c.op.data then max 1 (ceilDiv (4096 * c.nlb) 65536) else 0

/-- The zone a command's first sector lies in. -/
def cmdZone (n : Ns) (c : Cmd) : Nat := c.slba / zoneSize n

/-! ### The checks of R161 -/

/-- Bits of command dwords 10 to 15 that a command's description names (log 7). -/
def IoOp.masks : IoOp → List Nat
  | .read => [0xFFFFFFFF, 0xFFFFFFFF, 0xFD00FFFF, 0xFF, 0xFFFFFFFF, 0xFFFFFFFF]
  | .write => [0xFFFFFFFF, 0xFFFFFFFF, 0xFDF0FFFF, 0xFFFF00FF, 0xFFFFFFFF, 0xFFFFFFFF]
  | .writeZeroes _ => [0xFFFFFFFF, 0xFFFFFFFF, 0xFFF0FFFF, 0xFFFF0000, 0xFFFFFFFF, 0xFFFFFFFF]
  | .dsm => [0xFF, 0x7, 0, 0, 0, 0]
  | .append => [0xFFFFFFFF, 0xFFFFFFFF, 0xFFF0FFFF, 0xFFFF0000, 0xFFFFFFFF, 0xFFFFFFFF]
  | .zmSend _ _ => [0xFFFFFFFF, 0xFFFFFFFF, 0, 0x1FF, 0, 0]
  | .zmRecv => [0xFFFFFFFF, 0xFFFFFFFF, 0xFFFFFFFF, 0x1FFFF, 0, 0]
  | _ => [0, 0, 0, 0, 0, 0]

/-- Check 2: reserved bits, the placement directive, actions, zone starts (R161, R241, R256, R277). -/
def fieldBad (n : Option Ns) (c : Cmd) : Bool :=
  let dtype := bitsOf (c.dwords.getD 2 0) 23 20
  let dspec := bitsOf (c.dwords.getD 3 0) 31 16
  let zs := match n with
    | some n => zoneSize n
    | none => 1
  c.reserved || (c.dwords.zip c.op.masks).any (fun p => p.1 - (p.1 &&& p.2) ≠ 0) ||
  (match c.op with
  | .write => dtype ≠ 0 && (dtype ≠ 15 || bitsOf dspec 15 8 ≠ 0)
  | .writeZeroes _ => dtype ≠ 0 && (dtype ≠ 15 || bitsOf dspec 15 8 ≠ 0)
  | .append => (dtype ≠ 0 && (dtype ≠ 15 || bitsOf dspec 15 8 ≠ 0)) || c.slba % zs ≠ 0
  | .zmSend a all => a = 0 || 5 < a || (!all && c.slba % zs ≠ 0)
  | .zmRecv => bitsOf (c.dwords.getD 3 0) 7 0 ≠ 0 || 7 < bitsOf (c.dwords.getD 3 0) 15 8
  | _ => false)

/-- Bytes a command moves (R160, R161): sectors, the ranges of a Dataset Management, the report of a Zone Management
Receive. -/
def cmdMoves (c : Cmd) : Nat :=
  match c.op with
  | .dsm => 16 * (bitsOf (c.dwords.getD 0 0) 7 0 + 1)
  | .zmRecv => (c.dwords.getD 2 0 + 1) * 4
  | op => if op.data then 4096 * c.nlb else 0

/-- Largest transfer in sectors (R160). -/
def IoOp.limit : IoOp → Nat
  | .read => 512
  | .write => 512
  | .append => 128
  | _ => 65536

/-- Sector ranges a command reads or writes; a Zone Append has its range once it is assigned. -/
def cmdRanges (n : Ns) (c : Cmd) : List (Nat × Nat) :=
  match c.op with
  | .read => [(c.slba, c.nlb)]
  | .write => [(c.slba, c.nlb)]
  | .writeZeroes _ => [(c.slba, c.nlb)]
  | .dsm => c.ranges
  | .append => if c.phase = .dispatched || c.phase = .ready then [(c.slba, c.nlb)] else []
  | .zmSend _ all => if all then [(0, n.capacity)] else [(c.slba, zoneSize n)]
  | _ => []

/-- The sector range leaves the namespace (check 5). -/
def rangeBad (n : Ns) (c : Cmd) : Bool :=
  match c.op with
  | .read => n.capacity < c.slba + c.nlb
  | .write => n.capacity < c.slba + c.nlb
  | .writeZeroes _ => n.capacity < c.slba + c.nlb
  | .dsm => c.ranges.any (fun r => n.capacity < r.1 + r.2)
  | .append => n.capacity ≤ c.slba
  | .zmSend _ all => !all && n.capacity ≤ c.slba
  | .zmRecv => n.capacity ≤ c.slba
  | _ => false

/-- Statuses of the zone states that no write or action passes (R243, R245). -/
def ZState.closedTo : ZState → Option Status
  | .readOnly => some stZoneReadOnly
  | .offline => some stZoneOffline
  | _ => none

/-- The parameters that bind a command: its tenant's as they are until it is admitted, then as they were (R44, R213). -/
def parOf (s : State) (c : Cmd) : TParams := if c.phase = .waiting then (tenant s c.fn).par else c.par

/-- Limits of a tenant for a zone to become open (R252). -/
def openLimit (s : State) (p : TParams) (t : Nat) (z : ZState) : Option Status :=
  if !z.isActive ∧ p.activeZones < activeUsed s t + 1 then some stTooManyActive
  else if !z.isOpen ∧ p.openZones < openUsed s t + 1 then some stTooManyOpen
  else none

/-- What a zone's state answers to a write (R245, R252). -/
def zoneWriteState (s : State) (p : TParams) (n : Ns) (z : Nat) : Option Status :=
  let x := (zoneOf n z).state
  match x with
  | .full => some stZoneFull
  | .readOnly => some stZoneReadOnly
  | .offline => some stZoneOffline
  | _ => openLimit s p n.tenant x

/-- What a zone's state answers to a Zone Management Send action (R243, R252, R324). -/
def zoneAction (s : State) (p : TParams) (n : Ns) (a z : Nat) : Option Status :=
  let x := zoneOf n z
  match a, x.state with
  | 5, .readOnly => none
  | 5, .offline => none
  | 5, _ => some stZoneTransition
  | _, .readOnly => some stZoneReadOnly
  | _, .offline => some stZoneOffline
  | 3, .full => some stZoneTransition
  | 3, .empty =>
    if (match dsAt s n.dieSet with
      | some d => d.full
      | none => false) then some stCapacityExceeded else openLimit s p n.tenant .empty
  | 3, st => openLimit s p n.tenant st
  | 1, .empty => some stZoneTransition
  | 1, .full => some stZoneTransition
  | _, _ => none

/-- Check 13: the zone state refuses the command. -/
def zoneRefuses (s : State) (n : Ns) (c : Cmd) : Option Status :=
  if !n.zoned then none
  else match c.op with
  | .read =>
    if ((List.range (c.nlb + 1)).any (fun o =>
      let l := c.slba + min o (c.nlb - 1)
      (o = 0 || l % zoneSize n = 0) && (zoneOf n (l / zoneSize n)).state = .offline)) then some stZoneOffline else none
  | .write => zoneWriteState s (parOf s c) n (cmdZone n c)
  | .writeZeroes _ => zoneWriteState s (parOf s c) n (cmdZone n c)
  | .append => zoneWriteState s (parOf s c) n (cmdZone n c)
  | .zmSend a false => zoneAction s (parOf s c) n a (cmdZone n c)
  | _ => none

/-- The command stages journal records when it takes effect (R336, R338): it programs, deallocates, or resets, finishes or
takes offline a zone. -/
def Cmd.records (c : Cmd) : Bool :=
  match c.op with
  | .dsm => bitsOf (c.dwords.getD 1 0) 2 2 = 1
  | .zmSend a _ => a ≠ 1 && a ≠ 3
  | op => op.orders

/-- The migration of the tenant refuses the command (check 7, R502). -/
def migRefuses (s : State) (n : Ns) (c : Cmd) : Bool :=
  let m := migOf s n.tenant
  m.state = .frozen && m.names n.nsid && c.op.orders

/-- The namespace is write-protected against the command (check 11, R483, R503). -/
def wpRefuses (s : State) (n : Ns) (c : Cmd) : Bool :=
  let m := migOf s n.tenant
  c.op.writes && (n.wp || (m.state = .handedOff && m.names n.nsid) ||
    (!n.zoned && programs false c.op && 2 ^ 64 - 1 < n.nonce.next + c.nlb))

/-- The die set is full and the command programs (check 12, R324). -/
def fullRefuses (s : State) (n : Ns) (c : Cmd) : Bool :=
  programs n.zoned c.op && (match dsAt s n.dieSet with
    | some d => d.full
    | none => false)

/-- An earlier admitted command of the namespace whose zone effects are still to come, so that check 13 waits. -/
def zonePending (s : State) (k : Nat) (n : Ns) (c : Cmd) : Bool :=
  s.cmds.any (fun q => q.2.nsk = some k && (q.2.phase = .admitted || (q.2.phase = .dispatched && (match q.2.op with
    | .zmSend _ _ => true
    | _ => false))) && q.2.op.orders && (match q.2.op with
      | .zmSend _ true => true
      | _ => cmdZone n q.2 = cmdZone n c))

/-- The first failing check of R161 on an I/O command, in order, with dword 0 of its completion. -/
def ioCheck (s : State) (c : Cmd) : Option (Status × Nat) :=
  let n := c.nsk.bind (nsAt s)
  let slots := cmdSlots s c
  let named := slots.filterMap (fun k => (nsAt s k).map (fun n => (k, n)))
  if c.unknown || (match n, c.op with
    | some n, .dsm => n.zoned
    | some n, .append => !n.zoned
    | some n, .zmSend _ _ => !n.zoned
    | some n, .zmRecv => !n.zoned
    | _, _ => false) then some (stInvalidOpcode, 0)
  else if fieldBad n c then some (stInvalidField, 0)
  else if authMissing s c.fn then some (stAuthRequired, 0)
  else if c.op.limit < c.nlb || 2097152 < cmdMoves c then some (stInvalidField, 0)
  else if 1 < c.keyed then some (stSglType, 0)
  else if c.len < cmdMoves c then some (stSglLength, 0)
  else if n.isNone && !(c.op = .flush && c.nsid = 0xFFFFFFFF) then some (stInvalidNamespace, 0)
  else if named.any (fun q => rangeBad q.2 c) then some (stLbaRange, 0)
  else if named.any (fun q => !q.2.recovered) then some (stNotReady, 0)
  else if isQuiesced s c.fn then some (stTenantQuiesced, 0)
  else if named.any (fun q => migRefuses s q.2 c) then some (stMigrationActive, 0)
  else if slots.any (fun k => (mget s.nsKeys k).isNone) then some (stKeyNotBound, 0)
  else match named.find? (fun q => q.2.defer) with
  | some q => some (stDeferredWrite, (named.foldl (fun a p => if p.2.defer then max a p.2.deferNewest else a) q.2.deferNewest) % 2 ^ 32)
  | none =>
    match named.find? (fun q => q.2.erase.isSome) with
    | some q => some (if q.2.erase = some .sanitize then stSanitizeInProgress else stFormatInProgress, 0)
    | none =>
      if named.any (fun q => wpRefuses s q.2 c) then some (stWriteProtected, 0)
      else if named.any (fun q => fullRefuses s q.2 c) then some (stCapacityExceeded, 0)
      else match c.nsk, n with
      | some k, some n => if zonePending s k n c then none else (zoneRefuses s n c).map (fun st => (st, 0))
      | _, _ => none

/-- A refusal's side effects: violations are counted and reported (R163, R195), a deferred error pending flag is cleared
(R176, R178), an exhausted write counter protects the namespace (R483). -/
def ioRefuse (s : State) (c : Cmd) (st : Status) (dw0 : Nat) : State :=
  let s1 := bump s .cfe 0 F.CFE_REFUSED
  let s2 :=
    if st = stInvalidNamespace then
      raiseTf (bumpTf (raise (blockError (bump s1 .cfe 0 F.CFE_VIOL) .cfe 0 1 (c.fn % 512) (c.nsid % 2 ^ 32) 0)
        .cfe 0 F.CFE_INT_RAW_VIOL) c.fn F.TF_VIOL_COUNT) c.fn F.TF_INT_RAW_VIOL
    else if st = stLbaRange then
      raiseTf (bumpTf (raise (blockError (bump s1 .cfe 0 F.CFE_VIOL) .cfe 0 2 (c.fn % 512) (c.slba % 2 ^ 32) (c.slba / 2 ^ 32))
        .cfe 0 F.CFE_INT_RAW_VIOL) c.fn F.TF_VIOL_COUNT) c.fn F.TF_INT_RAW_VIOL
    else if st = stDeferredWrite then
      { s1 with nss := (cmdSlots s c).foldl (fun m k => mmod m k (fun n => { n with defer := false })) s1.nss }
    else if st = stWriteProtected then
      (cmdSlots s c).foldl (fun s k => match nsAt s k with
        | some n =>
          if !n.wp && !n.zoned && programs false c.op && 2 ^ 64 - 1 < n.nonce.next + c.nlb then
            raise (blockError (modNs s k (fun n => { n with wp := true })) .sor 0 4 k 0 0) .sor 0 F.SOR_INT_RAW_WP
          else s
        | none => s) s1
    else s1
  let s3 := if st = stInvalidNamespace ∨ st = stLbaRange then modTenant s2 c.fn (fun t => { t with viol := t.viol + 1 }) else s2
  post s3 c.conn c.cid st dw0 0 []

/-! ### What holds a command before admission -/

/-- Credits a tenant's commands hold. -/
def creditsUsed (s : State) (t : Nat) : Nat := ((s.cmds.filter (fun q => q.2.fn = t)).map (fun q => q.2.credits)).sum

/-- Credits a tenant may hold at once (R231, R629). -/
def creditCap (s : State) (t : Nat) : Nat :=
  let full := (tenant s t).par.credits
  if s.stage = .notify || s.stage = .enforce then max 32 (full * min 100 (getF s .thm 0 F.THM_THR_CTRL_CREDIT_PCT) / 100) else full

/-- Stream of a write (R277–R279): the effective class, lifetime and group select a byte of the stream map. -/
def streamOf (d : DieSet) (cls life group : Nat) : Nat :=
  if d.flags % 2 = 1 then (cls * 4 + life) % max 1 d.streams else d.streamMap.getD (cls * 64 + life * 16 + group) 0

/-- Units that a write completes and that will need a slot: its sectors join the partial unit of its zone, or of its
namespace in the stream; with FUA what remains partial needs one too (R170, R261, R293). -/
def unitsNeeded (s : State) (slot : Nat) (n : Ns) (stream : Nat) (c : Cmd) : Nat :=
  let part := if n.zoned then (if c.op = .append then (zoneOf n (c.slba / zoneSize n)).wp else c.slba) % 4
    else (((s.staged.filter (fun q => q.2.slot.isNone && !q.2.reloc && q.2.nsk = slot && q.2.stream = stream &&
      !q.2.isFull)).map (fun q => q.2.secs.length)).sum)
  if c.fua || s.holdLow then ceilDiv (part + c.nlb) 4 else (part + c.nlb) / 4

/-- Units of a stream that wait for a slot, or will: those ready, and those of writes admitted and not yet dispatched, whose
slots are reserved (R324). -/
def unitsAhead (s : State) (d : Nat) (ds : DieSet) (stream : Nat) : Nat :=
  (s.staged.filter (fun q => q.2.isReady && q.2.dieSet = d && q.2.stream = stream)).length +
    ((s.cmds.filter (fun q => q.2.phase = .admitted)).map (fun q => match q.2.nsk, q.2.nsk.bind (nsAt s) with
      | some k, some n => if programs n.zoned q.2.op && n.dieSet = d && streamOf ds q.2.cls q.2.life q.2.group = stream then
          unitsNeeded s k n stream q.2 else 0
      | _, _ => 0)).sum

/-- A stream's band has slots for what waits and for `need` further units, or a band may be opened (R315). -/
def streamRoom (s : State) (d : Nat) (ds : DieSet) (stream need : Nat) : Bool :=
  need = 0 || (match (openBandOf s d stream).bind (bandAt s) with
  | some b => decide (b.freeSlot + unitsAhead s d ds stream + need ≤ b.rows * b.per)
  | none => false) || canOpen s ds stream

/-- Acknowledged data of the part, in sectors (R348). -/
def ackedSectors (s : State) : Nat :=
  (s.staged.map (fun q => if q.2.complete || q.2.reloc then 0 else (q.2.secs.filter (fun p => p.2.acked)).length)).sum

/-- Why a command that passes every check is held before admission. -/
inductive Hold
  | credits | ring | mark | media
  deriving DecidableEq, Repr

/-- The hold of a command, if any: credits (R231), the ring (R341), a counter mark (R352), a band or the staged data of
an urgent die set (R315, R446). -/
def ioHold (s : State) (c : Cmd) : Option Hold :=
  if cmdCredits c ≠ 0 && decide (creditCap s c.fn < creditsUsed s c.fn + cmdCredits c) then some .credits
  else match c.nsk.bind (nsAt s) with
  | some n =>
    let cv := if c.op = .dsm then c.ranges.length else c.nlb
    if c.records && ringHeld s then some .ring
    else if c.op.writes && (!n.wseq.room cv || (!n.zoned && programs false c.op && !n.nonce.room cv)) then some .mark
    else if programs n.zoned c.op then
      match dsAt s n.dieSet with
      | some d =>
        let st := streamOf d c.cls c.life c.group
        if !streamRoom s n.dieSet d st (unitsNeeded s (c.nsk.getD 0) n st c) then some .media
        else if dsUrgent s d && (activeMembers s d).any (fun m => decide (64 * modeBits d.mode < aimedAt s m.2 false)) then
          some .media
        else none
      | none => none
    else none
  | none => none

/-! ### Taking commands from the submission queues -/

/-- The oldest waiting command of each queue, in the order of the queues' connections. -/
def queueHeads (s : State) : List (Nat × Cmd) :=
  let w := s.cmds.filter (fun q => q.2.phase = .waiting)
  w.filter (fun q => !(w.any (fun p => p.2.conn = q.2.conn && p.1 < q.1)))

/-- Budgets and throttle caps let a command be taken (R449, R451). -/
def takeOpen (s : State) (c : Cmd) : Bool :=
  budgetOpen s c.fn && throttleOpen s (c.op = .read) (programs (cmdZoned s c) c.op)

/-- A head can leave its queue: it is refused, or nothing holds it. -/
def headReady (s : State) (c : Cmd) : Bool := takeOpen s c && ((ioCheck s c).isSome || (ioHold s c).isNone)

/-- Commands that one queue may have in a row: 2^AB of the Arbitration feature, where 7 is no limit (log 7). -/
def arbBurst (s : State) (f : Nat) : Nat :=
  let ab := mgetD (ctrl s f).feats 0x01 7 % 8
  if ab = 7 then 1024 else 2 ^ ab

/-- The entry of least key that is at least `k`, or the least of all. -/
def cyclic {α : Type} (l : List (Nat × α)) (k : Nat) : Option (Nat × α) :=
  match l.find? (fun p => k ≤ p.1) with
  | some p => some p
  | none => l.head?

/-- Commands that arrived during the last activation are admitted in arrival order (R188): of those that still wait, one
leaves its queue only when it is the first. -/
def mayPass (s : State) (k : Nat) : Bool :=
  k < s.arb.holdFrom ||
    !(s.cmds.any (fun q => q.2.phase = .waiting && s.arb.holdFrom ≤ q.1 && q.1 < s.arb.holdTo && q.1 < k))

/-- The next command taken: the tenant being served while its burst lasts, else the next one in turn; within it the
queue being served while its burst lasts, else the next (04_commands_and_ordering.md, Ordering). -/
def nextTaken (s : State) : Option (Nat × Cmd × Arb) :=
  let ready := ((queueHeads s).filter (fun q => mayPass s q.1)).filter (fun q => headReady s q.2)
  let byTenant : FMap Unit := ready.foldl (fun m q => mset m q.2.fn ()) []
  let a := s.arb
  let t? := if a.left ≠ 0 && (mget byTenant a.tenant).isSome then some a.tenant
    else (cyclic byTenant (a.tenant + 1)).map Prod.fst
  t?.bind (fun t =>
    let mine : FMap (Nat × Cmd) := (ready.filter (fun q => q.2.fn = t)).foldl (fun m q => mset m q.2.conn (q.1, q.2)) []
    let cur := mgetD a.queues t (0, 0)
    let q? := if cur.2 ≠ 0 && (mget mine cur.1).isSome then (mget mine cur.1).map (fun p => (cur.1, p, cur.2))
      else (cyclic mine (cur.1 + 1)).map (fun p => (p.1, p.2, arbBurst s t))
    q?.map (fun q =>
      let tb := max 1 (getF s .qeng 0 F.QENG_ARB_CTRL_TENANT_BURST)
      let left := if t = a.tenant && a.left ≠ 0 then a.left else tb
      (q.2.1.1, q.2.1.2, { a with tenant := t, left := left - 1, queues := mset a.queues t (q.1, q.2.2 - 1) })))

/-- Deadline target of a command's class in ns. -/
def cmdTarget (s : State) (c : Cmd) : Nat := clsTarget s c.cls

/-- A class that is lowered is counted (R278). -/
def countHint (s : State) (n : Option Ns) (c : Cmd) : State :=
  if c.op.hinted && bitsOf (c.dwords.getD 2 0) 23 20 = 15 && n.any (fun n => n.cls + 1 < bitsOf (c.dwords.getD 3 0) 23 22) then
    bump s .zne 0 F.ZNE_HINT_CLAMP
  else s

/-- A write takes its write sequences and nonce counter values (R344, R482). -/
def takeNumbers (s : State) (n : Option Ns) (c : Cmd) : State :=
  let cv := if c.op = .dsm then c.ranges.length else c.nlb
  match c.nsk, n with
  | some k, some n =>
    if c.op.writes then modNs s k (fun m => { m with
      wseq := m.wseq.take cv, nonce := if !n.zoned && programs false c.op then m.nonce.take cv else m.nonce })
    else s
  | _, _ => s

/-- A command whose data is not all in its capsule gets a Ready to Transfer PDU for the rest on TCP (R132). -/
def askData (s : State) (c : Cmd) : State :=
  if c.op ≠ .read && c.op ≠ .zmRecv && c.icd < cmdMoves c && (connOf s c.conn).any (fun k => !k.rdma) then
    sendMsg s c.conn 24 (fun h => .conn c.conn "r2t" [c.cid, c.icd, cmdMoves c - c.icd] h)
  else s

/-- A command as it is from its admission on: with its deadline, its tenant's parameters (R44), its credits (R536), its first
write sequence and its first nonce counter value. -/
def Cmd.entering (s : State) (c : Cmd) : Cmd :=
  let n := c.nsk.bind (nsAt s)
  { c with
    phase := .admitted, admitted := s.now, deadline := s.now + cmdTarget s c, ver := (tenant s c.fn).ver, par := (tenant s c.fn).par,
    credits := cmdCredits c, counted := false,
    wseq := (match n with
      | some n => n.wseq.next
      | none => 0),
    dw0 := (match n with
      | some n => n.nonce.next
      | none => 0) }

/-- CFE admits a command. From here on it is known by its place in the order of admission (R164). -/
def admitCmd (s : State) (k : Nat) (c : Cmd) : State :=
  let n := c.nsk.bind (nsAt s)
  let s1 := askData (takeNumbers (countHint (bump (cmdSeen s) .cfe 0 F.CFE_ADMITTED) n c) n c) c
  { s1 with nextCmd := s1.nextCmd + 1, cmds := mset (mdel s1.cmds k) s1.nextCmd (c.entering s) }

/-- Take one command from its queue: charge it, and refuse it or let it in. -/
def takeCmd (s : State) (k : Nat) (c : Cmd) (a : Arb) : State :=
  let s1 := charge { s with arb := a } c.fn (cmdBytes s c) (c.op = .read) (programs (cmdZoned s c) c.op)
  match ioCheck s c with
  | some (st, dw0) => ioRefuse (delCmd s1 k) c st dw0
  | none => admitCmd s1 k c

/-- Take commands while one can be taken. -/
def takeAll (s : State) : Nat → State
  | 0 => s
  | n + 1 => match nextTaken s with
    | some (k, c, a) => takeAll (takeCmd s k c a) n
    | none => s

/-- Count, once for each rule, every command that waits in a submission queue for its tenant's budgets or for the throttle
caps (R449, R451, R453). -/
def countBudgets (s : State) : State :=
  (s.cmds.filter (fun q => q.2.phase = .waiting)).foldl (fun s q =>
    let c := q.2
    let s1 := if budgetOpen s c.fn || c.rateHeld then s
      else bump (modCmd s q.1 (fun c => { c with rateHeld := true })) .qeng 0 F.QENG_RATE_HELD_COUNT
    if throttleOpen s1 (c.op = .read) (programs (cmdZoned s1 c) c.op) || c.thrHeld then s1
    else bump (modCmd s1 q.1 (fun c => { c with thrHeld := true })) .qeng 0 F.QENG_THR_HELD_COUNT) s

/-- Count, once each, the heads that wait for the ring or for a mark, and the commands that wait for budgets (R341, R352,
R449, R451). -/
def countHeld (s : State) : State :=
  (queueHeads s).foldl (fun s q =>
    let c := q.2
    if c.counted || headReady s c || !takeOpen s c then s
    else
      let s1 := modCmd s q.1 (fun c => { c with counted := true })
      match ioHold s c with
      | some .ring => ringWaits s1
      | some .mark => markWaits s1
      | _ => s1) (countBudgets s)

/-- CFE admits commands unless the power-loss sequence runs (R355), a mode entry is under way (R595), an activation holds
admission (R188) or the part is not serving. -/
def admitPump (s : State) : State :=
  if s.plRun.isSome || s.pwr.entry.isSome || s.fwHold.isSome || !(s.mode = .run || s.mode = .guard) then s
  else countHeld (takeAll s (s.cmds.filter (fun q => q.2.phase = .waiting)).length)

/-! ### Order (R164–R168, R254, R259) -/

/-- Two sector ranges overlap. -/
def overlaps (a b : Nat × Nat) : Bool := a.1 < b.1 + b.2 && b.1 < a.1 + a.2

/-- The sector ranges of two commands overlap; a Zone Append stands for its whole zone against a Zone Management Send. -/
def cmdsOverlap (n : Ns) (c d : Cmd) : Bool :=
  let isZm (c : Cmd) : Bool := match c.op with
    | .zmSend _ _ => true
    | _ => false
  let r (c d : Cmd) : List (Nat × Nat) :=
    if c.op = .append && isZm d then [(cmdZone n c * zoneSize n, zoneSize n)] else cmdRanges n c
  (r c d).any (fun a => (r d c).any (overlaps a))

/-- An earlier admitted command `d` holds back the dispatch of `c` in the same namespace. A write is acknowledged when its
completion has been posted, so until then the part holds it (R6, R165). -/
def holdsBack (n : Ns) (c d : Cmd) : Bool :=
  let acted := d.phase = .ready
  let gone := d.phase ≠ .admitted
  match d.op with
  | .zmSend _ _ => !acted && (c.op = .read || c.op.orders) && cmdsOverlap n c d
  | _ =>
    match c.op with
    | .read => d.op.orders && cmdsOverlap n c d
    | .zmSend 4 _ => ((d.op = .read && !gone) || d.op.orders) && cmdsOverlap n c d
    | .zmSend _ _ => !gone && cmdsOverlap n c d
    | _ =>
      if c.op.orders && !gone then
        cmdsOverlap n c d || (n.zoned && d.op.orders && cmdZone n c = cmdZone n d)
      else false

/-- A command waits for an earlier one. -/
def isHeldBack (s : State) (k : Nat) (c : Cmd) : Bool :=
  match c.nsk, c.nsk.bind (nsAt s) with
  | some slot, some n =>
    s.cmds.any (fun q => q.1 < k && q.2.nsk = some slot && q.2.phase ≠ .waiting && holdsBack n c q.2)
  | _, _ => false

/-! ### Reads (R246, R247, R292, R301) -/

/-- The map lookup of one sector. -/
def lookup (s : State) (k : Nat) (n : Ns) (lsa : Nat) : Place :=
  let z := zoneOf n (lsa / zoneSize n)
  if n.zoned && z.state ≠ .full && z.wp ≤ lsa % zoneSize n then .zeros
  else
    let mapped : Place := match entOf n lsa with
      | none => .zeros
      | some .unreadable => .fail stUnreadable
      | some .lost => .fail stDeferredLoss
      | some (.at pua sub) =>
        let sb := if n.zoned then lsa % 4 else sub
        match stagedAtPua s pua with
        | some (_, u) => (match u.cws.getD sb none with
          | some x => .staged x.sec
          | none => .zeros)
        | none => (match mget s.flash pua with
          | some cws => (match cws.getD sb .garbled with
            | .filler => if n.zoned then .zeros else .flash pua sb
            | _ => .flash pua sb)
          | none => .flash pua sb)
    match slotlessSector s k lsa with
    | some x => if n.zoned || entWseq s n lsa ≤ x.wseq then .staged x else mapped
    | none => mapped

/-- A sector of a Read is read from where its map lookup found it (R166). -/
def readAt (s : State) (k : Nat) (c : Cmd) (n : Ns) (o : Nat) (p : Place) : State :=
  match p with
  | .zeros => readGive s k o 0
  | .fail st => readFail s k o st
  | .staged x => readCipher s k o x
  | .flash pua sub => startClimb s pua sub n.cls c.deadline (.host k o)

/-- One sector of a Read is looked up in the map, through MCC (R573), and read from where it is. -/
def readOff (k : Nat) (c : Cmd) (slot : Nat) (n : Ns) (s0 : State) (o : Nat) : State :=
  let s := mapAccess slot (entIdx n (c.slba + o)) false s0
  let p := lookup s slot n (c.slba + o)
  readAt (modCmd s k (fun c => { c with places := mset c.places o p })) k c n o p

/-- A Read takes its map lookups. -/
def dispatchRead (s : State) (k : Nat) (c : Cmd) (slot : Nat) (n : Ns) : State :=
  let s1 := modCmd s k (fun c => { c with phase := .dispatched, left := List.range c.nlb })
  (List.range c.nlb).foldl (readOff k c slot n) s1

/-! ### Writes (R254–R262, R275, R293, R301, R476–R478) -/

/-- Put a staged sector into a unit's place. -/
def StUnit.put (u : StUnit) (sub : Nat) (x : StSec) : StUnit := { u with cws := u.cws.set sub (some x) }

/-- A new staged unit. -/
def newUnit (s : State) (u : StUnit) : State × Nat :=
  ({ s with staged := mset s.staged s.nextUnit u, nextUnit := s.nextUnit + 1 }, s.nextUnit)

/-- The unit of a sector was programmed already, with filler for that sector and those after it (R262). -/
def continues (n : Ns) (lsa : Nat) : Bool :=
  n.zoned && lsa % 4 ≠ 0 && (match entOf n lsa with
    | some (.at _ _) => true
    | _ => false)

/-- The staged sectors that a zoned unit placed anew copies from its old place (R262). -/
def earlierSectors (s : State) (n : Ns) (lsa : Nat) : List (Option StSec) :=
  (List.range 4).map (fun i => if i < lsa % 4 then
    (match entOf n lsa with
    | some (.at pua _) => (codewordAt s pua i).map (fun x => ⟨x, true, none⟩)
    | _ => none) else none)

/-- Stage one encrypted sector: it joins the partial unit of its namespace, or begins one; a full unit takes its slot. -/
def stageSector (s : State) (k : Nat) (n : Ns) (stream : Nat) (x : Sector) : State × Nat :=
  let joins (q : Nat × StUnit) : Bool := q.2.slot.isNone && !q.2.reloc && q.2.nsk = k &&
    (if n.zoned then q.2.unit = x.lsa / 4 else q.2.stream = stream && !q.2.isFull)
  let found := s.staged.find? joins
  let r : State × Nat := match found with
    | some (u, _) => (s, u)
    | none =>
      let old := if n.zoned && x.lsa % 4 ≠ 0 then earlierSectors s n x.lsa else [none, none, none, none]
      let s1 := if continues n x.lsa then bump s .zne 0 F.ZNE_UNIT_REPLACE else s
      newUnit s1 { nsk := k, dieSet := n.dieSet, stream := stream, zoned := n.zoned,
                   unit := if n.zoned then x.lsa / 4 else 0, cws := old }
  match stAt r.1 r.2 with
  | some u =>
    let sub := if n.zoned then x.lsa % 4 else (u.cws.findIdx (·.isNone))
    let u2 := u.put sub ⟨x, false, none⟩
    let s2 := { r.1 with staged := mset r.1.staged r.2 u2 }
    (if u2.isFull then placeUnit s2 r.2 else s2, r.2)
  | none => r

/-- Encrypt and stage the sectors of a command; answers the units that hold them. -/
def stageAll (s : State) (k : Nat) (n : Ns) (stream : Nat) : List Sector → List Nat → State × List Nat
  | [], us => (s, us)
  | x :: t, us =>
    let r := stageSector s k n stream x
    stageAll r.1 k n stream t (if us.contains r.2 then us else r.2 :: us)

/-- The records a command waits for name the counted slots of its units that hold none yet (R339, R348; log 30). -/
def stageExtents (s : State) (us : List Nat) : State :=
  us.foldl (fun s u => match stAt s u with
    | some x => if x.slot.isSome then s else (match countedSlot s u x with
      | some (h, sl) => (extentOf x h sl).foldl jExtent s
      | none => s)
    | none => s) s

/-- The sectors a command writes, encrypted under the key of their namespace, with LSA, write sequence, nonce and hints
(R407, R476–R478). -/
def cmdSectors (s : State) (k : Nat) (n : Ns) (c : Cmd) (slba : Nat) (nonce : Nat) : List Sector :=
  (List.range c.nlb).map (fun o =>
    let l := slba + o
    let x : Sector :=
    { nsk := k, lsa := l, wseq := c.wseq + o,
      nonce := if n.zoned then (zoneOf n (l / zoneSize n)).epoch * 2 ^ 32 + l % zoneSize n else nonce + o,
      conv := !n.zoned, zsize := if n.zoned then n.zsize else 0, cls := c.cls, life := c.life, group := c.group, rgen := 0 }
    x.sealed (mgetD s.nsKeys k 0) n.nsid (mgetD c.data o 0))

/-- Dispatch of a command that programs: its sectors are encrypted and staged, and it waits for its acknowledgement. While
HOLD_SENSE is low its units are programmed at once, as for FUA (R611). -/
def dispatchProgram (s : State) (k : Nat) (c : Cmd) (slot : Nat) (n : Ns) (slba dw0 dw1 : Nat) : State :=
  let stream := match dsAt s n.dieSet with
    | some d => streamOf d c.cls c.life c.group
    | none => 0
  let r := stageAll s slot n stream (cmdSectors s slot n c slba c.dw0) []
  let s1 := stageExtents (ensureBand r.1 n.dieSet stream).1 r.2
  let s2 := if c.fua || s.holdLow then forceUnits s1 r.2.reverse else s1
  let enc := bumpBy s2 .csx 0 F.CSX_SECT_ENC_COUNT c.nlb
  modCmd enc k (fun c => { c with
    phase := .dispatched, slba := slba, units := r.2, recNo := jCount s2, dw0 := dw0, dw1 := dw1, data := [] })

/-- A command ends at its dispatch with a status. -/
def dispatchFail (s : State) (k : Nat) (st : Status) : State := finishCmd s k st 0 0

/-- ZNE takes a write to a zone: state, range, write pointer, then the offsets and the new write pointer in one step
(R245, R252, R254–R258). -/
def dispatchZoneWrite (s : State) (k : Nat) (c : Cmd) (slot : Nat) (n : Ns) : State :=
  let z := cmdZone n c
  let x := zoneOf n z
  let off := if c.op = .append then x.wp else c.slba % zoneSize n
  match zoneWriteState s c.par n z with
  | some st => dispatchFail s k st
  | none =>
    if zoneSize n < off + c.nlb then dispatchFail s k stZoneBoundary
    else if off ≠ x.wp then dispatchFail (bump s .zne 0 F.ZNE_ZIW) k stZoneInvalidWrite
    else
      let wp := x.wp + c.nlb
      let st : ZState := if wp = zoneSize n then .full else if x.state.isOpen then x.state else .implicit
      let slba := z * zoneSize n + off
      let s1 := setZone s slot z { x with wp := wp, state := st }
      match nsAt s1 slot with
      | some n1 => dispatchProgram s1 k c slot n1 slba (if c.op = .append then slba % 2 ^ 32 else 0)
          (if c.op = .append then slba / 2 ^ 32 else 0)
      | none => s1

/-- Staged sectors of a conventional range that hold no slot are superseded by a deallocation. -/
def dropSlotless (s : State) (k first n : Nat) : State :=
  { s with staged := (s.staged.map (fun q =>
      if q.2.nsk = k && q.2.slot.isNone && !q.2.zoned && !q.2.reloc then
        (q.1, { q.2 with cws := q.2.cws.map (fun x => x.bind (fun x =>
          if first ≤ x.sec.lsa && x.sec.lsa < first + n then none else some x)) })
      else q)) }

/-- Deallocate one range: its entries become unmapped, and DEALLOC and SEQ are staged as a pair (R294, R336). -/
def deallocRange (s : State) (k : Nat) (wseq first n : Nat) : State :=
  let s1 := migTouchRange s k (first / 4) ((first + n + 3) / 4 - first / 4)
  let s2 := modNs (dropSlotless s1 k first n) k (fun m =>
    { m.soil (jCount s) first n with map := mdelRange m.map first n })
  jStage s2 [.dealloc k first n, .seq wseq]

/-- Deallocate the ranges of a command, each under its own write sequence. -/
def deallocAll (s : State) (k wseq : Nat) : List (Nat × Nat) → State
  | [] => s
  | r :: t => deallocAll (deallocRange s k wseq r.1 r.2) k (wseq + 1) t

/-- Dispatch of a deallocation: it completes when its records are in the ring (R339). -/
def dispatchDealloc (s : State) (k : Nat) (c : Cmd) (slot : Nat) (rs : List (Nat × Nat)) : State :=
  let s1 := deallocAll s slot c.wseq rs
  modCmd s1 k (fun c => { c with phase := .dispatched, recNo := jCount s1, dw0 := 0 })

/-! ### Flush (R171, R172) -/

/-- Staged units that hold acknowledged data of a namespace and whose paired word-line group is not complete. -/
def ackedUnits (s : State) (slots : List Nat) : List Nat :=
  (s.staged.filter (fun q => slots.contains q.2.nsk && !q.2.complete && !q.2.reloc && !q.2.stale && q.2.secs.any (fun p => p.2.acked))).map
    Prod.fst

/-- Dispatch of a Flush, which is its admission. -/
def dispatchFlush (s : State) (k : Nat) (c : Cmd) : State :=
  let us := ackedUnits s (cmdSlots s c)
  let s1 := forceUnits s us
  modCmd s1 k (fun c => { c with phase := .dispatched, units := us, dw0 := 0 })

/-! ### Zone management (R243, R244, R246, R248–R250, R338, R339) -/

/-- Zones a Select All action applies to (R244; the ZNS Command Set's states, log 7). -/
def selectAll (n : Ns) (a : Nat) : List Nat :=
  (n.zones.filter (fun z => match a with
    | 1 => z.2.state.isOpen
    | 2 => z.2.state.isActive
    | 3 => z.2.state = .closed
    | 4 => z.2.state.isActive || z.2.state = .full
    | 5 => z.2.state = .readOnly
    | _ => false)).map Prod.fst

/-- The staged partial unit of a zone, if it has one. -/
def partialOf (s : State) (k : Nat) (n : Ns) (z : Nat) : List Nat :=
  let lo := z * zoneSize n / 4
  (s.staged.filter (fun q => q.2.nsk = k && q.2.slot.isNone && q.2.zoned && !q.2.reloc && lo ≤ q.2.unit &&
    q.2.unit < lo + zoneSize n / 4)).map Prod.fst

/-- One zone's action: Open and Close take effect at once, the others once their ZONE record is in the ring. A closed zone
holds only its descriptor, so its partial unit is programmed with filler (R253, R261; log 168). -/
def zoneDo (s : State) (slot : Nat) (a z : Nat) : State :=
  match nsAt s slot with
  | some n =>
    let x := zoneOf n z
    (match a with
    | 1 =>
      if x.state.isOpen then
        forceUnits (setZone s slot z { x with state := if x.wp = 0 then .empty else .closed }) (partialOf s slot n z)
      else s
    | 3 => setZone s slot z { x with state := .explicit }
    | 2 =>
      if x.state = .full then s
      else
        let s1 := jStage s [.zone slot z x.epoch 2]
        { s1 with jr := { s1.jr with acts := s1.jr.acts ++ [(jCount s1, .zoneFinish slot z)] } }
    | 4 =>
      if x.state = .empty then s
      else
        let last := x.epoch + 1 = 0xFFFFFFFF
        let s1 := jStage s [.zone slot z (x.epoch + 1) (if last then 4 else 1)]
        { s1 with jr := { s1.jr with acts := s1.jr.acts ++ [(jCount s1, if last then .zoneReadOnly slot z else .zoneReset slot z)] } }
    | _ =>
      if x.state = .offline then s
      else
        let s1 := jStage s [.zone slot z x.epoch 3]
        { s1 with jr := { s1.jr with acts := s1.jr.acts ++ [(jCount s1, .zoneOffline slot z)] } })
  | none => s

/-- Select All Open needs room for every Closed zone. -/
def openAllLimit (s : State) (p : TParams) (n : Ns) (zs : List Nat) : Option Status :=
  if p.openZones < openUsed s n.tenant + zs.length then some stTooManyOpen else none

/-- Dispatch of a Zone Management Send. -/
def dispatchZone (s : State) (k : Nat) (slot : Nat) (n : Ns) (c : Cmd) (a : Nat) (all : Bool) : State :=
  let zs := if all then selectAll n a else [cmdZone n c]
  match (if all then (if a = 3 then openAllLimit s c.par n zs else none) else zoneAction s c.par n a (cmdZone n c)) with
  | some st => dispatchFail s k st
  | none =>
    let before := jCount s
    let s1 := zs.foldl (fun s z => zoneDo s slot a z) s
    if jCount s1 = before then finishCmd s1 k stOk 0 0
    else modCmd s1 k (fun c => { c with phase := .dispatched, recNo := jCount s1, dw0 := 0 })

/-- The state code of a zone descriptor (the ZNS Command Set's Zone State encodings, log 7). -/
def ZState.code : ZState → Nat
  | .empty => 1
  | .implicit => 2
  | .explicit => 3
  | .closed => 4
  | .readOnly => 0xD
  | .full => 0xE
  | .offline => 0xF

/-- A reporting filter of Report Zones accepts a state (the ZNS Command Set's reporting options, log 7). -/
def zraAccepts (f : Nat) (z : ZState) : Bool :=
  match f with
  | 0 => true
  | 1 => z = .empty
  | 2 => z = .implicit
  | 3 => z = .explicit
  | 4 => z = .closed
  | 5 => z = .full
  | 6 => z = .readOnly
  | _ => z = .offline

/-- A 64-byte zone descriptor of Report Zones: type, state, capacity, start, write pointer. -/
def zoneDescriptor (n : Ns) (z : Nat) : List Nat :=
  let x := zoneOf n z
  zeroOverlay 64 [(0, 1, 2), (1, 1, x.state.code * 16), (8, 8, zoneSize n), (16, 8, z * zoneSize n),
    (24, 8, z * zoneSize n + x.wp)]

/-- Report Zones: the zones from that of SLBA on that the filter accepts, as many as the data buffer holds, after the
number of zones reported, or with partial report clear of all matching zones (R241; log 7). -/
def dispatchReport (s : State) (k : Nat) (n : Ns) (c : Cmd) : State :=
  let f := bitsOf (c.dwords.getD 3 0) 15 8
  let part := bitsOf (c.dwords.getD 3 0) 16 16 = 1
  let bytes := (c.dwords.getD 2 0 + 1) * 4
  let zs := (List.range (zoneCount n)).filter (fun z => cmdZone n c ≤ z && zraAccepts f (zoneOf n z).state)
  let fit := zs.take ((bytes - 64) / 64)
  let head := zeroOverlay 64 [(0, 8, if part then fit.length else zs.length)]
  let d := (head ++ (fit.map (zoneDescriptor n)).flatten).take bytes
  modCmd (finishCmd s k stOk 0 0) k (fun c => { c with data := (List.range d.length).zip d })

/-! ### Dispatch -/

/-- A command passes its dispatch point (R182). -/
def dispatch (s : State) (k : Nat) (c : Cmd) : State :=
  match c.op with
  | .flush => dispatchFlush s k c
  | .abort => s
  | op =>
    match c.nsk, c.nsk.bind (nsAt s) with
    | some slot, some n =>
      (match op with
      | .read => (match zoneRefuses s n c with
        | some st => dispatchFail s k st
        | none => dispatchRead s k c slot n)
      | .dsm => if bitsOf (c.dwords.getD 1 0) 2 2 = 1 then dispatchDealloc s k c slot c.ranges else finishCmd s k stOk 0 0
      | .zmSend a all => dispatchZone s k slot n c a all
      | .zmRecv => dispatchReport s k n c
      | .writeZeroes deac =>
        if n.zoned then dispatchZoneWrite s k c slot n
        else if deac then dispatchDealloc s k c slot [(c.slba, c.nlb)]
        else dispatchProgram s k c slot n c.slba 0 0
      | .append => dispatchZoneWrite s k c slot n
      | .write => if n.zoned then dispatchZoneWrite s k c slot n else dispatchProgram s k c slot n c.slba 0 0
      | _ => s)
    | _, _ => delCmd s k

/-- Dispatch, in admission order, every admitted command that nothing holds back; a read held back is counted once
(R165), and so is a command whose records wait for the ring (R341). -/
def dispatchPump (s : State) : State :=
  (s.cmds.filter (fun q => q.2.phase = .admitted)).foldl (fun s q => match mget s.cmds q.1 with
    | some c =>
      if c.phase ≠ .admitted || c.op = .abort then s
      else if isHeldBack s q.1 c then
        (if c.op = .read && !c.counted then
          bump (modCmd s q.1 (fun c => { c with counted := true })) .qeng 0 F.QENG_READ_HELD else s)
      else if c.records && ringHeld s then
        (if c.counted then s
         else ringWaits (modCmd s q.1 (fun c => { c with counted := true })))
      else dispatch (modCmd s q.1 (fun c => { c with counted := false })) q.1 { c with counted := false }
    | none => s) s

/-! ### Acknowledgement (R170, R171, R339, R348, R611) -/

/-- The ack window W in sectors: WIN_GIB, at most the board maximum; 0 while HOLD_SENSE is low (R348, R611). -/
def windowSectors (s : State) : Nat :=
  if s.holdLow then 0
  else
    let w := max 1 (getF s .pwr 0 F.PWR_ACK_CTRL_WIN_GIB)
    min w (max 1 (getF s .pwr 0 F.PWR_ACK_CTRL_BOARD_MAX)) * 262144

/-- Every unit of a list has its paired word-line group complete. -/
def unitsDone (s : State) (us : List Nat) : Bool :=
  us.all (fun u => match stAt s u with
    | some x => x.complete
    | none => true)

/-- Mark the sectors of a command acknowledged. -/
def markAcked (s : State) (c : Cmd) : State :=
  let hit (x : StSec) : Bool := some x.sec.nsk = c.nsk && c.wseq ≤ x.sec.wseq && x.sec.wseq < c.wseq + c.nlb
  { s with nextAck := s.nextAck + 1,
           staged := s.staged.map (fun q =>
             if q.2.cws.any (fun x => match x with
               | some x => hit x
               | none => false) then
               (q.1, { q.2 with
                 cws := q.2.cws.map (fun x => x.map (fun x => if hit x then { x with acked := true } else x)),
                 firstAck := some (q.2.firstAck.getD s.nextAck) })
             else q) }

/-- The acknowledged data of the part and of each flash die aimed at stay within their limits (R348). -/
def ackFits (s : State) : Bool :=
  decide (ackedSectors s ≤ windowSectors s) && (overDies s).isEmpty

/-- PEAK_MIB follows the acknowledged data (R363). -/
def ackPeak (s : State) : State :=
  let mib := min F.MRJ_ACK_STAT_PEAK_MIB.max (ceilDiv (ackedSectors s) 256)
  if getF s .mrj 0 F.MRJ_ACK_STAT_PEAK_MIB < mib then setF s .mrj 0 F.MRJ_ACK_STAT_PEAK_MIB mib else s

/-- Acknowledge a dispatched command when it may be. -/
def ackOne (s : State) (k : Nat) (c : Cmd) : State :=
  match c.op with
  | .flush => if unitsDone s c.units then finishCmd s k stOk 0 0 else s
  | .read => s
  | .abort => s
  | _ =>
    if s.jr.head < c.recNo then s
    else if programs (cmdZoned s c) c.op then
      if c.fua then (if unitsDone s c.units then finishCmd (markAcked s c) k c.st c.dw0 c.dw1 else s)
      else
        let s1 := markAcked s c
        if ackFits s1 then finishCmd (ackPeak s1) k c.st c.dw0 c.dw1
        else if c.counted then s
        else bump (modCmd s k (fun c => { c with counted := true })) .mrj 0 F.MRJ_HOLDS_WINDOW
    else finishCmd s k c.st c.dw0 c.dw1

/-- Acknowledge, in admission order, what may be; nothing once the power-loss sequence has begun (R355). -/
def ackPump (s : State) : State :=
  if s.plRun.isSome then s
  else (s.cmds.filter (fun q => q.2.phase = .dispatched)).foldl (fun s q => match mget s.cmds q.1 with
    | some c => if c.phase = .dispatched then ackOne s q.1 c else s
    | none => s) s

/-- Blocks that may be erased are; staged units that wait take slots as bands allow; full program units go to Cirrus. -/
def placePump (s : State) : State :=
  let s0 := askErases s
  let s1 := (((s0.staged.filter (fun q => q.2.isReady)).map (fun q => (q.2.dieSet, q.2.stream))).eraseDups).foldl
    (fun s p => placeStream s p.1 p.2) s0
  (s1.bands.filter (fun q => !q.2.slots.isEmpty)).foldl (fun s q => sendBand s q.1) s1

/-- Everything that follows when room, order or records change: admission, dispatch, placement, acknowledgement, and the
reads that an acknowledgement lets go. -/
def pump (s : State) : State := dispatchPump (ackPump (placePump (dispatchPump (admitPump s))))

end Sys2Proof.Machine
end

