-- ==== Sys2Proof/Machine/RecOps.lean ====
section
/-! DEFINITION. The operations of the event recorder and of usage metering: contributions, records, periods, freezes,
clears, minutes (18_recorder_and_metering.md R643–R664). -/

namespace Sys2Proof.Machine

/-! ### Records (R648, R651, R652) -/

/-- A record of one value coalesces into the last one of its ring when kind and subject agree and it falls within
FLOOD_S (R651). -/
def mergeRec (s : State) (last r : RecRec) : Option RecRec :=
  if (r.kind = 5 ∨ r.kind = 6) ∧ last.kind = r.kind ∧ last.subject = r.subject ∧
      r.pos ≤ last.pos + last.span + getF s .recd 0 F.REC_CFG_FLOOD_S then
    some { last with
      again := min 0xFFFF (last.again + 1 + r.again), span := min 0xFFFFFF (r.pos + r.span - last.pos),
      body := if r.kind = 5 then [r.body.getD 0 0, last.body.getD 1 0] else [max (last.body.getD 0 0) (r.body.getD 0 0)] }
  else none

/-- Add a record to a ring of a size, coalescing; a full ring drops its oldest record. -/
def ringAdd (s : State) (size : Nat) (d : Recorder) (r : RecRec) : Recorder :=
  match d.ring.getLast?.bind (fun l => mergeRec s l r) with
  | some m => { d with ring := d.ring.dropLast ++ [m] }
  | none => { d with ring := (if size ≤ d.ring.length then d.ring.drop 1 else d.ring) ++ [r], next := (d.next + 1) % size }

/-- A record of the device recorder; a freeze holds up to 64 and drops the rest (R652). -/
def devAdd (s : State) (r : RecRec) : State :=
  let d := s.recd
  if d.frozenAt.isSome then
    match d.held.getLast?.bind (fun l => mergeRec s l r) with
    | some m => { s with recd := { d with held := d.held.dropLast ++ [m] } }
    | none =>
      if d.held.length < 64 then { s with recd := { d with held := d.held ++ [r] } }
      else raise (bump { s with recd := { d with dropped := min 0xFFFFFFFF (d.dropped + 1) } } .recd 0 F.REC_DROPPED_COUNT)
        .recd 0 F.REC_INT_RAW_DROP
  else { s with recd := ringAdd s 4080 d r }

/-- A record of one kind and subject made now. -/
def mkRec (s : State) (kind subject : Nat) (body : List Int) : RecRec := ⟨kind, subject, 0, s.pos, 0, s.pcyc, body⟩

/-- A tenant's recorder. -/
def trec (s : State) (t : Nat) : Recorder := mgetD s.trecs t {}

/-- Change a tenant's recorder. -/
def modTrec (s : State) (t : Nat) (f : Recorder → Recorder) : State := { s with trecs := mput s.trecs t {} (f (trec s t)) }

/-- A record of a tenant's recorder. -/
def tenAdd (s : State) (t : Nat) (r : RecRec) : State := modTrec s t (fun d => ringAdd s 22 d r)

/-- Change the live state of the device recorder. -/
def modLive (s : State) (f : RecLive → RecLive) : State := { s with recd := { s.recd with live := f s.recd.live } }

/-! ### Contributions (R646, R650) -/

/-- A count rises by 1 and saturates. -/
def tally (m : FMap Nat) (k : Nat) : FMap Nat := mset m k (min 0xFFFFFFFF (mgetD m k 0 + 1))

/-- The bin of a latency in µs (R650). -/
def latBin (us : Nat) : Nat :=
  if us < 16 then 0
  else if 131072 ≤ us then 47
  else if 65536 ≤ us then 46
  else if 32768 ≤ us then 45
  else let k := Nat.log2 us - 4; 4 * k + (us / 2 ^ (k + 2) - 4) + 1

/-- A read's latency is passed to REC with its class (R452, R650). -/
def recLatency (s : State) (t cls us : Nat) : State :=
  let add (l : RecLive) : RecLive := { l with
    lat := tally l.lat (cls * 48 + latBin us), latMax := mset l.latMax cls (max us (mgetD l.latMax cls 0)) }
  let oldD := mgetD s.recd.live.latMax cls 0
  let oldT := mgetD (trec s t).live.latMax cls 0
  let s1 := modLive s add
  let s2 := if oldD < us then devAdd s1 (mkRec s1 5 (0x20 + cls) [Int.ofNat us, Int.ofNat oldD]) else s1
  let s3 := modTrec s2 t (fun d => { d with live := add d.live })
  if oldT < us then tenAdd s3 t (mkRec s3 5 (0x20 + cls) [Int.ofNat us, Int.ofNat oldT]) else s3

/-- A deadline miss of a class (R651). -/
def recMiss (s : State) (t cls us : Nat) : State :=
  tenAdd (devAdd s (mkRec s 6 cls [Int.ofNat us])) t (mkRec s 6 cls [Int.ofNat us])

/-- Bin of a temperature in units of 1/128 °C (R650). -/
def tempBin (eff128 : Int) : Nat :=
  if eff128 < 20 * 128 then 0
  else if 110 * 128 ≤ eff128 then 31
  else ((eff128 - 17 * 128) / (3 * 128)).toNat

/-- An effective reading of a channel of a group, in units of 1/u °C (R639). -/
def recTemp (s : State) (g : Nat) (eff : Int) (u : Int) : State :=
  let l := s.recd.live
  let hi := mget l.hi g
  let lo := mget l.lo g
  let beatsHi : Bool := match hi with | some v => decide (v < eff) | none => true
  let beatsLo : Bool := match lo with | some v => decide (eff < v) | none => true
  let s1 := modLive s (fun l => { l with
    temp := tally l.temp (g * 32 + tempBin (eff * 128 / u)),
    hi := if beatsHi then mset l.hi g eff else l.hi, lo := if beatsLo then mset l.lo g eff else l.lo })
  let s2 := if beatsHi then devAdd s1 (mkRec s1 5 g [eff, hi.getD (-32768)]) else s1
  if beatsLo then devAdd s2 (mkRec s2 5 (0x10 + g) [eff, lo.getD 32767]) else s2

/-- An armed sample of a supply input in mV. -/
def recSupply (s : State) (i mv : Nat) : State :=
  let old := mgetD s.recd.live.supLow i 0xFFFF
  let s1 := modLive s (fun l => { l with
    supMin := mset l.supMin i (min mv (mgetD l.supMin i 0xFFFF)),
    supLow := if mv < old then mset l.supLow i mv else l.supLow })
  if mv < old then devAdd s1 (mkRec s1 5 (0x30 + i) [Int.ofNat mv, Int.ofNat old]) else s1

/-- An erase count. -/
def recErase (s : State) (n : Nat) : State :=
  let old := s.recd.live.eraseMax
  if old < n then devAdd (modLive s (fun l => { l with eraseMax := n })) (mkRec s 5 0x50 [Int.ofNat n, Int.ofNat old]) else s

/-! ### Periods, copies, freezes, clears (R643, R651–R655) -/

/-- The erase histogram over the good blocks of the flash dies in service (R650). -/
def eraseHist (s : State) : List Int :=
  let w := 16 * max 1 (getF s .recd 0 F.REC_CFG_ERASE_W)
  let dies := (s.dies.filter (fun q => q.2.st ≠ .absent && !dieOut s q.1)).map Prod.fst
  let total := (dies.map (blocksOf s)).sum
  let listed := s.blks.filter (fun q => dies.contains (q.1 / 8192))
  let bins : FMap Nat := (listed.filter (fun q => !q.2.bad)).foldl (fun m q => tally m (min 31 (q.2.erases / w))) []
  ((List.range 32).map (fun i => Int.ofNat (mgetD bins i 0 + if i = 0 then total - listed.length else 0))) ++ [Int.ofNat w]

/-- Counts `k` to `k + n - 1` of a histogram. -/
def counts (m : FMap Nat) (k n : Nat) : List Int := (List.range n).map (fun i => Int.ofNat (mgetD m (k + i) 0))

/-- Groups that hold an enabled channel. -/
def liveGroups (groups : List Nat) : List Nat := groups.eraseDups.mergeSort (fun a b => decide (a ≤ b))

/-- The device period closes (R651): the records of its histograms in order, then empty histograms. -/
def periodClose (s : State) (groups : List Nat) : State :=
  let l := s.recd.live
  let s1 := (liveGroups groups).foldl (fun s g => devAdd s (mkRec s 1 g (counts l.temp (g * 32) 32))) s
  let s2 := (List.range 3).foldl (fun s c => devAdd s (mkRec s 2 c (counts l.lat (c * 48) 48))) s1
  let s3 := devAdd s2 (mkRec s2 3 0 ((List.range 19).map (fun i => Int.ofNat (mgetD l.supMin i 0xFFFF))))
  let s4 := devAdd s3 (mkRec s3 4 0 (eraseHist s3))
  modLive s4 (fun l => { l with temp := [], lat := [], supMin := [] })

/-- REC copies its live state to MRAM once per second; a freeze keeps back all of the device recorder's but POS and
PCYC. -/
def recCopy (s : State) : State :=
  let d := s.recd
  { s with
    recd := { d with savedPos := s.pos, savedPcyc := s.pcyc, saved := if d.frozenAt.isSome then d.saved else d.live },
    trecs := s.trecs.map (fun q => (q.1, { q.2 with saved := q.2.live })) }

/-- A freeze begins: RD_SEL returns to 0. -/
def recFreeze (s : State) : State :=
  if s.recd.frozenAt.isSome then s
  else setF (setF { s with recd := { s.recd with frozenAt := some s.now } } .recd 0 F.REC_HOLD_FREEZE 1) .recd 0 F.REC_RD_SEL_WORD 0

/-- A freeze ends: the held records are written and the copy resumes. -/
def recUnfreeze (s : State) : State :=
  if s.recd.frozenAt.isNone then s
  else
    let held := s.recd.held
    let s1 := setF { s with recd := { s.recd with frozenAt := none, held := [] } } .recd 0 F.REC_HOLD_FREEZE 0
    held.foldl devAdd s1

/-- The live state of a recorder right after a clear. -/
def clearedLive (s : State) : RecLive := { clearPos := s.pos }

/-- A clear of the device recorder (R654). -/
def recClear (s : State) : State :=
  { s with recd := { s.recd with live := clearedLive s, saved := clearedLive s, ring := [], next := 0, held := [] } }

/-- A clear of a tenant's recorder (R234, R654). -/
def trecClear (s : State) (t : Nat) : State :=
  { s with trecs := mset s.trecs t { live := clearedLive s, saved := clearedLive s } }

/-- After a reset the recorders hold what MRAM holds (R655). -/
def recReset (s : State) : State :=
  { s with recd := { s.recd with live := s.recd.saved, held := [], frozenAt := none },
           trecs := s.trecs.map (fun q => (q.1, { q.2 with live := q.2.saved, held := [] })) }

/-! ### Metering (R656–R661) -/

/-- Wall time in seconds, while it is set. -/
def wallNow (s : State) : Option Nat := s.aon.wall.map (fun w => w.1 + (s.now - w.2) / 1000000000)

/-- METER_EN of a tenant (R211). -/
def meterEn (t : Tenant) : Bool := t.par.flags / 4 % 2 = 1

/-- A tenant's minute. -/
def acc (s : State) (t : Nat) : MtrAcc := mgetD s.meter.accs t {}

/-- Change a tenant's minute. -/
def modAcc (s : State) (t : Nat) (f : MtrAcc → MtrAcc) : State :=
  { s with meter := { s.meter with accs := mset s.meter.accs t (f (acc s t)) } }

/-- Add to a per-class sum. -/
def addTo (m : FMap Nat) (k n : Nat) : FMap Nat := mset m k (mgetD m k 0 + n)

/-- A command of a tenant completed with an entry (R657, R658). -/
def meterIo (s : State) (t cls sect : Nat) (missed : Bool) : State :=
  modAcc s t (fun a => { a with
    sect := addTo a.sect cls sect, ios := addTo a.ios cls 1,
    miss := if missed then mset a.miss cls (min 0xFFFF (mgetD a.miss cls 0 + 1)) else a.miss })

/-- Occupied units of a tenant, rounded up (R657). -/
def unitsOf (s : State) (t : Nat) : Nat :=
  let l := ((s.nss.filter (fun q => q.2.tenant = t)).map (fun q =>
    (q.2.map.filter (fun e => match e.2 with
      | .at _ _ => true
      | _ => false)).length * (if q.2.zoned then 4 else 1))).sum
  ceilDiv l 4

/-- A second boundary for metering: the seconds are those of POS. -/
def meterSecond (s : State) : State :=
  { s with meter := { s.meter with accs := (s.tenants.filter (fun q => q.2.state ≠ .free)).foldl (fun m q =>
      let a := mgetD m q.1 {}
      mset m q.1 { a with unitSec := a.unitSec + unitsOf s q.1, zones := max a.zones (activeUsed s q.1) }) s.meter.accs } }

/-- Bytes 0–47 of a metering record (R657). -/
def mtrBody (r : MtrRec) : List Nat :=
  leBytes 2 r.flags ++ leBytes 4 r.seq ++ leBytes 4 r.minute
    ++ ((List.range 3).map (fun c => leBytes 4 (mgetD r.sect c 0))).flatten
    ++ ((List.range 3).map (fun c => leBytes 4 (mgetD r.ios c 0))).flatten
    ++ ((List.range 3).map (fun c => leBytes 2 (mgetD r.miss c 0))).flatten
    ++ leBytes 6 r.unitSec ++ leBytes 2 r.zones

/-- A metering record takes its tag under MK and a generation (R658). -/
def mtrTagged (e : Option Enroll) (g t : Nat) (r : MtrRec) : MtrRec :=
  { r with gen := g, tag := match e with
      | some e => gmac (meterKey e) (leBytes 2 t ++ leBytes 4 r.seq ++ leBytes 4 g ++ [0, 0]) (mtrBody r)
      | none => List.replicate 16 0 }

/-- A metering record as its 64 bytes. -/
def mtrBytes (r : MtrRec) : List Nat := mtrBody r ++ r.tag

/-- A record is closed for a tenant: TF with its flags (RESTART where it is the tenant number's first since the reset), then
an empty minute; a full ring drops its oldest record, counted when no METER_READ had returned it (R659, R660). -/
def closeRec (s : State) (t minute : Nat) (last part : Bool) : State :=
  let a := acc s t
  let ring := mgetD s.meter.rings t []
  let seq := mgetD s.meter.seqs t 0
  let r : MtrRec := mtrTagged s.mfEnroll (getF s .mtr 0 F.MTR_MK_GEN_GEN) t {
    flags := t + a.first.toNat * 512 + last.toNat * 1024 + (part || a.part).toNat * 2048 + a.timeSet.toNat * 4096 +
      (!s.meter.closed.contains t).toNat * 8192,
    seq := seq, minute := minute, sect := a.sect, ios := a.ios, miss := a.miss, unitSec := a.unitSec, zones := a.zones,
    gen := 0, tag := [], read := false }
  let full := 60 ≤ ring.length
  let lost := full && !(ring.headD r).read
  let s1 := { s with meter := { s.meter with
    seqs := mset s.meter.seqs t (seq + 1),
    rings := mset s.meter.rings t ((if full then ring.drop 1 else ring) ++ [r]),
    accs := mset s.meter.accs t { first := false, part := false },
    closed := if s.meter.closed.contains t then s.meter.closed else t :: s.meter.closed } }
  let s2 := bump s1 .mtr 0 F.MTR_CLOSED_COUNT
  if lost then raise (bump s2 .mtr 0 F.MTR_OVERWRITTEN_COUNT) .mtr 0 F.MTR_INT_RAW_OVERWRITE else s2

/-- The tenants a minute closes for (R656). -/
def metered (s : State) : List Nat :=
  if s.aon.wall.isSome ∧ getF s .mtr 0 F.MTR_STAT_MK_READY = 1 then
    (s.tenants.filter (fun q => q.2.state ≠ .free && meterEn q.2)).map Prod.fst
  else []

/-- A minute's counts are dropped and counting starts again. -/
def MtrAcc.fresh (a : MtrAcc) : MtrAcc :=
  { a with sect := [], ios := [], miss := [], unitSec := 0, zones := 0, part := false, timeSet := false }

/-- A minute ends: its records are closed, and every tenant's counting starts again. A minute that was in progress at a reset
yields no record (R656). -/
def closeMinute (s : State) (minute : Nat) (part : Bool) : State :=
  let ts := if s.meter.void = some minute then [] else metered s
  let s1 := ts.foldl (fun s t => closeRec s t minute false part) s
  { s1 with meter := { s1.meter with void := none, accs := s1.meter.accs.map (fun (q : Nat × MtrAcc) =>
      if ts.contains q.1 then q else (q.1, q.2.fresh)) } }

/-- A minute ends in DOZE or HOLD: it is noted with what it counted. -/
def noteMinute (s : State) (minute : Nat) : State :=
  { s with meter := { s.meter with noted := s.meter.noted ++ [(minute, s.meter.accs)],
                                   accs := s.meter.accs.map (fun (q : Nat × MtrAcc) => (q.1, q.2.fresh)) } }

/-- SEQ advances past skipped minutes (R661). -/
def skipSeq (s : State) (t n : Nat) : State :=
  { s with meter := { s.meter with seqs := mset s.meter.seqs t (mgetD s.meter.seqs t 0 + n) } }

/-- Counts of which a FIRST record may be closed only where `now` still awaits one. -/
def keepFirst (now : FMap MtrAcc) (m : FMap MtrAcc) : FMap MtrAcc :=
  m.map (fun q => (q.1, { q.2 with first := q.2.first && (mgetD now q.1 {}).first }))

/-- On a wake, the minutes that passed in DOZE or HOLD are closed in order, the last 60 of them (R661). -/
def closeNoted (s : State) : State :=
  let m := s.meter.noted
  let cur := s.meter.accs
  let skip := m.length - 60
  let s1 := { s with meter := { s.meter with noted := [] } }
  let s2 := if skip = 0 then s1 else (metered s1).foldl (fun s t => skipSeq s t skip) s1
  let s3 := (m.drop skip).foldl (fun (s : State) (x : Nat × FMap MtrAcc) =>
    closeMinute { s with meter := { s.meter with accs := keepFirst s.meter.accs x.2 } } x.1 false) s2
  { s3 with meter := { s3.meter with accs := keepFirst s3.meter.accs cur } }

/-! ### Images (R646, R647, R657) -/

/-- A signed 16-bit number as two bytes. -/
def i16 (v : Int) : Nat := (v % 65536).toNat

/-- A record's header and body, each body number in `w` bytes. -/
def recBytes (r : RecRec) : List Nat :=
  let w := if r.kind = 3 then 2 else 4
  leBytes 1 r.kind ++ leBytes 1 r.subject ++ leBytes 2 r.again ++ leBytes 5 r.pos ++ leBytes 3 r.span ++ leBytes 4 r.pcyc ++
    (r.body.map (fun v => leBytes w (v % 2 ^ (8 * w)).toNat)).flatten

/-- Slots of a ring's records: the newest lies just below `next`. -/
def ringSlots (d : Recorder) (size : Nat) : List (Nat × RecRec) :=
  ((List.range d.ring.length).map (fun i => (d.next + size - d.ring.length + i) % size)).zip d.ring

/-- Fields of the device recorder image (R646): offset, size, value. -/
def devFields (d : Recorder) : List (Nat × Nat × Nat) :=
  let l := d.saved
  [(0, 8, d.savedPos), (8, 4, d.savedPcyc), (12, 4, d.ring.length), (16, 4, d.next), (20, 4, d.dropped), (24, 8, l.clearPos)]
  ++ (List.range 16).map (fun g => (0x20 + 4 * g, 2, i16 (mgetD l.hi g (-32768))))
  ++ (List.range 16).map (fun g => (0x22 + 4 * g, 2, i16 (mgetD l.lo g 32767)))
  ++ (List.range 3).map (fun c => (0x60 + 4 * c, 4, mgetD l.latMax c 0)) ++ [(0x6C, 4, l.eraseMax)]
  ++ (List.range 19).map (fun i => (0x70 + 2 * i, 2, mgetD l.supLow i 0xFFFF))
  ++ (List.range 19).map (fun i => (0x100 + 2 * i, 2, mgetD l.supMin i 0xFFFF))
  ++ l.lat.map (fun q => (0x180 + 4 * q.1, 4, q.2)) ++ l.temp.map (fun q => (0x3C0 + 4 * q.1, 4, q.2))
  ++ ((ringSlots d 4080).map (fun q => ((List.range 256).zip (recBytes q.2)).map (fun b => (0x1000 + 256 * q.1 + b.1, 1, b.2)))).flatten

/-- The byte of an image of fields at an offset. -/
def fieldByte (fs : List (Nat × Nat × Nat)) (off : Nat) : Nat :=
  match fs.find? (fun f => f.1 ≤ off && off < f.1 + f.2.1) with
  | some f => f.2.2 / 256 ^ (off - f.1) % 256
  | none => 0

/-- The word of the device recorder image at a byte offset (RD_DATA). -/
def devWord (s : State) (off : Nat) : Nat := ofLe ((List.range 4).map (fun i => fieldByte (devFields s.recd) (off + i)))

/-- Fields of a tenant recorder (R647). -/
def tenFields (d : Recorder) : List (Nat × Nat × Nat) :=
  let l := d.saved
  [(0, 8, l.clearPos), (8, 4, d.ring.length), (12, 4, d.next)]
  ++ (List.range 3).map (fun c => (16 + 4 * c, 4, mgetD l.latMax c 0)) ++ l.lat.map (fun q => (64 + 4 * q.1, 4, q.2))
  ++ ((ringSlots d 22).map (fun q => ((List.range 64).zip (recBytes q.2)).map (fun b => (640 + 64 * q.1 + b.1, 1, b.2)))).flatten

end Sys2Proof.Machine
end

