-- ==== Sys2Proof/Machine/OosOps.lean ====
section
/-! DEFINITION. Units that leave service (19_faults_and_resets.md R668–R671; 06_zones_and_placement.md R270). -/

namespace Sys2Proof.Machine

/-- A flash die of the model's state. -/
def dieAt (s : State) (d : Nat) : Die := mgetD s.dies d {}

/-- Change a flash die. -/
def modDie (s : State) (d : Nat) (f : Die → Die) : State := { s with dies := mset s.dies d (f (dieAt s d)) }

/-- Results of a flash die's tile wait: its Nimbus link retrains, and no frame crosses it (R34). -/
def resultsWait (s : State) (d : Nat) : Bool := (mgetD s.nims (tileOfDie d) {}).state = .retrain

/-- A result waits in the staging SRAM of a flash die's tile. -/
def holdResult (s : State) (d : Nat) (r : TileRes) : State :=
  { s with tileRes := mset s.tileRes (tileOfDie d) (mgetD s.tileRes (tileOfDie d) [] ++ [r]) }

/-- The results a tile holds are gone with the tile. -/
def dropResults (s : State) (t : Nat) : State := { s with tileRes := mdel s.tileRes t }

/-- The climbs of a descriptor whose read will not come go to step 7 (R418, R424, R453). -/
def climbTo7 (s : State) (g : Nat) : State :=
  { s with climbs := s.climbs.map (fun q => if q.2.desc = g then
      (q.1, { q.2 with step := 7, reads := 0, softAt := none, decoding := false, failed := false }) else q) }

/-- Staged units give up their slots and are placed anew in the next slots of their streams (R310, R668). -/
def placeAnew (s : State) (us : List Nat) : State :=
  let s1 := us.foldl (fun s u => match stAt s u with
    | some x => { s with staged := mset s.staged u { x with slot := none, complete := false, ready := 0 } }
    | none => s) s
  us.foldl placeUnit s1

/-- Queue a band for refresh. -/
def queueRefresh (s : State) (h : Nat) : State := modBand s h (fun b => { b with refresh := true })

/-- A diagnostic read ends with a result (R396, R402). -/
def diagEnd (s : State) (l result bits : Nat) : State :=
  let s1 := setF (setF (setF s .lan l F.LAN_DIAG_STAT_BUSY 0) .lan l F.LAN_DIAG_STAT_RESULT result)
    .lan l F.LAN_DIAG_STAT_BITS (min 0xFFFF bits)
  raise { s1 with lanes := mset s1.lanes l { mgetD s1.lanes l {} with diag := none, diagRead := false } }
    .lan l F.LAN_INT_RAW_DIAG_DONE

/-- What becomes of the work of a flash die that leaves service: its queues are emptied, reads climb at step 7, its bands
take no further data and are queued for refresh, and program units aimed at it are placed anew from their staged
copies. -/
def dieWork (s : State) (d : Nat) : State :=
  let x := dieAt s d
  let ops := (s.feeds.filter (·.die = d)) ++ x.queue ++ x.descs ++ x.cur.toList ++ x.sus.toList ++ x.rdPlace.toList ++ x.opPlace.toList
  let s1 := { s with feeds := s.feeds.filter (·.die ≠ d), dies := mset s.dies d { st := .oos, tracked := x.tracked } }
  let s2 := ops.foldl (fun s o => match o.owner with
    | .climb id => climbTo7 s id
    | .raw h w pos => { s with raws := s.raws.map (fun x =>
        if x.band = h && x.row = w && x.mem = pos then { x with left := x.left - 1 } else x) }
    | .diag => diagEnd s (d / 32) 4 0
    | _ => s) s1
  let hs := (s2.bands.filter (fun q => q.2.members.any (fun m => m.2.1 = d))).map Prod.fst
  let s3 := hs.foldl (fun s h => queueRefresh (closeBand s h) h) s2
  let us := (s3.staged.filter (fun q => !q.2.complete && (match q.2.slot with
    | some (h, sl) => (match bandAt s3 h with
      | some b => b.die (b.place sl).2.1 = d
      | none => false)
    | none => false))).map Prod.fst
  let s4 := placeAnew s3 us
  match s4.diesets.find? (fun q => q.2.members.contains d) with
  | some q => raise (blockError s4 .zne 0 1 q.1 d 0) .zne 0 F.ZNE_INT_RAW_DS_DEGRADED
  | none => s4

/-- The flash dies of the model's state that lie on a range of die indexes and are present and not yet out. -/
def diesIn (s : State) (lo n : Nat) : List Nat :=
  (s.dies.filter (fun q => lo ≤ q.1 && q.1 < lo + n && q.2.st ≠ .absent && q.2.st ≠ .oos)).map Prod.fst

/-- A flash die leaves service. -/
def dieLeaves (s : State) (d : Nat) : State :=
  if dieOut s d then s
  else dieWork (queueUnitOut { s with oos := { s.oos with dies := d :: s.oos.dies } } 2 (0x40 + d / 32) 0 d) d

/-- A lane leaves service with its flash dies. -/
def laneLeaves (s : State) (l : Nat) : State :=
  if s.oos.lanes.contains l || s.oos.tiles.contains (l / 16) then s
  else
    let ds := diesIn s (l * 32) 32
    ds.foldl dieWork (raise (queueUnitOut { s with oos := { s.oos with lanes := l :: s.oos.lanes } } 2 (0x40 + l) 1 l)
      .til (l / 16) F.TIL_INT_RAW_LANE_OOS)

/-- A tile leaves service with its lanes (R400, R668); its WP_n is driven low (R372). -/
def tileOut (s : State) (t : Nat) : State :=
  if s.oos.tiles.contains t then s
  else
    let ds := diesIn s (t * 512) 512
    ds.foldl dieWork
      (raise (emit (queueUnitOut { s with oos := { s.oos with tiles := t :: s.oos.tiles } } 2 (0x34 + t) 2 t) (.board "WP_n" t))
        .til t F.TIL_INT_RAW_LANE_OOS)

/-- A cipher core leaves service. -/
def coreLeaves (s : State) (c : Nat) : State :=
  if s.oos.cores.contains c then s
  else queueUnitOut { s with oos := { s.oos with cores := c :: s.oos.cores } } 2 0x1A 4 c

end Sys2Proof.Machine
end

