-- ==== Sys2Proof/Machine/SignalOps.lean ====
section
/-! DEFINITION. Read recovery: how a climb of the retry ladder goes from step to step and ends, what its readers receive,
rebuilds, soft decoders, threshold tracking and detector tables (10_signal_channel.md R416–R424), and what relocation does
with a codeword it has read (07_translation_and_wear.md R302, R318, R319). -/

namespace Sys2Proof.Machine

/-! ### Relocated codewords (R318, R319) -/

/-- The map still holds the place of a stored sector. -/
def liveAt (s : State) (pua sub : Nat) (x : Sector) : Bool :=
  match nsAt s x.nsk with
  | some n => entOf n x.lsa = some (.at pua (if n.zoned then 0 else sub))
  | none => false

/-- A sector copied by relocation joins the relocation stream's staged unit of its namespace. -/
def relocGive (s : State) (pua sub : Nat) (x : Sector) : State :=
  if !liveAt s pua sub x then s
  else
    let y : StSec := ⟨{ x with rgen := min 255 (x.rgen + 1) }, true, some (pua, sub)⟩
    let stream := 28 + x.life % 4
    let zoned := !x.conv
    let joins (q : Nat × StUnit) : Bool := q.2.slot.isNone && q.2.reloc && q.2.nsk = x.nsk &&
      (if zoned then q.2.unit = x.lsa / 4 else q.2.stream = stream && q.2.cws.any (·.isNone))
    let ds := (nsAt s x.nsk).elim 0 (·.dieSet)
    let fresh : StUnit := {
      nsk := x.nsk, dieSet := ds, stream := stream, zoned := zoned, unit := if zoned then x.lsa / 4 else 0,
      cws := [none, none, none, none], reloc := true }
    let r : State × Nat := (match s.staged.find? joins with
      | some (u, _) => (s, u)
      | none => ({ s with nextUnit := s.nextUnit + 1, staged := mset s.staged s.nextUnit fresh }, s.nextUnit))
    match stAt r.1 r.2 with
    | some u =>
      let i := if zoned then x.lsa % 4 else u.cws.findIdx (·.isNone)
      let u2 := { u with cws := u.cws.set i (some y) }
      let s2 := { r.1 with staged := mset r.1.staged r.2 u2 }
      if u2.isFull then placeUnit s2 r.2 else s2
    | none => s

/-- An entry that holds a place which cannot be read takes the unreadable value, and is counted and reported. -/
def markUnreadable (s : State) (k i pua : Nat) : State :=
  match nsAt s k with
  | some n =>
    let s1 := setEnt (migTouch s k (if n.zoned then i else i / 4)) k i (some .unreadable)
    raise (blockError (bump s1 .mape 0 F.MAPE_UNREADABLE) .mape 0 2 n.dieSet (pua % 2 ^ 32) (pua / 2 ^ 32))
      .mape 0 F.MAPE_INT_RAW_UNREADABLE
  | none => s

/-- A codeword of a live plane page cannot be read: every entry that holds it becomes unreadable. -/
def relocFail (s : State) (pua sub : Nat) : State :=
  let hit : List (Nat × Nat) := (s.nss.map (fun q => (q.2.map.filter (fun e => match e.2 with
    | .at p b => p = pua && (q.2.zoned || b = sub)
    | _ => false)).map (fun e => (q.1, e.1)))).flatten
  let s1 := hit.foldl (fun s h => markUnreadable s h.1 h.2 pua) s
  { s1 with staged := s1.staged.filter (fun q =>
      !(q.2.reloc && q.2.zoned && q.2.secs.any (fun c => match c.2.src with
        | some (p, _) => p = pua
        | none => false))) }

/-! ### Threshold tracking (R416) -/

/-- Bits per cell of the die set a flash die belongs to. -/
def dieBits (s : State) (d : Nat) : Nat :=
  match dsOfDie s d with
  | some q => modeBits q.2.mode
  | none => 4

/-- A read decoded at step 2 or 3 with a set: 0 the default, 1 to 4 the shifted sets A to D. -/
def trackHit (s : State) (d set need : Nat) : State :=
  let m := dieBits s d
  modDie s d (fun x =>
    let h := mgetD x.hits m (set, 0)
    let n := if h.1 = set then h.2 + 1 else 1
    if max 1 need ≤ n then { x with tracked := mset x.tracked m set, hits := mdel x.hits m }
    else { x with hits := mset x.hits m (set, n) })

/-- A read decoded at step 1 ends the run. -/
def trackReset (s : State) (d : Nat) : State := modDie s d (fun x => { x with hits := mdel x.hits (dieBits s d) })

/-! ### Readers and ends (R418–R424, R430) -/

/-- Change a climb. -/
def modClimb (s : State) (id : Nat) (f : Climb → Climb) : State := { s with climbs := mmod s.climbs id f }

/-- The reader is a patrol. -/
def Reader.isPatrol : Reader → Bool
  | .patrol _ => true
  | _ => false

/-- The reader is a rebuild of another codeword. -/
def Reader.isRebuild : Reader → Bool
  | .rebuild _ => true
  | _ => false

/-- Code of the reader in an error's DETAIL (R431). -/
def readerCode (rs : List Reader) : Nat :=
  match rs.find? (fun r => !r.isRebuild) with
  | some (.reloc _) => 1
  | some (.patrol _) => 2
  | _ => 0

/-- The stored codeword of a climb. -/
def climbWord (s : State) (c : Climb) : Cw := ((mget s.flash c.pua).getD []).getD c.sub .garbled

/-- A codeword verifies for a reader (R420): its metadata verifies and, for a host read, names the key slot and the
sector asked for. The parity of a rebuilt group is not expected to verify (R409). -/
def verifies (s : State) (w : Cw) : Reader → Bool
  | .host k o => (match w, mget s.cmds k with
    | .data x, some c => some x.nsk = c.nsk && x.lsa = c.slba + o
    | .data _, none => true
    | _, _ => false)
  | .rebuild _ => w ≠ .garbled
  | .patrol _ => w ≠ .garbled
  | _ => (match w with
    | .data _ => true
    | .filler => true
    | _ => false)

/-- A reader receives the codeword, decoded at a step. -/
def giveReader (s : State) (c : Climb) (w : Cw) (r : Reader) : State :=
  match r with
  | .host k o => (match w with
    | .data x => readCipher s k o x
    | _ => s)
  | .reloc _ => (match w with
    | .data x => relocGive s c.pua c.sub x
    | _ => s)
  | .patrol h => if 3 ≤ c.step then queueRefresh s h else s
  | .rebuild id => modClimb s id (fun p => { p with group := p.group - 1 })

/-- A reader learns that the codeword is uncorrectable. -/
def failReader (s : State) (c : Climb) (r : Reader) : State :=
  match r with
  | .host k o => readFail s k o stUnrecovered
  | .reloc _ => relocFail s c.pua c.sub
  | .patrol h => queueRefresh s h
  | .rebuild id => modClimb s id (fun p => { p with group := p.group - 1, bad := true })

/-- The counter of climbs that ended at a step (R430). -/
def endsField (step : Nat) : Fld :=
  match step with
  | 1 => F.SIG_ENDS1_COUNT
  | 2 => F.SIG_ENDS2_COUNT
  | 3 => F.SIG_ENDS3_COUNT
  | 4 => F.SIG_ENDS4_COUNT
  | 5 => F.SIG_ENDS5_COUNT
  | 6 => F.SIG_ENDS6_COUNT
  | 7 => F.SIG_ENDS7_COUNT
  | _ => F.SIG_ENDS8_COUNT

/-- Signal tile of a codeword. -/
def Climb.tile (c : Climb) : Nat := tileOfDie (puaDie c.pua)

/-- A climb is over. -/
def dropClimb (s : State) (id : Nat) : State := { s with climbs := mdel s.climbs id }

/-- A climb ends in success at its step. -/
def climbOk (s : State) (id : Nat) (c : Climb) (w : Cw) : State :=
  c.readers.foldl (fun s r => giveReader s c w r) (bump (dropClimb s id) .sig c.tile (endsField c.step))

/-- A climb ends at step 8: the codeword is uncorrectable, or erased (R421, R423). -/
def climbUnc (s : State) (id : Nat) (c : Climb) (erased : Bool) : State :=
  let s1 := bump (dropClimb s id) .sig c.tile F.SIG_ENDS8_COUNT
  let s2 := raise (blockError s1 .sig c.tile 1 (c.sub % 4 + readerCode c.readers * 16 + erased.toNat * 256)
    (c.pua % 2 ^ 32) (c.pua / 2 ^ 32)) .sig c.tile F.SIG_INT_RAW_UNC
  c.readers.foldl (fun s r => failReader s c r) s2

/-- A climb ends without success at the last step its readers climb: a patrol at step 3, a rebuild's member at step 5. -/
def climbStop (s : State) (id : Nat) (c : Climb) : State :=
  c.readers.foldl (fun s r => failReader s c r) (bump (dropClimb s id) .sig c.tile (endsField c.step))

/-! ### Soft decoders (R414) -/

/-- Fields of the captured DEC_CTRL and DET_CTRL. -/
def Climb.passMax (c : Climb) : Nat := min 4 (max 1 (bitsOf c.dec 10 8))
def Climb.erasedThr (c : Climb) : Nat := bitsOf c.det 23 16
def Climb.trackHits (c : Climb) : Nat := bitsOf c.det 11 8

/-- A climb occupies a soft decoder. -/
def Climb.onSoft (c : Climb) : Bool := c.decoding && 4 ≤ c.step && c.step ≤ 6

/-- The request a free soft decoder of a tile takes: the highest class, then the earliest. -/
def nextSoft (s : State) (t : Nat) : Option (Nat × Climb) :=
  (s.climbs.filter (fun q => q.2.tile = t && q.2.softAt.isSome && !q.2.decoding)).foldl (fun best q => match best with
    | none => some q
    | some b =>
      if b.2.cls < q.2.cls || (b.2.cls = q.2.cls && q.2.softAt.getD 0 < b.2.softAt.getD 0) then some q else some b) none

/-- A soft decoder takes a request; the longest wait is kept (R430). -/
def softStart (s : State) (t : Nat) : State :=
  if 4 ≤ (s.climbs.filter (fun q => q.2.tile = t && q.2.onSoft)).length then s
  else match nextSoft s t with
  | some (id, c) =>
    let us := min 0xFFFF ((s.now - c.softAt.getD s.now) / 1000)
    let s1 := modClimb s id (fun c => { c with softAt := none, decoding := true })
    if getF s1 .sig t F.SIG_SOFT_STAT_PEAK_WAIT_US < us then setF s1 .sig t F.SIG_SOFT_STAT_PEAK_WAIT_US us else s1
  | none => s

/-- Free soft decoders take what waits. -/
def softServe (s : State) (t : Nat) : State := softStart (softStart (softStart (softStart s t) t) t) t

/-- A climb requests a soft pass. -/
def softAsk (s : State) (id : Nat) (c : Climb) : State :=
  softServe (modClimb s id (fun c => { c with softAt := some s.now, decoding := false })) c.tile

/-! ### Steps (R418, R419) -/

/-- Pages of the next word line in a codeword's plane, when that word line is programmed (step 6). -/
def nextWordLine (s : State) (c : Climb) : Option (List Nat) :=
  let b := dieBits s (puaDie c.pua)
  let r := puaPage c.pua / b + 1
  let p := mkPua (puaDie c.pua) (puaPlane c.pua) (puaBlk c.pua) (r * b)
  if 2048 ≤ r * b then none else
  match mget s.flash p with
  | some cws => if cws.all (· = .garbled) then none else some ((List.range b).map (p + ·))
  | none => none

/-- Readers that climb no further learn that the codeword failed; a climb that none waits for is over, at its step. -/
def keepReaders (s : State) (id : Nat) (c : Climb) (drop : Reader → Bool) : State :=
  if c.readers.all drop then climbStop s id c
  else modClimb ((c.readers.filter drop).foldl (fun s r => failReader s c r) s) id
    (fun c => { c with readers := c.readers.filter (fun r => !drop r) })

/-- Every climb of a descriptor drops some of its readers. -/
def keepAll (s : State) (g : Nat) (drop : Reader → Bool) : State :=
  (mates s g).foldl (fun s q => if q.2.readers.any drop then keepReaders s q.1 q.2 drop else s) s

/-- The climbs of a descriptor go to a step, which reads plane pages at threshold sets; they share each array read. -/
def descAt (s : State) (g step set : Nat) (reads : List (Nat × Nat)) : State :=
  let s1 := { s with climbs := s.climbs.map (fun q => if q.2.desc = g then (q.1, { q.2 with
    step := step, set := set, reads := reads.length, passes := 0, decoding := false, softAt := none, refined := [], failed := false })
    else q) }
  if (mates s1 g).isEmpty then s1 else reads.foldl (fun s p => descRead s g p.2 p.1) s1

/-- The reads of the next step after a failed one, once every codeword of the descriptor that is still climbing has failed. -/
def descNext (s : State) (g : Nat) : State :=
  match mates s g with
  | [] => s
  | (_, c) :: _ =>
    match c.step with
    | 1 => descAt s g 2 0 [(c.pua, 1)]
    | 2 => descAt s g 3 1 [(c.pua, 2)]
    | 3 =>
      if c.set < 4 then descAt s g 3 (c.set + 1) [(c.pua, c.set + 2)]
      else descAt (keepAll s g (·.isPatrol)) g 4 0 [(c.pua, 6), (c.pua, 7)]
    | 4 => descAt s g 5 0 [(c.pua, 8), (c.pua, 9), (c.pua, 10), (c.pua, 11)]
    | 5 =>
      let s1 := keepAll s g (·.isRebuild)
      (match nextWordLine s1 c with
      | some ps => descAt s1 g 6 0 (ps.map (fun p => (p, 0)))
      | none => descAt s1 g 7 0 [])
    | 6 => descAt s g 7 0 []
    | _ => (mates s g).foldl (fun s q => climbUnc s q.1 q.2 false) s

/-- A step of a climb has failed: it goes on when the other codewords of its descriptor have ended or failed theirs. -/
def climbFail (s : State) (id : Nat) : State := modClimb s id (fun c => { c with failed := true, decoding := false })

/-- Descriptors whose climbs have all failed their step go on. -/
def settleClimbs (s : State) : State :=
  ((s.climbs.map (fun q => q.2.desc)).eraseDups).foldl (fun s g =>
    if (mates s g).all (·.2.failed) then descNext s g else s) s

/-- A read of a descriptor has been transferred: steps 1 to 3 decode its codewords, the later ones ask for a soft pass once
all their reads are there. -/
def descReadDone (s : State) (g : Nat) : State :=
  (mates s g).foldl (fun s q =>
    let c1 := { q.2 with reads := q.2.reads - 1 }
    let s1 := modClimb s q.1 (fun _ => c1)
    if c1.step ≤ 3 then modClimb s1 q.1 (fun c => { c with decoding := true })
    else if c1.reads = 0 then softAsk s1 q.1 c1
    else s1) s

/-- A read of a descriptor ended TIMEOUT: its codewords did not decode at it (R418). -/
def descReadLost (s : State) (g : Nat) : State :=
  (mates s g).foldl (fun s q =>
    let c1 := { q.2 with reads := q.2.reads - 1 }
    if c1.step ≤ 3 then climbFail s q.1
    else
      let s1 := modClimb s q.1 (fun _ => c1)
      if c1.reads = 0 then softAsk s1 q.1 c1 else s1) s

/-- A hard decode's result: whether the decoder converged, and the zero bits among the raw bytes 0 to 4,143. An erased
codeword does not climb (R421). -/
def hardResult (id : Nat) (conv : Bool) (zeros : Nat) (s : State) : State :=
  match mget s.climbs id with
  | none => s
  | some c =>
    if !c.decoding || 3 < c.step then s
    else if zeros ≤ c.erasedThr then (if c.readers.all (·.isPatrol) then dropClimb s id else climbUnc s id c true)
    else
      let w := climbWord s c
      if conv && c.readers.all (verifies s w) then
        let d := puaDie c.pua
        let s1 := if c.step = 1 then trackReset s d else trackHit s d (if c.step = 2 then 0 else c.set) c.trackHits
        climbOk s1 id c w
      else climbFail s id

/-- HARD_DECODE_DONE: the result reaches the hub, at once or, while the link retrains, after it (R34, R418). -/
def hardDecodeDone (id : Nat) (conv : Bool) (zeros : Nat) (s : State) : State :=
  match mget s.climbs id with
  | none => s
  | some c =>
    if c.decoding && c.step ≤ 3 && resultsWait s (puaDie c.pua) then
      holdResult (modClimb s id (fun c => { c with decoding := false })) (puaDie c.pua) (.hard id conv zeros)
    else hardResult id conv zeros s

/-! ### Detector tables (R417) -/

/-- The ratios, in millionths of a millionth, at which 4 times the natural logarithm reaches k − 1/2, for k from 1 to 31. -/
def llrSteps : List Nat := [
  1133148453067, 1454991414618, 1868245957432, 2398875293967, 3080216848918, 3955076722921, 5078419037180,
  6520819120330, 8372897488127, 10751013186076, 13804574186067, 17725424121462, 22759895093527, 29224283781235,
  37524723159601, 48182698291099, 61867809250368, 79439839552261, 102002773082700, 130974153210819, 168174141651845,
  215939872310614, 277272284523134, 356024660670779, 457144713268909, 586985430941709, 753704212554561,
  967775365584677, 1242648167054996, 1595591830499049, 2048780465020098]

/-- 4 × ln(a / b) rounded, for a at least b, at most 31. -/
def llrOf (a b : Nat) : Nat := (llrSteps.filter (fun t => decide (t * b ≤ a * 1000000000000))).length

/-- The refined entry of a region from its counts of bits decided 0 and 1. -/
def refinedEntry (n0 n1 : Nat) : Int :=
  if n1 ≤ n0 then Int.ofNat (llrOf (n0 + 1) (n1 + 1)) else -Int.ofNat (llrOf (n1 + 1) (n0 + 1))

/-- (3 × stored + refined) / 4, rounded to the nearest; which way a tie goes the spec leaves open. -/
def blendEntry (stored refined : Int) : Int :=
  let x := 3 * stored + refined
  let q := x / 4
  match x % 4 with
  | 3 => q + 1
  | 2 => if Config.roundUp x then q + 1 else q
  | _ => q

/-- First key of the tables of a soft pass: by bit page type and width, or the coupling classes. -/
def tableKey (s : State) (c : Climb) : Nat :=
  puaDie c.pua * 64 + (if c.step = 6 then 32 else (puaPage c.pua % dieBits s (puaDie c.pua)) * 2 + (if c.step = 4 then 0 else 1))

/-- A stored table; the model record supplies the initial one. -/
def tableAt (s : State) (die key : Nat) : List Int :=
  (mget s.llr key).getD (((modelOf s die).bind (fun m => mget m.tables (key % 64))).getD [])

/-- Entries of one table a pass reports: 4 regions for 2-bit input, else 8. -/
def regions (c : Climb) : Nat := if c.step = 4 then 4 else 8

/-- The tables that a decoding pass updates, with the refined entries. -/
def blendTables (s : State) (c : Climb) (refined : List Int) : State :=
  let n := regions c
  let die := puaDie c.pua
  (List.range (refined.length / n)).foldl (fun s i =>
    let key := tableKey s c + i
    let old := tableAt s die key
    let new := (List.range n).map (fun r => blendEntry (old.getD r 0) (refined.getD (i * n + r) 0))
    { s with llr := mset s.llr key new }) s

/-- A soft pass's result: whether the decoder converged, and per input region the counts of bits it decided 0 and 1. -/
def softResult (id : Nat) (conv : Bool) (counts : List (Nat × Nat)) (s : State) : State :=
  match mget s.climbs id with
  | none => s
  | some c =>
    if !c.onSoft then s
    else
      let refined := counts.map (fun q => refinedEntry q.1 q.2)
      let w := climbWord s c
      let s1 := if conv && c.readers.all (verifies s w) then climbOk (blendTables s c (if c.refined = [] then refined else c.refined)) id c w
        else if c.passes + 1 < c.passMax then
          softAsk (modClimb s id (fun c => { c with passes := c.passes + 1, refined := refined })) id c
        else climbFail s id
      softServe s1 c.tile

/-- SOFT_PASS_DONE: the result reaches the hub, at once or, while the link retrains, after it; the decoder is free (R34,
R414). -/
def softPassDone (id : Nat) (conv : Bool) (counts : List (Nat × Nat)) (s : State) : State :=
  match mget s.climbs id with
  | none => s
  | some c =>
    if c.onSoft && resultsWait s (puaDie c.pua) then
      softServe (holdResult (modClimb s id (fun c => { c with decoding := false })) (puaDie c.pua) (.soft id conv counts)) c.tile
    else softResult id conv counts s

/-! ### Rebuild (R424) -/

/-- The other members' plane pages at a codeword's slot, when the band has cross-die parity and the row's parity is
programmed. -/
def rebuildPages (s : State) (c : Climb) : Option (List Nat) :=
  let d := puaDie c.pua
  match (bandOfBlk s d (puaBlk c.pua)).bind (bandAt s) with
  | some b =>
    let pos := b.members.findIdx (fun m => m.2.1 = d && m.2.2 = puaBlk c.pua)
    let r := puaPage c.pua / b.bits
    let j := (puaPage c.pua % b.bits) * 4 + puaPlane c.pua
    if b.groups = 0 then none
    else
      let g := b.groupOf pos
      if b.done.contains (unitCode r (b.parityPos r g)) then
        some ((((List.range (b.groupSize g)).map (b.groupStart g + ·)).filter (· ≠ pos)).map (fun p => b.puaOf r p j))
      else none
  | none => none

/-- A member's codeword as the XOR of stored codewords, from its staged copy or from the flash; one that cannot be read has
none. -/
def xorAt (s : State) (pua sub : Nat) : Option (List (Option Sector)) :=
  match stagedAtPua s pua with
  | some (_, u) => some [(u.cws.getD sub none).map (·.sec)]
  | none => match ((mget s.flash pua).getD []).getD sub .garbled with
    | .data x => some [some x]
    | .filler => some [none]
    | .parity l => some l
    | .garbled => none

/-- The codeword whose XOR with those of the other members is 0 (R424): parity where it lies at the row's parity position,
else the one codeword left over. -/
def rebuildWord (s : State) (c : Climb) : Cw :=
  let d := puaDie c.pua
  match rebuildPages s c, (bandOfBlk s d (puaBlk c.pua)).bind (bandAt s) with
  | some ps, some b =>
    (match ps.foldl (fun a p => a.bind (fun l => (xorAt s p c.sub).map (xorCws l))) (some []) with
    | some l =>
      if pageParity b c.pua then .parity l
      else (match l with
      | [none] => .filler
      | [some x] => .data x
      | _ => .garbled)
    | none => .garbled)
  | _, _ => .garbled

/-- The rebuild's members have all ended. -/
def rebuildEnd (s : State) (id : Nat) (c : Climb) : State :=
  let w := rebuildWord s c
  if !c.bad && c.readers.all (verifies s w) then
    let s1 := raise (blockError (bump s .sig c.tile F.SIG_REBUILD_DONE) .sig c.tile 3 (c.sub % 4) (c.pua % 2 ^ 32) (c.pua / 2 ^ 32))
      .sig c.tile F.SIG_INT_RAW_REBUILD
    climbOk s1 id c w
  else climbUnc (bump s .sig c.tile F.SIG_REBUILD_FAILED) id c false

/-- A codeword has failed steps 1 to 5, so that it cannot serve a rebuild. -/
def pastFive (s : State) (pua sub : Nat) : Bool := (climbOf s pua sub).any (fun q => 6 ≤ q.2.step)

/-- Step 7 begins: the other members' codewords are read. A rebuild that waits for this codeword has failed, since a member
climbs steps 1 to 5 only. -/
def rebuildStart (s0 : State) (id : Nat) (c0 : Climb) : State :=
  if !c0.readers.isEmpty && c0.readers.all (·.isRebuild) then climbStop s0 id { c0 with step := 5 }
  else
  let s := keepReaders s0 id c0 (·.isRebuild)
  let c := { c0 with readers := c0.readers.filter (fun r => !r.isRebuild) }
  match rebuildPages s c with
  | none => climbUnc s id c false
  | some ps =>
    if ps.any (fun p => dieOut s (puaDie p) || pastFive s p c.sub) then
      climbUnc (bump s .sig c.tile F.SIG_REBUILD_FAILED) id c false
    else
      let flash := ps.filter (fun p => (stagedAtPua s p).isNone)
      flash.foldl (fun s p => startClimb s p c.sub c.cls c.deadline (.rebuild id))
        (modClimb s id (fun c => { c with decoding := true, group := flash.length }))

/-- Every climb that has come to step 7 begins it; a rebuild whose members have ended, ends. -/
def settleRebuilds (s : State) : State :=
  let s1 := (s.climbs.filter (fun q => q.2.step = 7 && !q.2.decoding)).foldl (fun s q => match mget s.climbs q.1 with
    | some c => if c.step = 7 && !c.decoding then rebuildStart s q.1 c else s
    | none => s) s
  (s1.climbs.filter (fun q => q.2.step = 7 && q.2.decoding && q.2.group = 0)).foldl (fun s q => match mget s.climbs q.1 with
    | some c => rebuildEnd s q.1 c
    | none => s) s1

end Sys2Proof.Machine
end

