-- ==== Sys2Proof/Machine/DurableOps.lean ====
section
/-! DEFINITION. Checkpoints of map segments and tables (08_map_durability.md R342–R345), and the commit of an import
(13_tenant_migration.md R518, R523). -/

namespace Sys2Proof.Machine

/-! ### Checkpoints (R342–R345) -/

/-- Key of a segment's checkpoint. -/
def ckptKey (k seg : Nat) : Nat := k * 131072 + seg

/-- The lowest record that the copy of a zoned namespace's segment must not follow: a record of a unit still without a
slot, or of a change not yet in effect. -/
def lowCut (s : State) (k : Nat) : Nat :=
  let units := (s.staged.filter (fun q => q.2.nsk = k && q.2.slot.isNone && !q.2.reloc)).map (fun q => q.2.unit)
  let r := s.jr.ring.find? (fun q => match q.2 with
    | .extent n f c _ _ _ _ _ _ => n = k && units.any (fun u => f ≤ u && u < f + c)
    | .zone n _ _ _ => n = k && s.jr.acts.any (fun a => q.1 < a.1)
    | .poison n _ _ _ => n = k && s.jr.acts.any (fun a => q.1 < a.1)
    | _ => false)
  match r with
  | some q => q.1
  | none => if units.isEmpty && s.jr.acts.isEmpty then jCount s else s.jr.head

/-- A conventional segment can be copied: no change below its cut is still to be made (R344). -/
def convQuiet (s : State) (k : Nat) : Bool :=
  !(s.cmds.any (fun q => q.2.nsk = some k && q.2.phase = .admitted && q.2.op.writes)) &&
    !(s.staged.any (fun q => q.2.nsk = k && q.2.slot.isNone && !q.2.reloc))

/-! Where the copies lie (R308, R342): 65 consecutive plane pages of an SLC system block, on two flash dies of different
lanes. -/

/-- The system blocks that hold a checkpoint copy in force. -/
def ckptHomes (s : State) : List (Nat × Nat) :=
  ((s.ckpts.map (fun q => q.2.homes)).flatten ++ s.tabCkpt.homes).map (fun h => (h.1, h.2.1))

/-- A member's system block for a copy: one in use with room for it, else the free one of lowest erase count. -/
def homeBlock (s : State) (die : Nat) : Option Nat :=
  let sys := (List.range (blocksOf s die)).filter (fun b => (blkOf s die b).state = .system)
  let live := ckptHomes s
  match sys.find? (fun b => live.contains (die, b) && (blkOf s die b).fill + 65 ≤ 4 * wlOf s die) with
  | some b => some b
  | none => leastOf s die (sys.filter (fun b => !live.contains (die, b) && (blkOf s die b).waitRec ≤ s.jr.head && !blkRead s die b))

/-- The word lines of an SLC system block that the programs of plane pages `f` to `f + 64` fill and that are read back (R425):
word line 0, every one with SLC_ALL, else one in RAW_RATE. -/
def homeSamples (s : State) (die blk f : Nat) : Nat :=
  let t := tileOfDie die
  let rate := getF s .sig t F.SIG_RAW_CTRL_RAW_RATE
  ((List.range ((f + 65) / 4 - f / 4)).filter (fun i =>
    let w := f / 4 + i
    w = 0 || getF s .sig t F.SIG_RAW_CTRL_SLC_ALL = 1 || (rate ≠ 0 && (w + blk) % rate = 0))).length

/-- A copy takes its pages; a free block that was programmed is erased first (R307). -/
def takeHome (s : State) (die : Nat) : State × List (Nat × Nat × Nat) :=
  match homeBlock s die with
  | some b =>
    let k := blkOf s die b
    let used := (ckptHomes s).contains (die, b)
    let s1 := if used || (k.fill = 0 && !k.dirty) then s
      else jStage (recErase (modBlk s die b (fun x => { x with erases := x.erases + 1, fill := 0, dirty := false })) (k.erases + 1))
        [.erase die b (k.erases + 1)]
    let f := if used then k.fill else 0
    (bumpBy (modBlk s1 die b (fun x => { x with fill := f + 65 })) .sig (tileOfDie die) F.SIG_RAW_SAMPLES_COUNT (homeSamples s die b f),
      [(die, b, f)])
  | none => (s, [])

/-- Flash dies that may take a copy: members in service with a system block for it, on a lane other than `lane`. Which of
them firmware takes the spec leaves open. -/
def homeDies (s : State) (lane : Option Nat) : List Nat :=
  ((s.diesets.map (fun q => q.2.members)).flatten).filter (fun d =>
    !dieOut s d && lane ≠ some (d / 32) && (homeBlock s d).isSome)

/-- The two copies of a checkpoint. -/
def takeHomes (s : State) : State × List (Nat × Nat × Nat) :=
  let f := takeFree s
  let pick (l : List Nat) : Option Nat := l[(Config.freeWord f.1).toNat % max 1 l.length]?
  match pick (homeDies f.2 none) with
  | some d =>
    let a := takeHome f.2 d
    (match pick (homeDies a.1 (some (d / 32))) with
    | some e => let b := takeHome a.1 e; (b.1, a.2 ++ b.2)
    | none => a)
  | none => (s, [])

/-- Checkpoint one map segment. -/
def ckptSeg (s : State) (k seg : Nat) : State :=
  match nsAt s k with
  | some n =>
    if (!n.zoned && !convQuiet s k) || (n.erase.isSome && n.eraseDone) then s
    else
      let ents := n.map.filter (fun e => seg * segEntries ≤ e.1 && e.1 < (seg + 1) * segEntries)
      let h := takeHomes s
      { modNs h.1 k (fun n => { n with dirty := mdel n.dirty seg }) with
        ckpts := mset s.ckpts (ckptKey k seg) ⟨if n.zoned then lowCut s k else n.wseq.next, jCount s, ents, h.2⟩ }
  | none => s

/-- Checkpoint the block table, the bands and the zone descriptors. -/
def ckptTables (s : State) : State :=
  let h := takeHomes s
  { h.1 with tabCkpt := ⟨if s.jr.acts.isEmpty then jCount s else s.jr.head, s.blks, s.bands,
      s.nss.map (fun q => (q.1, q.2.zones)), h.2⟩ }

/-- Copies that lie on flash dies which leave a die set are written anew. -/
def rehome (s : State) (dies : List Nat) : State :=
  let gone (l : List (Nat × Nat × Nat)) : Bool := l.any (fun h => dies.contains h.1)
  let s1 := (s.ckpts.filter (fun q => gone q.2.homes)).foldl (fun s q =>
    let h := takeHomes s
    { h.1 with ckpts := mmod h.1.ckpts q.1 (fun c => { c with homes := h.2 }) }) s
  if gone s1.tabCkpt.homes then
    let h := takeHomes { s1 with tabCkpt := { s1.tabCkpt with homes := [] } }
    { h.1 with tabCkpt := { h.1.tabCkpt with homes := h.2 } }
  else s1

/-- Every segment that holds a sector of a closed conventional band has a checkpoint made after the last change by it:
the band is settled (R345). -/
def canSettle (s : State) (h : Nat) (b : Band) : Bool :=
  b.closed && b.conv && !b.settled && !(s.staged.any (fun q => match q.2.slot with
    | some (h', _) => h' = h
    | none => false)) &&
  s.jr.ring.all (fun q => match q.2 with
    | .extent k f c h' _ _ _ _ true =>
      h' ≠ h || (List.range c).all (fun i => match mget s.ckpts (ckptKey k ((f + i) / segEntries)) with
        | some x => q.1 < x.madeAt
        | none => false)
    | _ => true)

/-- Stage SETTLED for the bands that are settled. -/
def settleBands (s : State) : State :=
  (s.bands.filter (fun q => canSettle s q.1 q.2)).foldl (fun s q =>
    jStage (modBand s q.1 (fun b => { b with settled := true })) [.settled q.1]) s

/-! ### The commit of an import (R518, R523) -/

/-- A namespace's key record is written and its key enters the slot, with its generation and the erase cut (R459, R472). -/
def bindSlot (s : State) (k key gen : Nat) : State :=
  let s1 := recPut s k (.ns key gen ((nsAt s k).elim 0 (·.eraseCut)))
  { s1 with nsKeys := mset s.nsKeys k key, keyGen := mset s.keyGen k gen, lostSlots := s.lostSlots.filter (· ≠ k) }

/-- The response of a pending key agreement request becomes ready. -/
def readyResp (s : State) (f : Nat) : State :=
  { s with secs := mmod s.secs (f * 2 + 1) (fun r => { r with ready := true }) }

/-- Importing namespaces of a tenant. -/
def migNs (s : State) (t : Nat) : List (Nat × Ns) := s.nss.filter (fun q => q.2.tenant = t && (migOf s t).names q.2.nsid)

/-- Every segment of a namespace that holds an entry is checkpointed. -/
def ckptNs (s : State) (k : Nat) : State :=
  match nsAt s k with
  | some n =>
    let had := (s.ckpts.filter (fun q => q.1 / 131072 = k)).map (fun q => q.1 % 131072)
    ((n.map.map (fun e => e.1 / segEntries) ++ had).eraseDups).foldl (fun s g => ckptSeg s k g) s
  | none => s

/-- Bytes of a key package's plaintext in a range, as a number. -/
def pkgNum (l : List Nat) (off n : Nat) : Nat := ofLe ((l.drop off).take n)

/-- An entry of a key package as its 64 bytes (R521). -/
def PkgEntry.toBytes (e : PkgEntry) : List Nat :=
  leBytes 4 e.nsid ++ leBytes 4 e.gen ++ leBytes 32 e.key ++ leBytes 8 e.nonce ++ leBytes 8 e.wseq ++
    [e.zoned.toNat, e.zsize % 256, 0, 0, 0, 0, 0, 0]

/-- The entry that 64 bytes spell. -/
def PkgEntry.ofBytes (l : List Nat) : PkgEntry :=
  ⟨pkgNum l 0 4, pkgNum l 4 4, pkgNum l 8 32, pkgNum l 40 8, pkgNum l 48 8, pkgNum l 56 1 = 1, pkgNum l 57 1⟩

/-- A key package for a public key: the ephemeral private key, the IV, and the plaintext (R521). -/
def makePkg (d iv : Nat) (epk text : List Nat) : List Nat :=
  let head := ecPublic d ++ [0, 0, 0]
  let k := moveKey d epk
  let v := leBytes 12 iv
  let ct := gcmCrypt k v text
  head ++ v ++ leBytes 4 text.length ++ ct ++ gcmTag k v head ct

/-- The plaintext of a key package that verifies under EK. -/
def openPkg (d : Nat) (p : List Nat) : Option (List Nat) :=
  let v := (p.drop 100).take 12
  let n := pkgNum p 112 4
  let ct := (p.drop 116).take n
  let k := moveKey d (p.take 97)
  if (ecPoint (p.take 97)).isSome && ct.length = n && (p.drop (116 + n)).take 16 = gcmTag k v (p.take 100) ct
  then some (gcmCrypt k v ct) else none

/-- The entries of a package's plaintext. -/
def pkgEntries (text : List Nat) : List PkgEntry :=
  (chunks 64 (pkgNum text 34 2) (text.drop 36)).map PkgEntry.ofBytes

/-- The entries of a package that opens under EK, names this part and tenant, and names exactly the importing namespaces with
their types (R523). -/
def pkgOk (s : State) (t : Nat) (p : List Nat) : Option (List PkgEntry) :=
  match (migOf s t).ek.bind (fun d => openPkg d p) with
  | some text =>
    let es := pkgEntries text
    if pkgNum text 16 16 = Config.serial % 2 ^ 128 && pkgNum text 32 2 = t && es.length = (migNs s t).length &&
        (migNs s t).all (fun q => es.any (fun e => e.nsid = q.2.nsid && e.zoned = q.2.zoned &&
          e.zsize = (if q.2.zoned then q.2.zsize else 0)))
    then some es else none
  | none => none

/-- The keys and counters of the package enter the importing namespaces, EK is destroyed and the move has ended. -/
def takePkg (s : State) (t : Nat) (es : List PkgEntry) : State :=
  let s1 := es.foldl (fun s e => match nsSlot s t e.nsid with
    | some k => modNs (bindSlot s k e.key e.gen) k (fun n => { n with
        nonce := { next := e.nonce, mark := e.nonce + 1048576 }, wseq := { next := e.wseq, mark := e.wseq + 1048576 } })
    | none => s) s
  { recDel s1 (ekRec t) with migs := mdel s1.migs t }

/-- Open bands that hold data of conventional importing namespaces are closed, so that they can be settled (R345, R518). -/
def closeImported (s : State) (l : List (Nat × Ns)) : State :=
  let hs := ((l.filter (fun q => !q.2.zoned)).map (fun q => q.2.map.filterMap (fun e => match e.2 with
    | .at pua _ => bandOfBlk s (puaDie pua) (puaBlk pua)
    | _ => none))).flatten.eraseDups
  hs.foldl closeBand s

/-- The units of a commit are complete: the segments are checkpointed, the bands settled, and the response is ready. -/
def commitOf (s : State) (t : Nat) : State :=
  let m := migOf s t
  if m.committing && unitsDone s m.commitUnits then
    let l := migNs s t
    let s1 := settleBands (ckptTables (l.foldl (fun s q => ckptNs s q.1) (closeImported s l)))
    let s2 := modMig s1 t (fun m => { m with committing := false, commitUnits := [], commitAt := jCount s1, pkgIn := none })
    match m.pkgIn with
    | some p => match pkgOk s2 t p with
      | some es => readyResp (l.foldl (fun s q => ckptNs s q.1) (takePkg s2 t es)) t
      | none => readyResp { s2 with secs := mmod s2.secs (t * 2 + 1) (fun r => { r with result := 0x000F }) } t
    | none => readyResp s2 t
  else s

/-- Every commit under way. -/
def settleImports (s : State) : State := (s.migs.filter (fun q => q.2.committing)).foldl (fun s q => commitOf s q.1) s

end Sys2Proof.Machine
end

