-- ==== Sys2Proof/Machine/ResetOps.lean ====
section
/-! DEFINITION. Part resets: what they keep and clear, and how their cause is latched (19_faults_and_resets.md R678–R680,
R686, R687; 18_recorder_and_metering.md R643, R644, R655; 08_map_durability.md R364). -/

namespace Sys2Proof.Machine

/-! ### Register words a part reset keeps (R16, R679) -/

/-- Bits of a register that hold read-only Boot fields: what the sealed configuration and MRAM hold of it. -/
def bootMask (k : PageKind) (off : Nat) : Nat :=
  (pageFields k).foldl (fun a f => if f.off = off && f.boot && f.acc = .ro then a ||| maskOf f.hi f.lo else a) 0

/-- Registers of the always-on domain that keep their word through every part reset but POR. -/
def aonKept (k : PageKind) (off : Nat) : Bool :=
  (k = .eth && off = F.ETH_WAKE_CTRL_ENERGY_WAKE.off) || (k = .boot && (off = 0x108 || off = 0x204 || off = 0x208 || off = 0x20C))

/-- A register's word after a part reset. -/
def keptWord (por : Bool) (k : PageKind) (off w : Nat) : Nat :=
  if !por && aonKept k off then w
  else
    let m := bootMask k off ||| (if !por && k = .dbg && off = F.DBG_TOKEN_SINCE_POR.off then 2 ^ 30 else 0)
    (resetWord k off - (resetWord k off &&& m)) + (w &&& m)

/-- Register words after a part reset. -/
def keptRegs (por : Bool) (m : FMap Word) : FMap Word :=
  m.filterMap (fun q => match pageAt (q.1 / 0x1000) with
    | some (k, _) =>
      let v := BitVec.ofNat 32 (keptWord por k (q.1 % 0x1000) q.2.toNat)
      if v = BitVec.ofNat 32 (resetWord k (q.1 % 0x1000)) then none else some (q.1, v)
    | none => none)

/-! ### The cause (R678, R685–R687) -/

/-- The reset count of a kind. -/
def resetCount : Nat → Option Fld
  | 2 => some F.BOOT_RESET_CNT0_PIN
  | 3 => some F.BOOT_RESET_CNT0_SUPPLY
  | 4 => some F.BOOT_RESET_CNT1_SEALED
  | 5 => some F.BOOT_RESET_CNT1_FATAL
  | 6 => some F.BOOT_RESET_CNT2_WATCHDOG
  | 7 => some F.BOOT_RESET_CNT2_DEVICE
  | _ => none

/-- RESET_LAST and RESET_ADDR latch the cause; a SEALED reset counts in SEALED_RUN. -/
def latchReset (s : State) (kind detail lo hi : Nat) : State :=
  let s1 := match resetCount kind with
    | some f => bump s .boot 0 f
    | none => s
  let run := getF s1 .boot 0 F.BOOT_RESET_LAST_SEALED_RUN
  let run' := if kind = 1 then 0 else if kind = 4 then min 255 (run + 1) else run
  wr (wr (wr s1 .boot 0 0x204 (kind * 2 ^ 28 + run' * 65536 + detail % 65536)) .boot 0 0x208 lo) .boot 0 0x20C hi

/-! ### What is kept (R679) -/

/-- What MRAM says of the last power-loss sequence when the part stops: it is incomplete until step 4 has ended (R364). -/
def plRecord (s : State) : PlStat :=
  match s.plRun with
  | some p =>
    if p.step = 5 then { s.plStat with lastStep := 5 }
    else { valid := true, done := false, lastStep := p.step, ms := 0, kind := 2 }
  | none => { s.plStat with kind := if s.jr.cleanMark then 0 else 3 }

/-- The tenants as the sealed configuration holds them. -/
def keptTenant (t : Tenant) : Tenant := { t with drain := [], cmd := none }

/-- The journal as MRAM holds it. -/
def keptJournal (j : Journal) : Journal := { j with staged := [], flushing := [], oldest := none, acts := [], waits := [] }

/-- Metering after a part reset: the minute in progress, if wall time is kept, yields no record, and the next one says RESTART
(R656, R657). -/
def keptMeter (wall : Bool) (m : Meter) : Meter :=
  let accs : FMap MtrAcc := m.accs.map (fun q => (q.1, { ({} : MtrAcc) with first := q.2.first }))
  { m with noted := [], wallHi := 0, closed := [], void := if wall then some m.minute else none, accs := accs }

/-- Kind of recovery that a part reset leaves to the next start-up: 0 clean, 1 after a complete sequence, 2 after an
incomplete one, 3 otherwise. -/
def recovKind (s : State) : Nat :=
  match s.plRun with
  | some p => if p.step = 5 then 1 else 2
  | none => if s.jr.cleanMark then 0 else 3

/-- The plane pages of a program unit with the codewords it programs. -/
def unitPages (s : State) (b : Band) (r pos : Nat) : List (Nat × List Cw) :=
  (List.range (4 * b.bits)).map (fun j => (b.puaOf r pos j,
    if (b.parities r).contains pos then
      (match mget b.accs (b.accCode r pos) with
      | some a => (List.range 4).map (fun i => if a.bad then Cw.garbled else .parity (mgetD a.data (4 * j + i) []))
      | none => [.garbled, .garbled, .garbled, .garbled])
    else match mget b.slots (b.slotOf r pos j) with
      | some (.unit u) => (match stAt s u with
        | some x => x.cws.map (fun c => match c with
          | some y => Cw.data y.sec
          | none => .filler)
        | none => [.filler, .filler, .filler, .filler])
      | _ => [.filler, .filler, .filler, .filler]))

/-- A program under way at a part reset: the flash die may complete or abandon it, which the spec leaves open (R388; log 4). -/
def cutProgram (s : State) (o : FlashOp) : State :=
  match o.owner with
  | .prog h r pos => (match bandAt s h with
    | some b =>
      let f := takeFree s
      let pages := if (Config.freeWord f.1).toNat % 2 = 0 then unitPages s b r pos
        else (unitPages s b r pos).map (fun p => (p.1, [Cw.garbled, .garbled, .garbled, .garbled]))
      { f.2 with flash := pages.foldl (fun m p => mset m p.1 p.2) s.flash }
    | none => s)
  | _ => s

/-- Every program under way, running or suspended. -/
def cutPrograms (s : State) : State :=
  ((s.dies.map (fun q => q.2.cur.toList ++ q.2.sus.toList)).flatten).foldl cutProgram s

/-- A part reset (R678, R679). Everything not listed here is as after manufacture: DRAM, SRAM, transport keys and
connections are lost. -/
def partReset (kind detail lo hi : Nat) (s0 : State) : State :=
  let por := kind = 1
  let s1 := latchReset { s0 with regs := if por then (keptRegs true s0.regs) else s0.regs } kind detail lo hi
  let s := cutPrograms (recReset s1)
  { pending := s.pending, out := s.out, now := s.now, free := s.free,
    regs := if por then s.regs else keptRegs false s.regs,
    mode := .reset,
    pos := if por then min 0xFFFFFFFFFF (s.recd.savedPos + 1) else s.pos,
    pcyc := if por then min 0xFFFFFFFF (s.pcyc + 1) else s.pcyc,
    flog := { s.flog with queue := [], held := [] },
    oos := { s.oos with cores := [] },
    eth := if por then [] else s.eth.map (fun q => (q.1, { ({} : EthPort) with wakeKey := q.2.wakeKey })),
    tenants := s.tenants.map (fun q => (q.1, keptTenant q.2)),
    nss := s.nss, nsKeys := s.nsKeys, keyGen := s.keyGen, lostSlots := s.lostSlots,
    nextKey := s.nextKey, keyRecs := s.keyRecs, sealCtr := s.sealCtr,
    mfEnroll := s.mfEnroll, savedRegs := s.savedRegs, savedIfs := s.savedIfs, diesets := s.diesets, bandCtr := s.bandCtr,
    blks := s.blks, flash := s.flash, jr := keptJournal s.jr, ckpts := s.ckpts, tabCkpt := s.tabCkpt,
    dies := s.dies.map (fun q => (q.1, { ({} : Die) with st := if q.2.st = .absent then .absent else .idle, tracked := q.2.tracked })),
    migs := s.migs, recd := s.recd, trecs := s.trecs,
    meter := keptMeter (!por && s.aon.wall.isSome) s.meter,
    aon := if por then { since := s.now, posAt := s.now } else { s.aon with aonHi := 0, posHi := 0, timer := none },
    plStat := { plRecord s with kind := recovKind s },
    pwr := { rails := [(0, { on := true, goodAt := some s.now, mv := 800 }), (16, { on := true, goodAt := some s.now, mv := 1800 })],
             seq := [15, 1, 6, 7, 8, 13, 14, 2, 3, 4, 5, 0x100, 0x101, 0x102, 0x103], seqAt := s.now },
    therm := { shdn := s.therm.shdn && !(por || kind = 2) },
    slots := s.slots, sealedProfile := s.sealedProfile, eraseBook := s.eraseBook,
    dieRecs := s.dieRecs, models := s.models, geometry := s.geometry,
    dram := { retired := s.dram.retired }, gpioExt := s.gpioExt }

/-- A FATAL reset by an uncorrectable word of the code SRAM, at a byte offset (R686, R696). -/
def codeReset (off : Nat) (s : State) : State := partReset 5 0x1000 (off % 8388608 / 8 * 8) 0 s

/-- A FATAL reset whose origin is a report to a page (R686). -/
def fatalReset (k : PageKind) (i lo hi : Nat) (s : State) : State := partReset 5 (pageNo k i) lo hi s

end Sys2Proof.Machine
end

