-- ==== Sys2Proof/Machine/Settle.lean ====
section
/-! DEFINITION. What the part brings about by itself at the end of every step, from the state the step left: FAULT_N,
ALERT_N and register-interrupt events, die sets that become full, Critical Warning bits, shutdowns that end
(02_register_pages.md R60, R67, R96–R100; 04 R187; 07 R312, R323–R326; 13 R518; 19 R671, R684, R687). -/

namespace Sys2Proof.Machine

/-! ### Interrupt lines (R60, R67, R96–R100) -/

/-- INT_OUT of a page is nonzero: a set bit of INT_RAW has its bit of INT_EN set (R60). -/
def pageInt (s : State) (base : Nat) : Bool :=
  match mget s.regs (base + 0x18), mget s.regs (base + 0x1C) with
  | some a, some b => a &&& b ≠ 0
  | _, _ => false

/-- Some INT_SUMMARY bit is 1 (R67). -/
def anyInt (s : State) : Bool := s.regs.any (fun q => q.1 % 0x1000 = 0x18 && pageInt s (q.1 - 0x18))

/-- The event of R96, unless none may be posted before log page 0xE0 is read (R98). -/
def settleAen (s : State) : State :=
  if s.mgmt.aenArmed && getF s .dir 0 F.DIR_CTRL_AEN_EN = 1 && anyInt s && !(ctrl s fnMF).aers.isEmpty then
    postEvent { s with mgmt := { s.mgmt with aenArmed := false } } fnMF (aerDw0 7 1 0xE0)
  else s

/-- ALERT_N and the in-band interrupt (R99, R100). In HOLD the I3C pins are high-impedance and none is raised (R724).
SB_CTRL.I3C_EN does not bear on it (DESIGN CHOICE, log 149). -/
def settleAlert (s : State) : State :=
  let c := getF s .dir 0 F.DIR_CTRL_ALERT_EN = 1 && anyInt s
  let s1 := { s with mgmt := { s.mgmt with intCond := c, alertLow := c } }
  if c && !s.mgmt.intCond && s.mode ≠ .hold && getF s .dir 0 F.DIR_CTRL_IBI_EN = 1 &&
      getF s .mgt 0 F.MGT_SB_STAT_IBI_ON = 1 then
    emit s1 (.ibi 0x01)
  else s1

/-! ### FAULT_N (R684, R687) -/

/-- A rank has failed with no spare, or there is no spare (R549). -/
def noSpare (s : State) : Bool := getF s .drx 0 F.DRX_SPARE_STATE = 3

/-- FAULT_STAT.ACTIVE. -/
def faultActive (s : State) : Nat :=
  (!s.oos.tiles.isEmpty).toNat + (!s.oos.lanes.isEmpty).toNat * 2 + (!s.oos.dies.isEmpty).toNat * 4 +
  (noSpare s).toNat * 8 + (!s.oos.cores.isEmpty).toNat * 16 + (decide (s.mode = .service)).toNat * 32 +
  (decide (8192 ≤ s.flog.log.length)).toNat * 64

/-- FAULT_N is low while an enabled condition is active; during a part reset it is high-impedance. -/
def settleFault (s : State) : State :=
  { s with mgmt := { s.mgmt with
      faultLow := s.mode ≠ .reset && (faultActive s &&& getF s .boot 0 F.BOOT_FAULT_CTRL_MASK) ≠ 0 } }

/-! ### Full die sets (R323–R325) -/

/-- LIVE of a die set in sectors: mapped entries, and staged sectors not yet mapped. -/
def dsLive (s : State) (d : Nat) : Nat :=
  ((s.nss.filter (fun q => q.2.dieSet = d)).map (fun q =>
    (q.2.map.filter (fun e => match e.2 with
      | .at _ _ => true
      | _ => false)).length * (if q.2.zoned then 4 else 1))).sum +
  ((s.staged.filter (fun q => q.2.dieSet = d && q.2.slot.isNone && !q.2.reloc)).map (fun q => q.2.secs.length)).sum

/-- A die set becomes full, or stops being full. -/
def settleFull (s : State) : State :=
  s.diesets.foldl (fun s q =>
    let d := q.2
    let logical := dsLogical s d
    let allotted := dsAllotted s q.1
    let live := dsLive s q.1
    if d.full then
      if live + bandSectors s d ≤ logical || allotted ≤ logical then modDs s q.1 (fun d => { d with full := false }) else s
    else if logical < allotted && logical ≤ live then
      raise (modDs s q.1 (fun d => { d with full := true })) .mape 0 F.MAPE_INT_RAW_FULL
    else s) s

/-- A die set whose free bands fall to DS_THR.BANDS_LOW in a step sets the interrupt bit (R286, R288). -/
def settleLow (s : State) : State :=
  let thr := getF s .zne 0 F.ZNE_DS_THR_BANDS_LOW
  s.diesets.foldl (fun s q =>
    let fb := freeBands s q.2
    let s1 := if fb = q.2.freeWas then s else modDs s q.1 (fun d => { d with freeWas := fb })
    if thr ≠ 0 && fb ≤ thr && thr < q.2.freeWas then raise s1 .zne 0 F.ZNE_INT_RAW_BANDS_LOW else s1) s

/-- A band that is needed waits for a handle, or a loss for its SEQ, under its counter's mark: counted once for each wait
(R352). -/
def settleMarks (s : State) : State :=
  let s1 := if !s.bandCtr.room 1 && !s.bandCtr.waits && s.staged.any (fun q => q.2.isReady) then
      markWaits { s with bandCtr := { s.bandCtr with waits := true } } else s
  match s1.jr.acts with
  | (n, .poison k _ _ _ _ _) :: _ => (match nsAt s1 k with
    | some m =>
      let c := (tenant s1 m.tenant).deferSeq
      if n ≤ s1.jr.head && !c.room 1 && !c.waits then
        markWaits (modTenant s1 m.tenant (fun t => { t with deferSeq := { t.deferSeq with waits := true } }))
      else s1
    | none => s1)
  | _ => s1

/-! ### Critical Warning (R312, R326, R671) -/

/-- The die sets a function's health log looks at: those of a tenant's namespaces, or every die set for MF. -/
def fnDieSets (s : State) (f : Nat) : List DieSet :=
  if f = fnMF then s.diesets.map Prod.snd
  else (s.diesets.filter (fun q => s.nss.any (fun n => n.2.tenant = f && n.2.dieSet = q.1))).map Prod.snd

/-- Available Spare in percent (R312). -/
def availSpare (s : State) (ds : List DieSet) : Nat :=
  (ds.map (fun d => (activeMembers s d).map (fun m => 100 * d.spare.getD m.1 0 / max 1 (d.initSpare.getD m.1 0)))).flatten.foldl
    min 100

/-- Critical Warning bits 0, 2 and 3 of a function. -/
def critBits (s : State) (f : Nat) : Nat :=
  let ds := fnDieSets s f
  let b0 := decide (availSpare s ds < getF s .mape 0 F.MAPE_SPARE_CTRL_WARN_PCT)
  let b2 := if f = fnMF then
      !s.oos.dies.isEmpty || !s.oos.lanes.isEmpty || !s.oos.tiles.isEmpty || !s.oos.cores.isEmpty ||
        (noSpare s && getF s .drx 0 F.DRX_SPARE_FAILED_RANK + getF s .drx 0 F.DRX_SPARE_FAILED_CH ≠ 0)
    else ds.any (fun d => d.members.any (dieOut s))
  let b3 := ds.any (·.full)
  b0.toNat + b2.toNat * 4 + b3.toNat * 8

/-- A bit that becomes set posts its event. -/
def settleCritOf (s : State) (f : Nat) : State :=
  let old := (ctrl s f).critWarn
  let new := critBits s f
  if old = new then s
  else
    let s1 := modCtrl s f (fun c => { c with critWarn := new })
    let s2 := if new % 2 = 1 && old % 2 = 0 then
      raise (postEvent s1 f (aerDw0 1 2 2)) .mape 0 F.MAPE_INT_RAW_SPARE_LOW else s1
    let s3 := if new / 4 % 2 = 1 && old / 4 % 2 = 0 then postEvent s2 f (aerDw0 1 0 2) else s2
    if new / 8 % 2 = 1 && old / 8 % 2 = 0 then postEvent s3 f (aerDw0 1 0 2) else s3

/-- Every function with a controller in use. -/
def settleCrit (s : State) : State :=
  ((s.tenants.filter (fun q => q.2.state ≠ .free)).map Prod.fst ++ [fnMF]).foldl settleCritOf s

/-! ### Shutdowns (R187) -/

/-- A controller's shutdown: with no command outstanding its tenant's acknowledged data is programmed, and once all of it
is, CSTS.SHST reads 0b10. -/
def settleShutOf (s : State) (f : Nat) : State :=
  if (ctrl s f).shutdown && !(s.cmds.any (fun q => q.2.fn = f)) && !adminBusy s f then
    let us := ackedUnits s ((s.nss.filter (fun q => q.2.tenant = f)).map Prod.fst)
    if us.isEmpty then modCtrl s f (fun c => { c with shst := 2, shutdown := false }) else forceUnits s us
  else s

/-- Every shutdown under way. -/
def settleShut (s : State) : State := ((s.ctrls.filter (fun q => q.2.shutdown)).map Prod.fst).foldl settleShutOf s

/-! ### The clean mark (R364) -/

/-- MRJ writes the clean mark when no acknowledged data is unprogrammed and no record is staged. -/
def settleClean (s : State) : State :=
  if !s.jr.cleanMark && ackedSectors s = 0 && s.jr.staged.isEmpty && s.jr.flushing.isEmpty then
    { s with jr := { s.jr with cleanMark := true } }
  else s

/-! ### Held entries of the fault queue (R675) -/

/-- An entry its source holds enters the queue when a place is free. -/
def settleHeld (s : State) : State :=
  match s.flog.held with
  | e :: t => if s.flog.queue.length < 256 then { s with flog := { s.flog with queue := s.flog.queue ++ [e], held := t } } else s
  | [] => s

/-- After a wake the minutes noted in DOZE or HOLD are closed first (R661). -/
def settleNoted (s : State) : State :=
  if (s.mode = .run || s.mode = .guard) && !s.meter.noted.isEmpty then closeNoted s else s

/-- The word of the code SRAM that is uncorrectable as the cores start an activated image, once its hold ends. -/
def codeFails (s : State) : Option Nat := s.fwHold.bind (fun h => if h.due ≤ s.now then h.ue else none)

/-- A FATAL reset that a memory asked for takes effect (R581, R678); that of an uncorrectable word of the code SRAM has the
origin 0x1 and the word's byte offset (R686, R696). -/
def settleDoom (s : State) : State :=
  match s.doom, codeFails s with
  | some d, _ => partReset 5 d.1 d.2.1 d.2.2 s
  | none, some off => codeReset off s
  | none, none => s

/-- An activation ends when its time has come; once the hold has ended, the commands that waited are admitted (R188, R703). -/
def settleHold (s0 : State) : State :=
  let s := (match s0.fwHold with
    | some h => if h.due ≤ s0.now then fwEnd s0 h else s0
    | none => s0)
  if s.fwHold.isNone && s.plRun.isNone && getF s .cfe 0 F.CFE_STAT_HOLDING = 1 then
    pump (setF { s with arb := { s.arb with holdTo := s.nextCmd } } .cfe 0 F.CFE_STAT_HOLDING 0)
  else s

/-- What every step settles at its end. -/
def settle (s0 : State) : State :=
  let s := settleDoom s0
  if s.mode = .reset then settleFault s
  else settleFault (settleAlert (settleTls (settleAen (settleCrit (settleFull (settleLow (settleMarks (settleShut (settleClean
    (settleHeld (settleNoted (settleImports (settleRebuilds (settleClimbs (settleHold s)))))))))))))))

/-- A command's effect, and what follows from it in the same step. -/
def done (s : State) : Res := .next (settle s)

end Sys2Proof.Machine
end

