-- ==== Sys2Proof/Machine/Ethernet.lean ====
section
/-! DEFINITION. Ethernet ports, flow and congestion control, connections and their transports, TLS
(03_ethernet_transport.md R101–R157; R542 of 14_memories_buffers_dram.md for the port FIFOs). -/

namespace Sys2Proof.Machine

/-! ### Ports and interfaces -/

/-- The broadcast MAC address. -/
def macBroadcast : Nat := 0xFFFFFFFFFFFF

/-- The IP MTU in force: clamped to 1,500 to 9,000 (R144). -/
def portMtu (s : State) (p : Nat) : Nat := max 1500 (min 9000 (getF s .eth p F.ETH_PORT_CTRL_MTU))

/-- The valid interface on a port that has an address on a VLAN, by table index (R106, R107). -/
def findIf (s : State) (p vlan ip : Nat) : Option Nat :=
  (s.ifs.find? (fun q => q.2.valid && q.2.onPort p && q.2.vlan = vlan && q.2.addr = ip)).map Prod.fst

/-- The solicited-node multicast MAC of an IPv6 address. -/
def solicitedMac (ip : Nat) : Nat := 0x3333FF000000 + ip % 2 ^ 24

/-! ### Flow control (R113, R114, R542) -/

/-- The 4 MiB of a real-time port FIFO. -/
def rtpSize : Nat := 4194304

/-- Bytes in a port's FIFO: the sum of the priorities' levels. -/
def rtpLevel (e : EthPort) : Nat := (e.level.map Prod.snd).sum

/-- XOFF threshold in KiB (R147): 0 acts as 1, values above 4,096 as 4,096. -/
def xoffKib (s : State) (p : Nat) : Nat := max 1 (min 4096 (getF s .eth p F.ETH_PFC_THR_XOFF_KIB))

/-- XON threshold in KiB (R147): at or above XOFF it acts as XOFF minus 1. -/
def xonKib (s : State) (p : Nat) : Nat :=
  if xoffKib s p ≤ getF s .eth p F.ETH_PFC_THR_XON_KIB then xoffKib s p - 1 else getF s .eth p F.ETH_PFC_THR_XON_KIB

/-- LOSSY_LIM in bytes (R147). -/
def lossyLim (s : State) (p : Nat) : Nat := max 1 (min 64 (getF s .eth p F.ETH_PFC_CTRL_LOSSY_LIM)) * 65536

/-- A priority is lossless on a port (R114). -/
def isLossless (s : State) (p prio : Nat) : Bool := getF s .eth p F.ETH_PFC_CTRL_LOSSLESS / 2 ^ prio % 2 = 1

/-- Half of the quanta sent, in ns: quanta × 512 bit times at 400 Gb/s, halved (R113, R114). -/
def pfcHalf (s : State) (p : Nat) : Nat := getF s .eth p F.ETH_PFC_CTRL_QUANTA * 64 / 100

/-- Send a PFC frame for one priority, to the multicast address of MAC control frames. No priority's pause stops it. -/
def pfcSend (s : State) (p prio quanta : Nat) : State :=
  emit s (.frame "pfc" (prio * 65536 + quanta) { port := p, dst := 0x0180C2000001, src := portMac s p })

/-- One priority against its thresholds (R114, R147): pausing starts when a lossless priority's level reaches XOFF, ends
when it falls below XON, and is forgotten when the priority is no longer lossless or the port sends nothing. -/
def pfcReviewOne (s : State) (p prio : Nat) : State :=
  let e := eth s p
  let level := mgetD e.level prio 0
  if !isLossless s p prio || !portSends s p then setEth s p { e with xoff := mdel e.xoff prio }
  else match mget e.xoff prio with
    | some _ => if level < xonKib s p * 1024 then pfcSend (setEth s p { e with xoff := mdel e.xoff prio }) p prio 0 else s
    | none =>
      if xoffKib s p * 1024 ≤ level then
        pfcSend (setEth s p { e with xoff := mset e.xoff prio (s.now + pfcHalf s p) }) p prio
          (getF s .eth p F.ETH_PFC_CTRL_QUANTA)
      else s

/-- Every priority of a port against its thresholds. -/
def pfcReview (s : State) (p : Nat) : State := (List.range 8).foldl (fun t prio => pfcReviewOne t p prio) s

/-- PANIC_HI and PANIC_LO in force, in percent (R561). -/
def panicHi (s : State) : Nat := min 100 (getF s .drx 0 F.DRX_RTP_CTRL_PANIC_HI)
def panicLo (s : State) : Nat := min (getF s .drx 0 F.DRX_RTP_CTRL_PANIC_LO) (panicHi s - 1)

/-- A FIFO enters panic when its level reaches PANIC_HI percent, and each entry is counted (R542). -/
def rtpPanicIn (s : State) (p : Nat) : State :=
  let e := eth s p
  if !e.panic ∧ panicHi s * rtpSize ≤ rtpLevel e * 100 then
    raise (bump (setEth s p { e with panic := true }) .drx 0 (if p = 0 then F.DRX_PANICS_PORT0 else F.DRX_PANICS_PORT1))
      .drx 0 F.DRX_INT_RAW_PANIC
  else s

/-- A FIFO leaves panic when its level falls to PANIC_LO percent (R542). -/
def rtpPanicOut (s : State) (p : Nat) : State :=
  let e := eth s p
  if e.panic ∧ rtpLevel e * 100 ≤ panicLo s * rtpSize then setEth s p { e with panic := false }
  else s

/-- A frame of a priority enters the port's FIFO, or is dropped: at a full FIFO, or for a lossy priority at LOSSY_LIM
(R114, R542). Answers whether it entered. Where both hold, DRX.RTP_DROPS alone counts it (DESIGN CHOICE, log 153). -/
def rtpEnter (s : State) (p prio bytes : Nat) : State × Bool :=
  let e := eth s p
  if rtpSize < rtpLevel e + bytes then
    (bump s .drx 0 F.DRX_RTP_DROPS_COUNT, false)
  else if !isLossless s p prio ∧ lossyLim s p < mgetD e.level prio 0 + bytes then
    (bump s .eth p F.ETH_LOSSY_DROP_COUNT, false)
  else
    let s1 := setEth s p { e with level := mput e.level prio 0 (mgetD e.level prio 0 + bytes) }
    (rtpPanicIn (pfcReviewOne s1 p prio) p, true)

/-! ### Connections' own effects -/

/-- A connection belongs to a tenant, so a throttled part marks its data (R117). -/
def connOfTenant (c : Conn) : Bool := match c.fn with
  | some f => f < 512
  | none => false

/-- DEC_GAP in ns (R154). -/
def decGap (s : State) : Nat := getF s .tte 0 F.TTE_CC_CTRL_DEC_GAP * 1000

/-- The RDMA queue pair of a connection enters the error state (R130, R131, R155). -/
def qpError (s : State) (id : Nat) : State :=
  match connOf s id with
  | some c => connLost (protoError (bump s .tte 0 F.TTE_QP_ERR) c) id
  | none => s

/-- A RoCEv2 packet marked CE makes the part send a congestion notification packet, at most one per DEC_GAP (R116). -/
def sendCnp (s : State) (id : Nat) : State :=
  match connOf s id with
  | some c =>
    if c.lastCnp.any (fun t => decide (s.now < t + decGap s)) then s
    else tell (setConn s id { c with lastCnp := some s.now }) id c "cnp" []
  | none => s

/-- Receive buffers of a connection in use: a capsule's buffer is posted again when its command has ended (log 141). -/
def heldBufs (s : State) (c : Conn) (id : Nat) : Nat :=
  (s.cmds.filter (fun q => q.2.conn = id)).length + (s.adminWaits.filter (fun w => w.1 = id)).length +
    (match c.fn with
    | some f => ((ctrl s f).aers.filter (fun a => a.1 = id)).length
    | none => 0)

/-- What a packet acknowledges: a new acknowledgement restarts the timeout and the count of retries (R131, R134). -/
def Acks.take (now : Nat) (a : Acks) (c : Conn) : Conn :=
  match a with
  | .nothing => c
  | .part => { c with retries := 0, ackAt := some now }
  | .all => { c with retries := 0, ackAt := none }

/-- A received packet is handled as marked CE: it is, or a throttled part takes tenant data for marked (R117). -/
def takenCe (s : State) (c : Conn) (ce dataBearing : Bool) : Bool :=
  ce || (getF s .tte 0 F.TTE_STAT_THROTTLE_ECN = 1 && dataBearing && connOfTenant c)

/-- ECE and CWR of a received segment, as in RFC 3168 (R116, R118): a marked segment sets the ECE latch, which CWR clears;
ECE halves the congestion window once per window of data, and CWR answers it. -/
def tcpEcn (marked ece cwr past : Bool) (c : Conn) : Conn :=
  let reduced := c.reduced && !past
  { c with
    ece := marked || (c.ece && !cwr)
    reduced := reduced || ece
    cwnd := if ece && !reduced then c.cwnd / 2 else c.cwnd
    cwr := c.cwr || (ece && !reduced) }

/-- A received packet of a connection: its source is where the part sends from now on (R110), it acknowledges, a CE mark is
answered (R116, R117), ECE halves the congestion window (R118), and a Send that finds no receive buffer is a protocol
violation (R130). A packet that arrives at another port than its connection's, or is RoCEv2 for another UDP port than 4791,
is of no connection (DESIGN CHOICE, log 154). -/
def frameBody (s : State) (p src vlan : Nat) (ce : Bool) (b : FrameBody) : State :=
  match b.conn.bind (fun id => (connOf s id).map (fun c => (id, c))) with
  | none => s
  | some (id, c0) =>
    if c0.port ≠ p then s
    else
      let c := { c0 with peerMac := src, vlan := vlan }
      match b with
      | .other => s
      | .roce _ udp isSend dataBearing acks =>
        if udp ≠ 4791 ∨ !c.rdma then s
        else
          let s1 := setConn s id (acks.take s.now c)
          let s2 := if takenCe s c ce dataBearing then sendCnp s1 id else s1
          if isSend then
            match connOf s2 id with
            | some d => if d.recvBufs ≤ heldBufs s2 d id then qpError s2 id else s2
            | none => s2
          else s2
      | .tcp _ dataBearing ece cwr past acks =>
        if c.rdma then s
        else
          let marked := takenCe s c ce dataBearing
          let c1 := tcpEcn marked ece cwr past (acks.take s.now c)
          if marked then tell (setConn s id c1) id c1 "ack" [] else setConn s id c1

/-- The port carries frames: its link is up, its transmitter on, and the mode keeps its MAC listening (R103, R144). -/
def portLive (s : State) (p : Nat) : Bool :=
  (eth s p).linkUp && getF s .eth p F.ETH_PORT_CTRL_ENABLE = 1 && s.plRun.isNone &&
    (s.mode = .run || s.mode = .guard || s.mode = .service || s.mode = .doze)

/-- The VLAN of a frame: 0 when untagged. A priority-tagged frame, whose tag has VLAN ID 0, is on none (DESIGN CHOICE,
log 155), nor is one with two tags. -/
def frameVlan (tags : List (Nat × Nat)) : Option Nat :=
  match tags with
  | [] => some 0
  | [(_, v)] => if v = 0 then none else some v
  | _ => none

/-- A solicited-node multicast MAC address of an IPv6 interface on a port. -/
def isSolicited (s : State) (p dst : Nat) : Bool :=
  s.ifs.any (fun q => q.2.valid && q.2.onPort p && !q.2.isV4 && dst = solicitedMac q.2.addr)

/-- The interface that accepts an IP frame (R107): its VLAN, its destination MAC and IP addresses. -/
def acceptIf (s : State) (f : EthFrame) : Option Nat :=
  if f.etherType ≠ (if f.v6 then 0x86DD else 0x0800) then none
  else match frameVlan f.tags with
    | none => none
    | some v =>
      match findIf s f.port v f.dstIp with
      | none => none
      | some i =>
        if (ifAt s i).isV4 = !f.v6 ∧ (f.dst = portMac s f.port ∨ f.dst = macBroadcast ∨ isSolicited s f.port f.dst) then some i
        else none

/-- The priority of a frame: the PCP of its tag, 0 untagged (log 21). -/
def framePrio (f : EthFrame) : Nat := match f.tags with
  | (p, _) :: _ => p % 8
  | [] => 0

/-- A wake that abandoned a mode entry lets admission resume (R596). -/
def resumeAfter (s0 s : State) : State := if s0.pwr.entry.isSome then pump s else s

/-- FRAME_RECEIVED (R102, R105, R107, R108, R114, R116, R148, R542, R598). A frame over the MTU counts there alone, be it a
fragment or with options too (DESIGN CHOICE, log 156). -/
def frameReceived (f : EthFrame) (s0 : State) : State :=
  let s := bumpBy s0 .eth f.port F.ETH_FEC_CORR f.fecCorr
  if !portLive s0 f.port then s0
  else if f.fecUnc ≠ 0 then raise (bumpBy s .eth f.port F.ETH_FEC_UNC f.fecUnc) .eth f.port F.ETH_INT_RAW_FEC_UNC
  else if f.bytes < 64 ∨ 9216 < f.bytes ∨ 2 ≤ f.tags.length then s
  else if f.etherType = 0x88B5 ∧ (f.dst = portMac s f.port ∨ f.dst = macBroadcast) then
    if f.wakeSubtype = 0x5A01 then resumeAfter s (wakeFrameOp f.port f.wakeKey s) else s
  else
    match acceptIf s f with
    | none => s
    | some _ =>
      if portMtu s f.port < f.ipLen then bump s .eth f.port F.ETH_RX_DROP_OVER_MTU
      else if f.fragment ∨ f.options then bump s .eth f.port F.ETH_RX_DROP_MALFORMED
      else
        let r := rtpEnter s f.port (framePrio f) f.bytes
        if r.2 then resumeAfter s (wakeEvent 1 (frameBody r.1 f.port f.src ((frameVlan f.tags).getD 0) f.ce f.body)) else r.1

/-- RTP_DRAIN (R542, R114): bytes of a priority leave the port's FIFO for DRAM. -/
def rtpDrain (p prio bytes : Nat) (s : State) : State :=
  let e := eth s p
  let s1 := setEth s p { e with level := mput e.level prio 0 (mgetD e.level prio 0 - bytes) }
  rtpPanicOut (pfcReviewOne s1 p prio) p

/-- PFC_REFRESH_TIMER (R114): half the quanta have passed with the level at or above XON. -/
def pfcRefresh (p prio : Nat) (s : State) : State :=
  let e := eth s p
  match mget e.xoff prio with
  | some t =>
    if t ≤ s.now ∧ isLossless s p prio ∧ portSends s p ∧ xonKib s p * 1024 ≤ mgetD e.level prio 0 then
      pfcSend (setEth s p { e with xoff := mset e.xoff prio (s.now + pfcHalf s p) }) p prio
        (getF s .eth p F.ETH_PFC_CTRL_QUANTA)
    else s
  | none => s

/-- One priority of a received PFC frame (R113): paused for quanta × 512 bit times, or resumed by quanta 0. -/
def pfcOne (s : State) (p prio quanta : Nat) : State :=
  let e := eth s p
  if quanta = 0 then setEth s p { e with paused := mdel e.paused prio }
  else setEth s p { e with paused := mset e.paused prio (s.now + ceilDiv (quanta * 128) 100) }

/-- PFC_FRAME (R105, R107, R113): the named priorities with their quanta, in a frame to the port's MAC address or to the
multicast address of MAC control frames; what waited for a resumed priority leaves. -/
def pfcFrame (p dst : Nat) (l : List (Nat × Nat)) (s : State) : State :=
  if portLive s p && (dst = portMac s p || dst = 0x0180C2000001) then
    txFlush (l.foldl (fun s q => pfcOne s p (q.1 % 8) (q.2 % 65536)) s)
  else s

/-- PFC_PAUSE_EXPIRY (R113). -/
def pfcExpiry (p prio : Nat) (s : State) : State :=
  let e := eth s p
  match mget e.paused prio with
  | some t => if t ≤ s.now then txFlush (setEth s p { e with paused := mdel e.paused prio }) else s
  | none => s

/-! ### Address resolution (R107, R109) -/

/-- Firmware answers from an interface to the frame's source, on the VLAN it came on. -/
def answer (s : State) (what : String) (p vlan i src : Nat) (ip : Bool) : State :=
  txPut s (ifHdr s p i vlan src ip) (.frame what i (ifHdr s p i vlan src ip))

/-- ARP_REQUEST: an ARP frame on the VLAN of a valid IPv4 interface of the port, naming its address as its target. -/
def arpRequest (p vlan ip src : Nat) (s : State) : State :=
  match findIf s p vlan ip with
  | some i => if portLive s p && (ifAt s i).isV4 then answer s "arp" p vlan i src false else s
  | none => s

/-- The solicited-node multicast IP address of an IPv6 address. -/
def solicitedIp (ip : Nat) : Nat := 0xFF0200000000000000000001FF000000 + ip % 2 ^ 24

/-- The valid IPv6 interface of a port with an address, on whatever VLAN (R107). -/
def findV6 (s : State) (p ip : Nat) : Option Nat :=
  (s.ifs.find? (fun q => q.2.valid && q.2.onPort p && !q.2.isV4 && q.2.addr = ip)).map Prod.fst

/-- NEIGHBOR_SOLICITATION: sent to the solicited-node multicast IP address of a valid IPv6 interface of the port, naming its
address as its target (R107). That address is the target's own, whose low 24 bits it carries. -/
def neighborSolicitation (p vlan dstIp target src : Nat) (s : State) : State :=
  match findV6 s p target with
  | some i => if portLive s p && dstIp = solicitedIp target then answer s "nadv" p vlan i src true else s
  | none => s

/-- ICMP_ECHO: answered for the addressed interface, in a frame that R107 accepts. -/
def icmpEcho (p vlan ip dst src : Nat) (s : State) : State :=
  match findIf s p vlan ip with
  | some i =>
    if portLive s p && (dst = portMac s p || dst = macBroadcast || isSolicited s p dst) then answer s "echo" p vlan i src true
    else s
  | none => s

/-! ### Link state (R103, R126, R144, R145) -/

/-- The port has seen no high symbol error rate for 10 ms. -/
def portQuiet (s : State) (p : Nat) : Bool := (eth s p).serAt.all (fun t => decide (t + 10000000 ≤ s.now))

/-- A port that holds its lock, is quiet and has ENABLE 1 reports link up (R103); what waited for the link leaves, and
priorities that are to be paused are. -/
def portTryUp (p : Nat) (s : State) : State :=
  if getF s .eth p F.ETH_PORT_CTRL_ENABLE = 1 ∧ (eth s p).amLock ∧ !(eth s p).linkUp ∧ portQuiet s p then
    pfcReview (txFlush (raise (modEth s p (fun e => { e with linkUp := true, holdUntil := none })) .eth p F.ETH_INT_RAW_LINK_UP)) p
  else s

/-- LINK_UP: lock on all four lanes. Within 10 ms of high symbol error rate the port only shows its lock. -/
def linkUp (p : Nat) (s : State) : State :=
  if s.mode ≠ .reset ∧ s.mode ≠ .hold then portTryUp p (modEth s p (fun e => { e with amLock := true })) else s

/-- The connections of a port. -/
def portConns (s : State) (p : Nat) : List Nat := (s.conns.filter (fun q => q.2.port = p)).map Prod.fst

/-- The connections of a port are lost with the link, and with them what waited for it. -/
def portLost (s : State) (p : Nat) : State :=
  let s1 := connsLost s (portConns s p)
  { s1 with txWait := s1.txWait.filter (fun o => !o.hdr?.any (fun h => h.port = p)) }

/-- A link that is up goes down: its connections are held for LINK_HOLD, or lost at once when it is 0. The part's own pauses
end with it. -/
def linkGoesDown (p : Nat) (keepLock : Bool) (s : State) : State :=
  if (eth s p).linkUp then
    let h := getF s .eth p F.ETH_PORT_CTRL_LINK_HOLD
    let s1 := raise (modEth s p (fun e =>
        { e with amLock := e.amLock && keepLock, linkUp := false, xoff := [],
                 holdUntil := if h = 0 then none else some (s.now + h * 100000000) })) .eth p F.ETH_INT_RAW_LINK_DOWN
    if h = 0 then portLost s1 p else s1
  else modEth s p (fun e => { e with amLock := e.amLock && keepLock })

/-- LINK_DOWN: lock is lost, or the port enters high symbol error rate and keeps its lock. -/
def linkDown (p : Nat) (highSer : Bool) (s : State) : State :=
  let s1 := linkGoesDown p highSer s
  if highSer then modEth s1 p (fun e => { e with serAt := some s.now }) else s1

/-- LINK_HOLD_EXPIRY. -/
def linkHoldExpiry (p : Nat) (s : State) : State :=
  match (eth s p).holdUntil with
  | some t => if t ≤ s.now then portLost (modEth s p (fun e => { e with holdUntil := none })) p else s
  | none => s

/-! ### Congestion control (R118) -/

/-- CNP_RECEIVED: the rate drops by rate / 2^DEC_SHIFT, at most once per DEC_GAP, and never below 1 Gb/s. -/
def cnpReceived (id : Nat) (s : State) : State :=
  match connOf s id with
  | some c =>
    let free : Bool := match c.lastDrop with
      | some t => t + decGap s ≤ s.now
      | none => true
    if c.rdma && free then
      setConn s id { c with
        rate := max 1000000000 (c.rate - c.rate / 2 ^ (max 1 (getF s .tte 0 F.TTE_CC_CTRL_DEC_SHIFT)))
        lastDrop := some s.now, rateAt := s.now }
    else s
  | none => s

/-- RATE_INCREASE: INC_PERIOD has passed without a drop; the rate rises by INC_STEP Gb/s, to at most 400 Gb/s. -/
def rateIncrease (id : Nat) (s : State) : State :=
  match connOf s id with
  | some c =>
    if c.rdma ∧ c.rateAt + max 1 (getF s .tte 0 F.TTE_CC_CTRL_INC_PERIOD) * 10000 ≤ s.now then
      setConn s id { c with
        rate := min 400000000000 (c.rate + getF s .tte 0 F.TTE_CC_CTRL_INC_STEP * 1000000000), rateAt := s.now }
    else s
  | none => s

/-! ### The connection pool (R119, R120, R205) -/

/-- Entries of the pool in use. -/
def poolUsed (s : State) : Nat := (s.conns.filter (fun q => !q.2.mgmt)).length

/-- Connections of MF. -/
def mfConns (s : State) : Nat := (s.conns.filter (fun q => q.2.mgmt)).length

/-- The connections bound to a tenant. -/
def boundTo (s : State) (t : Nat) : Nat := (s.conns.filter (fun q => q.2.fn = some t)).length

/-- Entries reserved for tenants (R205). -/
def poolReserved (s : State) : Nat :=
  ((s.tenants.filter (fun q => q.2.state ≠ .free)).map (fun q => q.2.par.ioqGrant + 1)).sum

/-- Entries that discovery connections hold. -/
def poolDisc (s : State) : Nat := (s.conns.filter (fun q => q.2.disc)).length

/-- A connection of the I/O service that no controller has taken yet, or that was refused. -/
def Conn.unbound (c : Conn) : Bool := c.fn.isNone && !c.disc && !c.mgmt

/-- Reserved entries not yet used of the tenants that an interface serves; `none` counts every tenant. -/
def poolNeed (s : State) (i : Option Nat) : Nat :=
  ((s.tenants.filter (fun q => q.2.state ≠ .free && i.all (fun k => q.2.par.ifMask / 2 ^ k % 2 = 1))).map
    (fun q => q.2.par.ioqGrant + 1 - boundTo s q.1)).sum

/-- Entries that no tenant holds and no connection uses. Connections not yet taken count against reservations first. -/
def poolSpare (s : State) : Nat :=
  16384 - (poolDisc s + poolReserved s + ((s.conns.filter (fun q => q.2.unbound)).length - poolNeed s none))

/-- No entry is left for a connection of the given kind at an interface: MF has 4 of its own, discovery draws on what no
tenant holds, and an I/O connection on that or on what is reserved for the tenants of its interface (R119, R120, R205; for a
connection whose tenant its Connect will name only later, DESIGN CHOICE, log 157). -/
def poolEmpty (s : State) (i : Nat) (mgmt disc : Bool) : Bool :=
  if mgmt then decide (4 ≤ mfConns s)
  else decide (16384 ≤ poolUsed s) || (decide (poolSpare s = 0) &&
    (disc || decide (poolNeed s (some i) ≤ (s.conns.filter (fun q => q.2.unbound && q.2.ifIdx = i)).length)))

/-- A new queue pair or connection arrives at a service of the part on one of its interfaces (R110, R119, R120): its own
properties are in `c0`. -/
def newConn (c : NewConn) (c0 : Conn) (refusal : String) (s : State) : State :=
  let disc : Bool := c.service = getF s .tte 0 F.TTE_L4_PORTS_DISC_PORT
  match findIf s c.port c.vlan c.dstIp with
  | none => s
  | some i =>
    if !portLive s c.port || (connOf s c.conn).isSome || !(disc || c.service = getF s .tte 0 F.TTE_L4_PORTS_IO_PORT) then s
    else
      let k : Conn := { c0 with port := c.port, ifIdx := i, vlan := c.vlan, peerMac := c.peerMac, disc := disc,
                                mgmt := (ifAt s i).mgmt && !disc, rateAt := s.now, recvBufs := 1 }
      if poolEmpty s i k.mgmt disc then tell (raise s .tte 0 F.TTE_INT_RAW_POOL_EMPTY) c.conn k refusal []
      else tell (setConn s c.conn k) c.conn k "accept" []

/-- The queue pair that a connect request asks for is one the part supports: Reliable Connected, without a shared receive
queue and atomics, with a path MTU that the port's MTU allows (R128). -/
def rdmaOk (s : State) (p : Nat) (r : RdmaReq) : Bool :=
  r.rc && !r.srq && !r.atomics && [1024, 2048, 4096].contains r.mtu && decide (r.mtu + 128 ≤ portMtu s p)

/-- RDMA_CM_CONNECT_REQUEST. A request for what R128 does not support is rejected and takes no pool entry; which reason the
rejection names is open (log 158). -/
def rdmaConnect (c : NewConn) (r : RdmaReq) (s : State) : State :=
  if rdmaOk s c.port r then newConn c { rdma := true, ready := true, pmtu := r.mtu } "reject 28" s
  else match findIf s c.port c.vlan c.dstIp with
    | some i =>
      if portLive s c.port && (connOf s c.conn).isNone then
        tell s c.conn { port := c.port, ifIdx := i, vlan := c.vlan, peerMac := c.peerMac } "reject" []
      else s
    | none => s

/-- The TCP options of R132. -/
def TcpOpt.supported : TcpOpt → Bool
  | .fastOpen => false
  | .mptcp => false
  | _ => true

/-- A retransmission timeout: at least 1 ms and at most 2 s (R134); which value in between is open (log 159). -/
def rtoOf (w : Nat) : Nat := max 1000000 (min 2000000000 w)

/-- TCP_SYN. The supported options that the SYN carries are in use; the first congestion window is open (log 159). -/
def tcpSyn (c : NewConn) (opts : List TcpOpt) (s0 : State) : State :=
  let s := { s0 with free := s0.free + 2 }
  newConn c { rdma := false, ready := false, opts := opts.filter (·.supported), rto := rtoOf (Config.freeWord s0.free).toNat,
              cwnd := (Config.freeWord (s0.free + 1)).toNat } "rst" s

/-- MAXH2CDATA in bytes (R132). -/
def maxH2cData : Nat := 131072

/-- ICREQ (R132): the connection's digests are negotiated and commands may follow; the answer gives MAXH2CDATA. -/
def icReq (id : Nat) (hdgst ddgst : Bool) (s : State) : State :=
  match connOf s id with
  | some c =>
    if !c.rdma && !c.ready then
      sendMsg (setConn s id { c with ready := true, hdgst := hdgst, ddgst := ddgst }) id 128
        (fun h => .conn id "icresp" [maxH2cData, hdgst.toNat, ddgst.toNat] h)
    else s
  | none => s

/-- A transport protocol error that ends the connection (R124, R133, R236). -/
def transportEnd (s : State) (id : Nat) : State :=
  match connOf s id with
  | some c => connDrop (protoError s c) id "end"
  | none => s

/-- Commands of a connection that wait for their data complete with Transient Transport Error (R133). -/
def failData (s : State) (id cid : Nat) : State :=
  { s with cmds := s.cmds.map (fun q =>
      if q.2.conn = id ∧ q.2.cid = cid ∧ (q.2.phase = .waiting ∨ q.2.phase = .admitted) then
        (q.1, { q.2 with phase := .ready, st := stTransientTransport }) else q) }

/-- H2C_DATA_PDU (R132, R133): a bad header digest, or more than MAXH2CDATA bytes, ends the connection; a bad data digest
completes its command with Transient Transport Error and the connection continues. Each is a protocol error of the tenant
(R236). That an overlong PDU ends the connection is the NVMe TCP transport's rule for a fatal error (DEDUCED, log 160). -/
def h2cData (id cid len : Nat) (hdgstOk ddgstOk : Bool) (s : State) : State :=
  match connOf s id with
  | some c =>
    if c.rdma then s
    else if (c.hdgst && !hdgstOk) || maxH2cData < len then transportEnd s id
    else if c.ddgst && !ddgstOk then failData (protoError s c) id cid
    else s
  | none => s

/-- ACK_TIMEOUT (R131): 4.096 µs × 2^14 have passed without the acknowledgement of what is outstanding. The part retries;
after 7 retries the queue pair enters the error state. -/
def ackTimeout (id : Nat) (s : State) : State :=
  match connOf s id with
  | some c =>
    if c.rdma && c.ackAt.any (fun t => decide (t + 67108864 ≤ s.now)) then
      if c.retries < 7 then tell (setConn s id { c with retries := c.retries + 1, ackAt := some s.now }) id c "retry" []
      else qpError s id
    else s
  | none => s

/-- TCP_RETRANSMIT_TIMEOUT (R134): the retransmission timeout has passed with a segment outstanding. It is sent again; after
8 retransmissions the connection is reset. -/
def tcpTimeout (id : Nat) (s : State) : State :=
  match connOf s id with
  | some c =>
    if !c.rdma && c.ackAt.any (fun t => decide (t + c.rto ≤ s.now)) then
      if c.retries < 8 then
        tell { setConn s id { c with retries := c.retries + 1, ackAt := some s.now, rto := rtoOf (Config.freeWord s.free).toNat } with
          free := s.free + 1 } id c "retransmit" []
      else connDrop (bump s .tte 0 F.TTE_TCP_RESET) id "rst"
    else s
  | none => s

/-- TCP_CLOSE_RECEIVED (R124): the host resets or closes the connection. The host's close of a queue pair, for which the spec
has no command of its own, comes as this one too (log 161); the pool entry returns (R121). -/
def tcpClose (id : Nat) (s : State) : State := connLost s id

/-! ### TLS (R135–R139, R475) -/

/-- The PSK identity is installed for some tenant, with the HASH of a cipher suite offered (R136, R215, R474). -/
def pskKnown (s : State) (h : Hello) : Bool :=
  s.tenants.any (fun q => match mget q.2.psk h.psk with
    | some v => if v % 4 = 1 then h.aes128 else h.aes256
    | none => false)

/-- TLS_CLIENT_HELLO: a handshake begins, or ends in an alert when nothing it offers is supported. An identity that is not
installed, or whose hash no offered suite has, ends in unknown_psk_identity (DESIGN CHOICE, log 162). -/
def tlsHello (id : Nat) (h : Hello) (s : State) : State :=
  match connOf s id with
  | some c =>
    if c.rdma || c.tls.isSome then s
    else if (h.pskKe || (h.pskDheKe && h.secp384r1)) && (h.aes128 || h.aes256) then
      if pskKnown s h then tell (setConn s id { c with hello := some h.psk }) id c "server_hello" []
      else connDrop s id "unknown_psk_identity"
    else connDrop s id "handshake_failure"
  | none => s

/-- The lowest free transport key slot (R137). -/
def freeTslot (s : State) : Option Nat :=
  (List.range (s.tslots.length + 1)).map (· + 1024) |>.find? (fun k => (mget s.tslots k).isNone && decide (k < 8192))

/-- TLS_HANDSHAKE_DONE: Sorrel writes the traffic keys into a transport key slot; without a free one the handshake ends
with internal_error. The keys are named by a number of Sorrel's generator (log 11); a slot that holds 0 was zeroed. -/
def tlsDone (id : Nat) (s : State) : State :=
  match connOf s id with
  | some c =>
    if c.hello.isSome && c.tls.isNone then
      match freeTslot s with
      | some k =>
        let s1 := setConn s id { c with tls := some { slot := k, rxSeq := 0, txSeq := 0, rxGen := 0 } }
        { s1 with tslots := mset s1.tslots k s.nextKey, nextKey := s.nextKey + 1 }
      | none => connDrop s id "internal_error"
    else s
  | none => s

/-- TLS_RECORD_RECEIVED: a record that fails authentication, as every record does once its slot's keys are zeroed, ends the
connection; the record numbered 2^64 − 1 is processed and closes it; any other advances the receiving sequence number. CSX
reports the failure (R499). A record of more than 16,384 bytes of plaintext ends the connection with record_overflow, as in
RFC 8446 (DEDUCED, log 160). -/
def tlsRecord (id len : Nat) (authOk : Bool) (s : State) : State :=
  match connOf s id with
  | some c =>
    match c.tls with
    | some t =>
      if !authOk || mgetD s.tslots t.slot 0 = 0 then
        let s1 := raise (bump s .csx 0 F.CSX_AUTH_FAIL_TLS) .csx 0 F.CSX_INT_RAW_TLS_FAIL
        let s2 := blockError s1 .csx 0 0x02 (match c.fn with | some f => if f < 512 then f else 0x1FF | none => 0x1FF) t.slot 0
        connDrop (protoError s2 c) id "bad_record_mac"
      else
        let s1 := bump s .csx 0 F.CSX_TLS_REC_COUNT
        if 16384 < len then connDrop (protoError s1 c) id "record_overflow"
        else if t.rxSeq = 2 ^ 64 - 1 then tlsClose s1 id
        else setConn s1 id { c with tls := some { t with rxSeq := t.rxSeq + 1 } }
    | none => s
  | none => s

/-- TLS_KEY_UPDATE (R138, R475): the next traffic secret of the receiving direction goes into the same slot. -/
def tlsKeyUpdate (id : Nat) (s : State) : State :=
  match connOf s id with
  | some c =>
    match c.tls with
    | some t => setConn s id { c with tls := some { t with rxGen := t.rxGen + 1, rxSeq := 0 } }
    | none => s
  | none => s

/-! ### Meanings -/

def execFrameReceived (f : EthFrame) (s : State) : Res :=
  done (frameReceived f s)

def execRtpDrain (p : Fin 2) (prio : Fin 8) (bytes : Nat) (s : State) : Res :=
  done (rtpDrain p prio bytes s)

def execPfcRefreshTimer (p : Fin 2) (prio : Fin 8) (s : State) : Res :=
  done (pfcRefresh p prio s)

def execPfcFrame (p : Fin 2) (f : PfcFrame) (s : State) : Res :=
  done (pfcFrame p f.dst f.quanta s)

def execPfcPauseExpiry (p : Fin 2) (prio : Fin 8) (s : State) : Res :=
  done (pfcExpiry p prio s)

def execArpRequest (p : Fin 2) (vlan : Nat) (a : ArpAsk) (s : State) : Res :=
  done (arpRequest p vlan a.ip a.src s)

def execNeighborSolicitation (p : Fin 2) (vlan : Nat) (a : NbrAsk) (s : State) : Res :=
  done (neighborSolicitation p vlan a.dstIp a.target a.src s)

def execIcmpEcho (p : Fin 2) (vlan : Nat) (a : EchoAsk) (s : State) : Res :=
  done (icmpEcho p vlan a.ip a.dst a.src s)

def execLinkUp (p : Fin 2) (s : State) : Res :=
  done (linkUp p s)

def execLinkDown (p : Fin 2) (highSer : Bool) (s : State) : Res :=
  done (linkDown p highSer s)

def execLinkHoldExpiry (p : Fin 2) (s : State) : Res :=
  done (linkHoldExpiry p s)

def execCnpReceived (id : Nat) (s : State) : Res :=
  done (cnpReceived id s)

def execRateIncrease (id : Nat) (s : State) : Res :=
  done (rateIncrease id s)

def execRdmaCmConnectRequest (r : RdmaConnect) (s : State) : Res :=
  done (rdmaConnect r.conn r.qp s)

def execTcpSyn (y : SynSegment) (s : State) : Res :=
  done (tcpSyn y.conn y.opts s)

def execIcreq (id : Nat) (hdgst ddgst : Bool) (s : State) : Res :=
  done (icReq id hdgst ddgst s)

def execH2cDataPdu (id cid len : Nat) (d : Digests) (s : State) : Res :=
  done (h2cData id cid len d.hdr d.data s)

def execAckTimeout (id : Nat) (s : State) : Res :=
  done (ackTimeout id s)

def execTcpRetransmitTimeout (id : Nat) (s : State) : Res :=
  done (tcpTimeout id s)

def execTcpCloseReceived (id : Nat) (s : State) : Res :=
  done (tcpClose id s)

def execTlsClientHello (id : Nat) (h : Hello) (s : State) : Res :=
  done (tlsHello id h s)

def execTlsHandshakeDone (id : Nat) (s : State) : Res :=
  done (tlsDone id s)

def execTlsRecordReceived (id : Nat) (r : TlsRecord) (s : State) : Res :=
  done (tlsRecord id r.len r.authOk s)

def execTlsKeyUpdate (id : Nat) (s : State) : Res :=
  done (tlsKeyUpdate id s)

end Sys2Proof.Machine
end

