-- ==== Sys2Proof/Machine/Connect.lean ====
section
/-! DEFINITION. Fabrics commands and the admin commands of every controller: Connect and the association, properties,
controller reset, authentication, keep alive, discovery, features, asynchronous events (03_ethernet_transport.md
R121–R127, R140; 04_commands_and_ordering.md R158, R159, R185, R187). -/

namespace Sys2Proof.Machine

/-! ### Connect (R111, R121, R122, R136) -/

/-- CNTLID of a function (R122). -/
def cntlidOf (f : Nat) : Nat := f + 1

/-- Keep-alive timeouts have a granularity of 100 ms (R127). -/
def katoRound (ms : Nat) : Nat := ceilDiv ms 100 * 100

/-- A tenant that requires TLS accepts only connections that run it under one of its own PSKs (R136, R215). That the PSK
must be that tenant's is read from R136 and R215 (DEDUCED, log 164). -/
def tlsRefused (t : Tenant) (c : Conn) : Bool :=
  t.par.flags % 2 = 1 && (c.tls.isNone || !c.hello.any (fun i => (mget t.psk i).isSome))

/-- A tenant that requires authentication accepts no connection of a host for which it has no secret (R215). -/
def authRefused (t : Tenant) (hostNqn : Nat) : Bool :=
  t.par.flags / 2 % 2 = 1 && !(t.secrets.any (fun p => p.1 = hostNqn))

/-- The first failing check of a Connect to MF or a tenant, in the order of R122; the checks of R121 and R158 follow.
DESIGN CHOICE (log 164): the statuses of an I/O Connect of another host than its association's, or during the wait of R125,
and of one that R215 keeps out for want of a secret. -/
def connectCheck (s : State) (c : Conn) (d : ConnectData) : Option Status :=
  let k := ctrl s d.subsys
  let t := tenant s d.subsys
  if d.cntlid ≠ cntlidOf d.subsys then some stConnectParams
  else if d.subsys < 512 ∧ (s.mode = .service ∨ t.state = .free ∨ t.state = .removing) then some stConnectParams
  else if d.subsys = fnMF ∧ !(ifAt s c.ifIdx).mgmt then some stConnectHost
  else if d.subsys < 512 ∧ ((ifAt s c.ifIdx).mgmt ∨ t.par.ifMask / 2 ^ c.ifIdx % 2 = 0 ∨ d.hostNqn = 0 ∨
      !(t.par.allow.contains d.hostNqn) ∨ tlsRefused t c ∨ authRefused t d.hostNqn) then some stConnectHost
  else if d.qid = 0 then
    if k.assoc.any (fun a => a.conn.isSome || a.hostNqn ≠ d.hostNqn || a.hostId ≠ d.hostId) then some stConnectBusy
    else if 31 < d.sqsize ∨ d.sqsize = 0 then some stConnectParams
    else none
  else if d.subsys = fnMF ∨ t.par.ioqGrant < d.qid ∨ 1023 < d.sqsize ∨ d.sqsize = 0 ∨ (mget k.ioqs d.qid).isSome then
    some stConnectParams
  else match k.assoc with
    | none => some stConnectParams
    | some a => if a.conn.isNone ∨ a.hostNqn ≠ d.hostNqn ∨ a.hostId ≠ d.hostId then some stConnectParams else none

/-- The queue a successful Connect creates. -/
def connectTake (s : State) (id : Nat) (c : Conn) (d : ConnectData) : State :=
  let s1 := setConn s id
    { c with fn := some d.subsys, qid := d.qid, hostNqn := d.hostNqn, sqsize := d.sqsize, recvBufs := d.sqsize + 2 }
  if d.qid = 0 then
    modCtrl s1 d.subsys (fun k =>
      let step := match k.assoc with
        | some a => a.authStep
        | none => 0
      let ok := match k.assoc with
        | some a => a.authDone
        | none => false
      { k with assoc := some { conn := some id, hostNqn := d.hostNqn, hostId := d.hostId, kato := katoRound d.kato, kaAt := s.now,
                               authStep := step, authDone := ok, lostAt := none } })
  else modCtrl s1 d.subsys (fun k => { k with ioqs := mset k.ioqs d.qid id })

/-- CFE takes no fabrics command: the power-loss sequence runs, a mode is being entered, or the mode does not serve commands
(R355, R595, R162). -/
def fabricsShut (s : State) : Bool :=
  !(s.mode = .run || s.mode = .guard || s.mode = .service) || s.plRun.isSome || s.pwr.entry.isSome

/-- Admission of a fabrics command: CFE.ADMITTED (R193), and the time of the last command (R594). -/
def fabricsIn (s : State) : State := bump (cmdSeen s) .cfe 0 F.CFE_ADMITTED

/-- CONNECT. The discovery controller (subsystem 513) accepts admin connections on its own service (R123). -/
def connect (q : Capsule) (d : ConnectData) (s0 : State) : State :=
  let s := serveMode s0
  match connOf s q.conn with
  | none => s
  | some c =>
    if !c.ready || c.fn.isSome || fabricsShut s then s
    else if q.unknown then refuse s q stInvalidOpcode 0
    else if q.reserved then refuse s q stInvalidField 0
    else if d.subsys = 513 then
      if c.disc ∧ d.qid = 0 then
        postOk (setConn (fabricsIn s) q.conn { c with fn := some 513, hostNqn := d.hostNqn, recvBufs := d.sqsize + 2 }) q.conn q.cid 0 []
      else refuse s q stConnectParams 0
    else if 513 < d.subsys ∨ c.disc then refuse s q stConnectParams 0
    else match connectCheck s c d with
      | some st => refuse s q st 0
      | none => postOk (fabricsIn (connectTake s q.conn c d)) q.conn q.cid (cntlidOf d.subsys) []

/-- DISCONNECT (R159): the queue's connection ends after the command completes. A tenant that requires authentication
refuses it until the exchange has succeeded (R140); the discovery controller does not support it (R123). -/
def disconnect (q : Capsule) (s0 : State) : State :=
  let s := serveMode s0
  match connOf s q.conn with
  | some c =>
    match c.fn with
    | some f =>
      if fabricsShut s || (s.mode = .service && f < 512) then s
      else if q.unknown || f = 513 then refuse s q stInvalidOpcode 0
      else if q.reserved then refuse s q stInvalidField 0
      else if authMissing s f then refuse s q stAuthRequired 0
      else connLost (postOk (fabricsIn s) q.conn q.cid 0 []) q.conn
    | none => s
  | none => s

/-! ### Properties (R158, R159, R185, R187) -/

/-- The value of a property: CAP 0x0, VS 0x8, CC 0x14, CSTS 0x1C, low and high dword (log 9). -/
def propValue (s : State) (f ofst : Nat) : Option (Nat × Nat) :=
  let k := ctrl s f
  match ofst with
  | 0x00 => some (1023 + 2 ^ 16 + 4 * 2 ^ 24, (Config.freeWord 0).toNat)
  | 0x08 => some (0x00020000, 0)
  | 0x14 => some (k.cc, 0)
  | 0x1C => some (k.rdy.toNat + k.shst * 4, 0)
  | _ => none

/-- The fabrics commands that the discovery controller supports too (R123, R159); they are of those of R162 and R140. -/
def fabricsBoth : Accept := { disc := true, quiet := true }

/-- PROPERTY_GET: OFST in dword 11. -/
def propertyGet (q : Capsule) (s : State) : State :=
  admin q fabricsBoth (fun f s =>
    match propValue s f q.dw11 with
    | some (lo, hi) => .yes (post s q.conn q.cid stOk lo hi [])
    | none => no stInvalidField) s

/-- The reads of a controller stop: they leave the part, their climbs end where no other reader waits for them, and their
cipher jobs are taken back (R185 step 3). -/
def stopReads (s : State) (f : Nat) : State :=
  let gone (k : Nat) : Bool := (mget s.cmds k).any (fun c => c.fn = f && c.op = .read && c.phase = .dispatched)
  let mine (r : Reader) : Bool := match r with
    | .host k _ => gone k
    | _ => false
  let keep := (s.climbs.map (fun q => (q.1, { q.2 with readers := q.2.readers.filter (fun r => !mine r) }))).filter
    (fun q => !q.2.readers.isEmpty)
  let job (j : CJob) : Bool := match j.what with
    | .dec k _ => gone k
    | .other _ => false
  { s with
    cmds := s.cmds.filter (fun q => !gone q.1)
    climbs := keep
    feeds := s.feeds.filter (fun o => match o.owner with
      | .climb g => keep.any (fun q => q.2.desc = g)
      | _ => true)
    cjobs := s.cjobs.filter (fun j => !job j)
    cctx := s.cctx.filter (fun j => !job j) }

/-- CC.EN is cleared (R185 steps 1 to 3): commands not past their dispatch point are dropped, dispatched writes finish
without a completion, and dispatched reads stop. -/
def ccClear (s : State) (f : Nat) : State :=
  let s1 := modCtrl s f (fun k => { k with cc := k.cc - k.cc % 2, resetting := true })
  stopReads (dropCmds (dropAdmin s1 f) (fun c => c.fn = f)) f

/-- A write of CC that neither clears EN nor asks for a shutdown. Setting EN makes the controller ready. -/
def ccWrite (s : State) (f v : Nat) : State :=
  modCtrl s f (fun k => { k with cc := v % 2 ^ 32, rdy := v % 2 = 1, shst := if v % 2 = 1 ∧ k.cc % 2 = 0 then 0 else k.shst })

/-- CC.SHN is written (R187): the controller's outstanding commands complete and its acknowledged writes become
durable; CSTS.SHST reads 0b01 until then. -/
def ccShutdown (s : State) (f v : Nat) : State :=
  modCtrl s f (fun k => { k with cc := v % 2 ^ 32, shst := 1, shutdown := true })

/-- PROPERTY_SET: OFST in dword 11, VALUE in dword 12. Only CC is writable. -/
def propertySet (q : Capsule) (s : State) : State :=
  admin q fabricsBoth (fun f s =>
    if q.dw11 ≠ 0x14 then no stInvalidField
    else
      let s1 := postOk s q.conn q.cid 0 []
      .yes (if (ctrl s f).cc % 2 = 1 ∧ q.dw12 % 2 = 0 then ccClear s1 f
        else if bitsOf q.dw12 15 14 ≠ 0 then ccShutdown s1 f q.dw12
        else ccWrite s1 f q.dw12)) s

/-- CC_EN_CLEAR (R185). -/
def ccEnClear (q : Capsule) (s : State) : State :=
  admin q fabricsBoth (fun f s => .yes (ccClear (postOk s q.conn q.cid 0 []) f)) s

/-- CC_SHUTDOWN (R187): the host writes CC.SHN; a code of 0 in the value acts as a normal shutdown, 1. -/
def ccShn (q : Capsule) (s : State) : State :=
  admin q fabricsBoth (fun f s =>
    .yes (ccShutdown (postOk s q.conn q.cid 0 []) f (putBits q.dw12 15 14 (max 1 (bitsOf q.dw12 15 14))))) s

/-- CONTROLLER_RESET_DONE (R185 step 4): once no dispatched command is left. -/
def ctrlResetDone (f : Nat) (s : State) : State :=
  if (ctrl s f).resetting ∧ !(s.cmds.any (fun p => p.2.fn = f)) then ctrlReset s f false false else s

/-! ### Authentication (R140) -/

/-- A failed exchange ends the association and its connections. -/
def endAssoc (s : State) (f : Nat) : State :=
  let k := ctrl s f
  let s1 := endConns (dropCmds (dropAdmin s f) (fun c => c.fn = f)) (k.ioqs.map Prod.snd)
  match k.assoc with
  | some a =>
    let s2 := setCtrl s1 f { k with assoc := none, ioqs := [], aers := [] }
    a.conn.elim s2 (fun id => hangUp s2 id "end")
  | none => s1

/-- Set the step of the exchange. -/
def setAuth (s : State) (f step : Nat) (ok : Bool) : State :=
  modCtrl s f (fun k => { k with assoc := k.assoc.map (fun a => { a with authStep := step, authDone := ok }) })

/-- The tenant has an installed secret for the association's host (R215, R474). -/
def hasSecret (s : State) (f : Nat) : Bool :=
  match (ctrl s f).assoc with
  | some a => ((tenant s f).secrets.any (fun p => p.1 = a.hostNqn))
  | none => false

/-- The identifiers of the hash functions SHA-256, SHA-384 and SHA-512, and of the DH groups null, ffdhe2048, ffdhe3072 and
ffdhe4096, as NVMe in-band authentication numbers them (R140; log 7). -/
def authHashes : List Nat := [1, 2, 3]
def authGroups : List Nat := [0, 1, 2, 3]

/-- What a negotiation agrees on: the first hash function and DH group offered that the part supports; nothing when there is
none, or when the host wants secure channel concatenation. Which of several it takes is the model's choice (log 165). -/
def authAgree (hashes groups : List Nat) (secure : Bool) : Option (Nat × Nat) :=
  if secure then none
  else match hashes.find? (authHashes.contains ·), groups.find? (authGroups.contains ·) with
    | some h, some g => some (h, g)
    | _, _ => none

/-- The exchange has agreed on a hash function and a DH group. -/
def setAgreed (s : State) (f : Nat) (x : Nat × Nat) : State :=
  modCtrl s f (fun k => { k with assoc := k.assoc.map (fun a => { a with authHash := x.1, authDh := x.2 }) })

/-- The host's own challenge, in a bidirectional exchange. -/
def setChallenge (s : State) (f : Nat) (c : Option Nat) : State :=
  modCtrl s f (fun k => { k with assoc := k.assoc.map (fun a => { a with authChallenge := c }) })

/-- The authentication commands. -/
def authBoth : Accept := { quiet := true, noAuth := true }

/-- AUTHENTICATION_SEND: step 0 nothing, 1 negotiated, 2 challenged, 3 replied well, 4 told so, 9 failed. A bidirectional
exchange has succeeded when the host confirms the controller's response. -/
def authSend (q : Capsule) (m : AuthStep) (s : State) : State :=
  admin q authBoth (fun f s =>
    let ok (t : State) : State := postOk t q.conn q.cid 0 []
    let out := postSt s q.conn q.cid stSequenceError
    .yes (match (ctrl s f).assoc with
    | none => out
    | some a =>
      match m with
      | .negotiate hashes groups secure =>
        (match authAgree hashes groups secure with
        | some x => ok (setAuth (setAgreed s f x) f (if hasSecret s f then 1 else 9) false)
        | none => ok (setAuth s f 9 false))
      | .reply good challenge =>
        if a.authStep = 2 then ok (setChallenge (setAuth s f (if good then 3 else 9) false) f challenge) else out
      | .success =>
        if a.authDone ∨ (a.authStep = 4 ∧ a.authChallenge.isSome) then ok (setAuth s f 4 true) else out
      | .failure => endAssoc (ok s) f)) s

/-- The controller's response to the host's challenge, under the secret of the host (R140, R475). -/
def authResponse (s : State) (f : Nat) (a : Assoc) : List Nat :=
  match a.authChallenge with
  | some c => [Config.chap (mgetD (tenant s f).secrets a.hostNqn 0) [a.authHash, a.authDh, c]]
  | none => []

/-- AUTHENTICATION_RECEIVE: the challenge, the success message with the response to the host's challenge, or the failure that
ends the association. A unidirectional exchange has succeeded with the success message. -/
def authReceive (q : Capsule) (s : State) : State :=
  admin q authBoth (fun f s =>
    .yes (match (ctrl s f).assoc with
    | none => postSt s q.conn q.cid stSequenceError
    | some a =>
      if a.authStep = 1 then
        postOk { setAuth s f 2 false with free := s.free + 1 } q.conn q.cid 0
          [a.authHash, a.authDh, (Config.freeRandom s.free).toNat]
      else if a.authStep = 3 then
        postOk (setAuth s f 4 a.authChallenge.isNone) q.conn q.cid 0 (authResponse s f a)
      else if a.authStep = 9 then endAssoc (postOk s q.conn q.cid 0 []) f
      else postSt s q.conn q.cid stSequenceError)) s

/-! ### Keep alive (R125, R127) -/

/-- KEEP_ALIVE. -/
def keepAlive (q : Capsule) (s : State) : State :=
  admin q { disc := true, quiet := true, keepAlive := true, masks := [0, 0, 0, 0, 0, 0] }
    (fun _ s => .yes (postOk s q.conn q.cid 0 [])) s

/-- The time from which a controller's keep-alive timeout is measured: its loss, or the last command. -/
def Assoc.since (a : Assoc) : Nat := a.lostAt.getD a.kaAt

/-- KEEP_ALIVE_TIMEOUT. -/
def keepAliveTimeout (f : Nat) (s : State) : State :=
  match (ctrl s f).assoc with
  | some a => if a.kato ≠ 0 ∧ a.since + a.kato * 1000000 ≤ s.now then ctrlReset s f true true else s
  | none => s

/-! ### Discovery (R123) -/

/-- The interfaces through which a host reaches the tenants that list it, one for each tenant and transport (1 RDMA, 3 TCP):
the tenant, the interface and the transport. R123 asks the tenant's allow-list and interface mask alone. -/
def discoveryPaths (s : State) (nqn : Nat) : List (Nat × Nat × Nat) :=
  if s.mode = .service then [] else
  ((s.tenants.filter (fun t => t.2.state ≠ .free && nqn ≠ 0 && t.2.par.allow.contains nqn)).map (fun t =>
    ((s.ifs.filter (fun i => i.2.valid && t.2.par.ifMask / 2 ^ i.1 % 2 = 1)).map (fun i =>
      [(t.1, i.1, 1), (t.1, i.1, 3)])).flatten)).flatten

/-- An IP address as text: IPv4 in dotted decimal, IPv6 in eight groups of hexadecimal digits (PRESUMED, log 163). -/
def hexDigit (d : Nat) : Nat := if d < 10 then 48 + d else 87 + d
def ipText (e : IfEntry) : List Nat :=
  if e.isV4 then
    ((List.range 4).map (fun i => (if i = 0 then [] else [46]) ++ decimalOf (e.addr / 2 ^ (8 * (3 - i)) % 256))).flatten
  else ((List.range 8).map (fun i => (if i = 0 then [] else [58]) ++
    (List.range 4).map (fun k => hexDigit (e.addr / 2 ^ (16 * (7 - i) + 4 * (3 - k)) % 16)))).flatten

/-- A discovery log record of 1,024 bytes at an offset, as the NVMe over Fabrics specification lays it out (log 163):
transport, address family, subsystem type, secure channel, port, controller, admin queue size, service, NQN and address. -/
def discoveryRecord (s : State) (off : Nat) (x : Nat × Nat × Nat) : List (Nat × Nat × Nat) :=
  let e := ifAt s x.2.1
  [(off, 1, x.2.2), (off + 1, 1, if e.isV4 then 1 else 2), (off + 2, 1, 2), (off + 3, 1, (tenant s x.1).par.flags % 2),
   (off + 4, 2, x.2.1), (off + 6, 2, cntlidOf x.1), (off + 8, 2, 32),
   textField (off + 32) 32 32 (decimalOf (getF s .tte 0 F.TTE_L4_PORTS_IO_PORT)),
   textField (off + 256) 256 0 (subNqn x.1), textField (off + 512) 256 32 (ipText e)]

/-- The records of a list from an offset on. -/
def discoveryRecords (s : State) : Nat → List (Nat × Nat × Nat) → List (Nat × Nat × Nat)
  | _, [] => []
  | off, x :: t => discoveryRecord s off x ++ discoveryRecords s (off + 1024) t

/-- The discovery log of a host: a header of 1,024 bytes with the number of records, then the records (R123). -/
def discoveryPage (s : State) (nqn : Nat) : Page :=
  let l := discoveryPaths s nqn
  ⟨1024 * (l.length + 1), [(8, 8, l.length), (16, 2, 0)] ++ discoveryRecords s 1024 l, true, id⟩

/-- Bits of the dwords of Get Log Page that its description names (log 7). -/
def logMasks : List Nat := [0xFFFFFFFF, 0xFFFFFFFF, 0xFFFFFFFF, 0xFFFFFFFF, 0xFF80007F, 0]

/-- A log page goes to the host as its request asks (R158, R159, R161). -/
def sendPage (q : Capsule) (p : Page) (s : State) : Verdict :=
  if 2097152 < logLen q then no stInvalidField
  else if p.len < logOff q then no stInvalidField
  else if q.len < logLen q then no stSglLength
  else
    let r := takeFree s
    .yes (postOk (p.after r.2) q.conn q.cid 0 (pageBytes p (65536 + r.1) (logOff q) (logLen q)))

/-- DISCOVERY_GET_LOG_PAGE: the discovery log is a page of the discovery controller alone. -/
def discoveryGet (q : Capsule) (s : State) : State :=
  admin q { disc := true, quiet := true, masks := logMasks } (fun f s =>
    if logLid q ≠ 0x70 ∨ f ≠ 513 then no stInvalidLogPage
    else sendPage q (discoveryPage s ((connOf s q.conn).elim 0 (·.hostNqn))) s) s

/-! ### Features and asynchronous events (R158, R159) -/

/-- The features of R159. -/
def featureOk (fid : Nat) : Bool := [0x01, 0x07, 0x0B, 0x0F, 0x81].contains fid

/-- Number of Queues, 0-based in both halves: the tenant's grant. -/
def queuesValue (s : State) (f : Nat) : Nat :=
  let g := if f < 512 then (tenant s f).par.ioqGrant - 1 else 0
  g + g * 65536

/-- The host identifier of a controller: as Set Features set it, else that of its association. -/
def hostIdOf (s : State) (f : Nat) : Nat :=
  (ctrl s f).hostId.getD ((ctrl s f).assoc.elim 0 (·.hostId))

/-- Bytes of a Host Identifier: 16 with EXHID set in dword 11 [0], else 8 (log 166). -/
def hostIdLen (q : Capsule) : Nat := if q.dw11 % 2 = 1 then 16 else 8

/-- SET_FEATURES: FID in dword 10 [7:0], save in [31]; `hostId` is the data of feature 0x81. -/
def setFeatures (q : Capsule) (hostId : Nat) (s : State) : State :=
  admin q { masks := [0x800000FF, 0xFFFFFFFF, 0xFFFFFFFF, 0xFFFFFFFF, 0x7F, 0xFFFFFFFF] } (fun f s =>
    let fid := bitsOf q.dw10 7 0
    if !featureOk fid then no stInvalidField
    else if bitsOf q.dw10 31 31 = 1 then no stNotSaveable
    else if fid = 0x81 ∧ q.len < hostIdLen q then no stSglLength
    else if fid = 0x07 then .yes (postOk s q.conn q.cid (queuesValue s f) [])
    else if fid = 0x0F then
      .yes (postOk (modCtrl s f (fun k => { k with assoc := k.assoc.map (fun a => { a with kato := katoRound q.dw11, kaAt := s.now }) }))
        q.conn q.cid 0 [])
    else if fid = 0x81 then
      .yes (postOk (modCtrl s f (fun k => { k with hostId := some (hostId % 2 ^ (8 * hostIdLen q)) })) q.conn q.cid 0 [])
    else .yes (postOk (modCtrl s f (fun k => { k with feats := mset k.feats fid q.dw11 })) q.conn q.cid 0 [])) s

/-- GET_FEATURES. A feature never set has the value 0 (log 10). -/
def getFeatures (q : Capsule) (s : State) : State :=
  admin q { quiet := true, masks := [0x7FF, 0xFFFFFFFF, 0, 0, 0x7F, 0] } (fun f s =>
    let fid := bitsOf q.dw10 7 0
    if !featureOk fid then no stInvalidField
    else if fid = 0x81 ∧ q.len < hostIdLen q then no stSglLength
    else if fid = 0x07 then .yes (postOk s q.conn q.cid (queuesValue s f) [])
    else if fid = 0x0F then .yes (postOk s q.conn q.cid (match (ctrl s f).assoc with | some a => a.kato | none => 0) [])
    else if fid = 0x81 then .yes (postOk s q.conn q.cid 0 (leBytes (hostIdLen q) (hostIdOf s f)))
    else .yes (postOk s q.conn q.cid (mgetD (ctrl s f).feats fid 0) [])) s

/-- ASYNCHRONOUS_EVENT_REQUEST: held until an event completes it; at most four are outstanding. -/
def asyncEventRequest (q : Capsule) (s : State) : State :=
  admin q { quiet := true, masks := [0, 0, 0, 0, 0, 0] } (fun f s =>
    let k := ctrl s f
    if 4 ≤ k.aers.length then no stAerLimit
    else .yes (match k.events with
      | e :: t => postOk (setCtrl s f { k with events := t }) q.conn q.cid e []
      | [] => setCtrl s f { k with aers := k.aers ++ [(q.conn, q.cid)] })) s

/-! ### Meanings -/

def execConnect (q : Capsule) (d : ConnectData) (s : State) : Res := done (inTurn q (.connect q d) false (connect q d) s)
def execDisconnect (q : Capsule) (s : State) : Res := done (inTurn q (.disconnect q) false (disconnect q) s)
def execPropertyGet (q : Capsule) (s : State) : Res := done (inTurn q (.propertyGet q) false (propertyGet q) s)
def execPropertySet (q : Capsule) (s : State) : Res := done (inTurn q (.propertySet q) false (propertySet q) s)
def execCcEnClear (q : Capsule) (s : State) : Res := done (inTurn q (.ccEnClear q) false (ccEnClear q) s)
def execCcShutdown (q : Capsule) (s : State) : Res := done (inTurn q (.ccShutdown q) false (ccShn q) s)
def execControllerResetDone (f : Nat) (s : State) : Res := done (ctrlResetDone f s)
def execAuthenticationSend (q : Capsule) (m : AuthStep) (s : State) : Res :=
  done (inTurn q (.authenticationSend q m) false (authSend q m) s)
def execAuthenticationReceive (q : Capsule) (s : State) : Res := done (inTurn q (.authenticationReceive q) false (authReceive q) s)
def execKeepAlive (q : Capsule) (s : State) : Res := done (capsuleIn q (keepAlive q) s)
def execKeepAliveTimeout (f : Nat) (s : State) : Res := done (keepAliveTimeout f s)
def execDiscoveryGetLogPage (q : Capsule) (s : State) : Res := done (inTurn q (.discoveryGetLogPage q) false (discoveryGet q) s)
def execSetFeatures (r : FeatureSet) (s : State) : Res :=
  done (inTurn r.cap (.setFeatures r) false (setFeatures r.cap r.hostId) s)
def execGetFeatures (q : Capsule) (s : State) : Res := done (inTurn q (.getFeatures q) false (getFeatures q) s)
def execAsynchronousEventRequest (q : Capsule) (s : State) : Res :=
  done (inTurn q (.asynchronousEventRequest q) true (asyncEventRequest q) s)

end Sys2Proof.Machine
end

