-- ==== Sys2Proof/Machine/JournalOps.lean ====
section
/-! DEFINITION. What takes effect when journal records are in the ring, lost data and its report, checkpoints and the
advance of the tail (08_map_durability.md R334–R345; 04_commands_and_ordering.md R175, R180, R181; 07 R322; 06
R248–R250, R743). -/

namespace Sys2Proof.Machine

/-! ### Zone changes that take effect (R246, R248–R250) -/

/-- Staged units are discarded and never programmed: a slot they hold becomes filler. A discarded copy of a relocation is
counted, a zoned unit once and a conventional one per sector (R250, R302). -/
def discardUnits (s : State) (hit : StUnit → Bool) : State :=
  let gone := s.staged.filter (fun q => hit q.2)
  let s1 := gone.foldl (fun s q => match q.2.slot with
    | some (h, sl) => modBand s h (fun b => { b with slots := if (mget b.slots sl).isSome then mset b.slots sl .filler else b.slots })
    | none => s) s
  let s2 := bumpBy s1 .mape 0 F.MAPE_CAS_LOST
    ((gone.map (fun q => if q.2.reloc then (if q.2.zoned then 1 else q.2.secs.length) else 0)).sum)
  { s2 with staged := s2.staged.filter (fun q => !hit q.2) }

/-- Staged units of a zone that are not programmed are discarded. -/
def discardZone (s : State) (k : Nat) (n : Ns) (z : Nat) : State :=
  let lo := z * zoneSize n / 4
  discardUnits s (fun u => u.nsk = k && u.zoned && lo ≤ u.unit && u.unit < lo + zoneSize n / 4)

/-- The data of a zone is given up: its units are unmapped and its staged units discarded. -/
def dropZone (s : State) (k : Nat) (n : Ns) (z : Nat) : State :=
  let lo := z * zoneSize n / 4
  let s1 := discardZone (migTouchRange s k lo (zoneSize n / 4)) k n z
  modNs s1 k (fun n => { n with map := mdelRange n.map lo (zoneSize n / 4) })

/-- A zone enters the Changed Zone List (R743). -/
def addChanged (n : Ns) (slba : Nat) : Ns :=
  if n.changedOver || n.changed.contains slba then n
  else if n.changed.length < 511 then { n with changed := n.changed ++ [slba] }
  else { n with changed := [], changedOver := true }

/-- A Reset raised a zone's epoch to its last value: the zone is Read Only and its tenant is told (R249, R287). -/
def epochEnd (s : State) (k : Nat) (n : Ns) (z : Nat) : State :=
  let s1 := setZone (dropZone s k n z) k z { state := .readOnly, wp := 0, epoch := 0xFFFFFFFF }
  let s2 := raise (blockError s1 .zne 0 2 n.dieSet z k) .zne 0 F.ZNE_INT_RAW_EPOCH_RO
  let s3 := modNs s2 k (fun n => addChanged n (z * zoneSize n))
  let s4 := migZone s3 k 4 z 0xFFFFFFFF
  if n.noticeArmed then
    postEvent (modNs s4 k (fun n => { n with noticeArmed := false })) n.tenant (aerDw0 2 0xEF 0xBF)
  else s4

/-! ### Lost data (R175, R180, R181, R258, R322) -/

/-- One deferred-error entry of a tenant: it takes a SEQ, and a place in log page 0xC0 or a count in LOST; the flag of the
namespace is set, and the first entry of an empty page posts its event. `pos` is POS when the loss was found. -/
def deferEntry (s : State) (t k nsid slba nlb cause pos : Nat) : State :=
  let x := tenant s t
  let seq := x.deferSeq.next
  let first := x.defer.isEmpty
  let e : DeferEntry := ⟨seq, slba, nlb, nsid, pos, cause⟩
  let s1 := setTenant s t { x with
    defer := if x.defer.length < 64 then x.defer ++ [e] else x.defer,
    deferLost := if x.defer.length < 64 then x.deferLost else min 0xFFFFFFFF (x.deferLost + 1),
    deferSeq := x.deferSeq.take 1 }
  let s2 := raise (modNs s1 k (fun n => { n with defer := true, deferNewest := seq })) .cfe 0 F.CFE_INT_RAW_DEFER
  if first && x.deferArmed then
    postEvent (modTenant s2 t (fun t => { t with deferArmed := false })) t (aerDw0 7 2 0xC0)
  else s2

/-- Sectors of a lost unit or sector that the deferred-error entry covers: those below the write pointer (R322). -/
def lostCover (n : Ns) (first count : Nat) : Nat × Nat :=
  if n.zoned then
    let lo := first * 4
    let z := lo / zoneSize n
    let wp := z * zoneSize n + (zoneOf n z).wp
    (lo, min (count * 4) (wp - lo))
  else (first, count)

/-- The POISON record of a range is in the ring: the entries that still hold what was lost take the lost value and are
reported, and the loss is entered in the tenant's log page (R175). -/
def poisonAct (s : State) (k first count cause pos : Nat) (olds : List (Option MapEnt)) : State :=
  match nsAt s k with
  | some n =>
    let s1 := (List.range count).foldl (fun s i =>
      let e := first + i
      if mget n.map e ≠ olds.getD i none then s
      else
        let sect := if n.zoned then e * 4 else e
        let s1 := setEnt (migTouch s k (if n.zoned then e else e / 4)) k e (some .lost)
        raise (blockError (bump s1 .mape 0 F.MAPE_POISONED) .mape 0 3 n.dieSet (sect % 2 ^ 32)
          (k * 65536 + sect / 2 ^ 32)) .mape 0 F.MAPE_INT_RAW_POISON) s
    let c := lostCover n first count
    deferEntry s1 n.tenant k n.nsid c.1 c.2 cause pos
  | none => s

/-- What the entries of a range hold. -/
def entsAt (s : State) (k first count : Nat) : List (Option MapEnt) :=
  (List.range count).map (fun i => (nsAt s k).bind (fun n => mget n.map (first + i)))

/-- The POISON record of a loss is staged, and the rest follows when it is in the ring (R339). -/
def stagePoison (s : State) (a : JAct) : State :=
  match a with
  | .poison k first count cause _ _ =>
    let s1 := jStage s [.poison k first count cause]
    { s1 with jr := { s1.jr with acts := s1.jr.acts ++ [(jCount s1, a)] } }
  | _ => s

/-- Acknowledged data of contiguous entries is found lost. While the ring is held its record waits (R341). -/
def losePoison (s : State) (k first count cause : Nat) : State :=
  let a : JAct := .poison k first count cause s.pos (entsAt s k first count)
  if ringHeld s then ringWaits { s with jr := { s.jr with waits := s.jr.waits ++ [a] } } else stagePoison s a

/-- Losses whose records waited for the ring are staged once it is no longer held. -/
def releaseWaits (s : State) : State :=
  if ringHeld s then s else s.jr.waits.foldl stagePoison { s with jr := { s.jr with waits := [] } }

/-- Runs of consecutive numbers in a rising list: first and length. -/
def runsOf : List Nat → List (Nat × Nat)
  | [] => []
  | x :: t => match runsOf t with
    | (f, n) :: r => if x + 1 = f then (x, n + 1) :: r else (x, 1) :: (f, n) :: r
    | [] => [(x, 1)]

/-- Entries of a namespace are lost. -/
def loseEntries (s : State) (k : Nat) (es : List Nat) (cause : Nat) : State :=
  (runsOf (es.eraseDups.mergeSort (fun a b => decide (a ≤ b)))).foldl (fun s r => losePoison s k r.1 r.2 cause) s

/-! ### Records in the ring (R338, R339) -/

/-- A change whose record is in the ring takes effect. -/
def runAct (s : State) (a : JAct) : State :=
  match a with
  | .zoneReset k z => (match nsAt s k with
    | some n =>
      let e := (zoneOf n z).epoch + 1
      migZone (setZone (dropZone s k n z) k z { state := .empty, wp := 0, epoch := e }) k 1 z e
    | none => s)
  | .zoneReadOnly k z => (match nsAt s k with
    | some n => epochEnd s k n z
    | none => s)
  | .zoneFinish k z => (match nsAt s k with
    | some n =>
      let x := zoneOf n z
      migZone (forceUnits (setZone s k z { x with state := .full, wp := zoneSize n }) (partialOf s k n z)) k 2 z x.epoch
    | none => s)
  | .zoneOffline k z => (match nsAt s k with
    | some n => let x := zoneOf n z
      migZone (setZone (dropZone s k n z) k z { x with state := .offline }) k 3 z x.epoch
    | none => s)
  | .poison k f n c pos olds => poisonAct s k f n c pos olds

/-- A poison waits until its tenant's SEQ counter has room under its mark (R352). -/
def actReady (s : State) : JAct → Bool
  | .poison k _ _ _ _ _ => (match nsAt s k with
    | some n => (tenant s n.tenant).deferSeq.room 1
    | none => true)
  | _ => true

/-- Changes whose records are in the ring, in order, as far as they can take effect. -/
def runActs (s : State) : List (Nat × JAct) → State
  | [] => s
  | a :: t =>
    if a.1 ≤ s.jr.head && actReady s a.2 then
      runActs (runAct { s with jr := { s.jr with acts := s.jr.acts.drop 1 } } a.2) t
    else s

/-- A flush has ended: its records are in the ring in index order, and what waited for them goes on. -/
def flushDone (s : State) : State :=
  let fl := s.jr.flushing
  if fl.isEmpty then s
  else
    let s1 := { s with jr := { s.jr with
      ring := msetList s.jr.ring s.jr.head fl, head := s.jr.head + fl.length, flushing := [] } }
    let s2 := jFull s1
    pump (runActs s2 s2.jr.acts)

/-! ### The tail (R340) -/

/-- Copies of a band's opening records at the head (R340). -/
def bandCopies (s : State) (h : Nat) : State :=
  match bandAt s h with
  | some b =>
    jStage s (.bandOpen h b.dieSet b.stream b.size b.groups s.pos
      :: b.members.map (fun m => .bandBlock h m.1 m.2.1 m.2.2)
      ++ (if b.closed then [.bandClose h b.next b.closedAt] else []))
  | none => s

/-- A band's opening records must stay in the ring: it is open, or holds conventional data and is not settled. -/
def bandPinned (s : State) (h : Nat) : Bool :=
  match bandAt s h with
  | some b => !b.closed || (b.conv && !b.settled)
  | none => false

/-- A later copy of the record of a band is in the ring. -/
def copiedLater (s : State) (n : Nat) (same : JRec → Bool) : Bool := s.jr.ring.any (fun q => n < q.1 && same q.2)

/-- The map change of a record lies in a checkpoint whose cut follows it. -/
def inCkpt (s : State) (k seg n : Nat) : Bool :=
  match mget s.ckpts (ckptKey k seg), nsAt s k with
  | some c, some m => if m.zoned then n < c.cut else n < c.madeAt
  | none, some _ => false
  | _, none => true

/-- The dirty conventional segments that can be copied now, with the record number at their first change. -/
def dirtySegs (s : State) : List (Nat × Nat × Nat) :=
  ((s.nss.filter (fun q => !q.2.zoned && convQuiet s q.1 && !(q.2.erase.isSome && q.2.eraseDone))).map (fun q =>
    q.2.dirty.map (fun g => (q.1, g.1, g.2)))).flatten

/-- The first record from the tail on that only a checkpoint of a zoned segment lets go: the segment. -/
def tailSeg (s : State) : Option (Nat × Nat) :=
  (s.jr.ring.find? (fun q => match q.2 with
    | .extent k f c _ _ _ _ _ false => !(List.range c).all (fun i => inCkpt s k ((f + i) / segEntries) q.1)
    | _ => false)).bind (fun q => match q.2 with
      | .extent k f c _ _ _ _ _ _ =>
        ((List.range c).find? (fun i => !inCkpt s k ((f + i) / segEntries) q.1)).map (fun i => (k, (f + i) / segEntries))
      | _ => none)

/-- Whose turn it is among map segments (R345): a conventional one comes when no dirty segment that can be copied is older, a
zoned one when no other holds a record nearer the tail. -/
def segTurn (s : State) (k seg : Nat) : Bool :=
  match nsAt s k with
  | some n =>
    if n.zoned then (match tailSeg s with
      | some p => p = (k, seg)
      | none => true)
    else (match mget n.dirty seg with
      | some r => (dirtySegs s).all (fun q => r ≤ q.2.2)
      | none => true)
  | none => false

/-- Everything that a record describes is durable elsewhere (R340). -/
def recDone (s : State) (n : Nat) (r : JRec) : Bool :=
  match r with
  | .extent k f c h sl _ _ _ cv =>
    if cv then
      !(s.staged.any (fun q => !q.2.complete && (match q.2.slot with
        | some (h', sl') => h' = h && sl ≤ sl' && sl' < sl + c
        | none => q.2.nsk = k)))
    else (List.range c).all (fun i => inCkpt s k ((f + i) / segEntries) n)
  | .dealloc k f c => inCkpt s k (f / segEntries) n && inCkpt s k ((f + c - 1) / segEntries) n
  | .poison k f c _ => inCkpt s k (f / segEntries) n && inCkpt s k ((f + c - 1) / segEntries) n
  | .seq _ => true
  | .bandOpen h _ _ _ _ _ => n < s.tabCkpt.cut && (!bandPinned s h || copiedLater s n (fun r => match r with
      | .bandOpen h' _ _ _ _ _ => h' = h
      | _ => false))
  | .bandBlock h m _ _ => n < s.tabCkpt.cut && (!bandPinned s h || copiedLater s n (fun r => match r with
      | .bandBlock h' m' _ _ => h' = h && m' = m
      | _ => false))
  | .bandClose h _ _ => n < s.tabCkpt.cut && (!bandPinned s h || copiedLater s n (fun r => match r with
      | .bandClose h' _ _ => h' = h
      | _ => false))
  | _ => n < s.tabCkpt.cut

/-- Advance the tail past the records that are done; a pinned band's records at the tail are copied to the head once. -/
def tailAdvance (s : State) : Nat → State
  | 0 => s
  | f + 1 =>
    match s.jr.ring with
    | (n, r) :: t =>
      if recDone s n r then tailAdvance { s with jr := { s.jr with ring := t, tail := n + 1 } } f
      else match r with
        | .bandOpen h _ _ _ _ _ =>
          if n < s.tabCkpt.cut && !(s.jr.staged.any (fun x => match x with
            | .bandOpen h' _ _ _ _ _ => h' = h
            | _ => false)) && !(s.jr.flushing.any (fun x => match x with
            | .bandOpen h' _ _ _ _ _ => h' = h
            | _ => false)) then bandCopies s h else s
        | _ => s
    | [] => { s with jr := { s.jr with tail := s.jr.head } }

end Sys2Proof.Machine
end

