-- ==== Sys2Proof/Machine/PkgOps.lean ====
section
/-! DEFINITION. Extil packages: their layout, the checks of R698, the Thyme patch they carry (20_boot_and_firmware.md
R692, R697–R699). -/

namespace Sys2Proof.Machine

/-- Little-endian field of a package. -/
def pkgField (b : List Nat) (off n : Nat) : Nat := ofLe ((b.drop off).take n)

/-- Bytes of a package in a range. -/
def pkgBytes (b : List Nat) (off n : Nat) : List Nat := (b.drop off).take n

/-- `n` bytes of the host's data; what the buffer does not hold reads 0. -/
def fitBytes (n : Nat) (l : List Nat) : List Nat := (List.range n).map (fun i => l.getD i 0 % 256)

/-- Bytes that are all 0. -/
def allZero (l : List Nat) : Bool := l.all (fun x => x % 256 = 0)

def pkgKind (b : List Nat) : Nat := pkgField b 0x006 1
def pkgKeyId (b : List Nat) : Nat := pkgField b 0x007 1
def pkgVersion (b : List Nat) : Nat := pkgField b 0x008 4
def pkgSvn (b : List Nat) : Nat := pkgField b 0x00C 2
def pkgTotal (b : List Nat) : Nat := pkgField b 0x010 4
def pkgNsect (b : List Nat) : Nat := pkgField b 0x014 1

/-- A section entry (R697). -/
structure Section where
  type : Nat
  off : Nat
  len : Nat
  digest : Nat

/-- The sections that a package names. -/
def pkgSections (b : List Nat) : List Section :=
  (List.range (min 4 (pkgNsect b))).map (fun i =>
    let o := 0x020 + 64 * i
    ⟨pkgField b o 1, pkgField b (o + 4) 4, pkgField b (o + 8) 4, pkgField b (o + 16) 48⟩)

/-- Reserved bytes are 0, and so are the unused section entries. -/
def pkgReservedZero (b : List Nat) : Bool :=
  allZero (pkgBytes b 0x00E 2) && allZero (pkgBytes b 0x015 11) && allZero (pkgBytes b 0x181 31) &&
  (List.range 4).all (fun i =>
    let o := 0x020 + 64 * i
    if i < pkgNsect b then allZero (pkgBytes b (o + 1) 3) && allZero (pkgBytes b (o + 12) 4) else allZero (pkgBytes b o 64))

/-- Sections follow one another after the header, inside the package. -/
def sectionsFit (total : Nat) : Nat → List Section → Bool
  | _, [] => true
  | lo, x :: t => lo ≤ x.off && x.off + x.len ≤ total && sectionsFit total (x.off + x.len) t

/-- The set of TYPEs that a kind may carry. -/
def typesOk (kind : Nat) (ts : List Nat) : Bool :=
  if kind = 2 then ts = [4]
  else ts.count 1 = 1 && ts.count 2 ≤ 1 && ts.count 3 ≤ 1 && ts.all (fun t => 1 ≤ t && t ≤ 3)

/-- The first section of a type. -/
def sectionOf (b : List Nat) (type : Nat) : Option Section := (pkgSections b).find? (·.type = type)

/-- The bytes of a section. -/
def sectionBytes (b : List Nat) (x : Section) : List Nat := pkgBytes b x.off x.len

/-- The firmware image of a package. -/
def imageBytes (b : List Nat) : List Nat := (sectionOf b 1).elim [] (sectionBytes b)

/-- The Thyme patch of a package. -/
def patchBytes (b : List Nat) : Option (List Nat) := (sectionOf b 2).map (sectionBytes b)

/-- The REASON with which a package is refused for an operation that needs one of some kinds (R698): the first check that
fails, in order; `minSvn` is FWP.SVN.MIN. -/
def pkgReason (kinds : List Nat) (minSvn : Nat) (b : List Nat) : Option Nat :=
  if 8388608 < pkgTotal b || pkgTotal b ≠ b.length then some 1
  else if pkgField b 0 4 ≠ 0x4C545845 || pkgField b 4 2 ≠ 1 || !pkgReservedZero b then some 2
  else if !kinds.contains (pkgKind b) then some 3
  else if 3 < pkgKeyId b || ofLe (sha384 (pkgBytes b 0x120 97)) ≠ Config.keyDigest 0 (pkgKeyId b) || Config.keyRevoked (pkgKeyId b)
    then some 4
  else if !ecdsaVerify (pkgBytes b 0x120 97) (pkgBytes b 0x1A0 96) (pkgBytes b 0 0x1A0) then some 5
  else if pkgNsect b = 0 || 4 < pkgNsect b || !sectionsFit (pkgTotal b) 512 (pkgSections b) ||
      !typesOk (pkgKind b) ((pkgSections b).map (·.type)) then some 6
  else if (pkgSections b).any (fun x => ofLe (sha384 (sectionBytes b x)) ≠ x.digest) then some 7
  else if pkgSvn b < minSvn then some 8
  else match patchBytes b with
    | some p => if pkgField p 2 2 ≠ Config.romVersion.toNat then some 9 else none
    | none => none

/-- A package is refused: FWP reports it with its source, 0 slot A, 1 slot B, 2 the SPI NOR, 3 the download buffer (R712). -/
def pkgRefused (s : State) (source reason : Nat) : State :=
  raise (blockError (setF s .fwp 0 F.FWP_RESULT_REASON reason) .fwp 0 1 reason source 0) .fwp 0 F.FWP_INT_RAW_REFUSED

/-- Valid mark and version of a slot. -/
def slotValid (s : State) (n : Nat) : Bool :=
  getF s .fwp 0 (if n = 0 then F.FWP_SLOT_STAT_VALID_A else F.FWP_SLOT_STAT_VALID_B) = 1

/-- A slot loses its valid mark. -/
def slotClear (s : State) (n : Nat) : State :=
  if n = 0 then setF (setF s .fwp 0 F.FWP_SLOT_STAT_VALID_A 0) .fwp 0 F.FWP_VER_A_VERSION 0
  else setF (setF s .fwp 0 F.FWP_SLOT_STAT_VALID_B 0) .fwp 0 F.FWP_VER_B_VERSION 0

/-- A package is written into a slot, read back and marked valid. -/
def slotWrite (s : State) (n : Nat) (b : List Nat) : State :=
  let s1 := { s with slots := mset s.slots n b }
  if n = 0 then setF (setF s1 .fwp 0 F.FWP_SLOT_STAT_VALID_A 1) .fwp 0 F.FWP_VER_A_VERSION (pkgVersion b)
  else setF (setF s1 .fwp 0 F.FWP_SLOT_STAT_VALID_B 1) .fwp 0 F.FWP_VER_B_VERSION (pkgVersion b)

/-- The match registers and patch RAM that a Thyme patch section holds (R699): PATCH_ID, matches, microwords. -/
def patchId (p : List Nat) : Nat := pkgField p 0 2

def patchMatches (p : List Nat) : FMap (Nat × Nat) :=
  (List.range 32).filterMap (fun i =>
    let w := pkgField p (16 + 4 * i) 4
    if bitsOf w 31 31 = 1 then some (i, (bitsOf w 13 0, bitsOf w 24 16)) else none)

def patchWords (p : List Nat) : FMap (BitVec 128) :=
  (List.range 512).map (fun i => (i, BitVec.ofNat 128 (pkgField p (144 + 16 * i) 16)))

end Sys2Proof.Machine
end

