-- ==== Sys2Proof/Machine/KeyOps.lean ====
section
/-! DEFINITION. Sorrel: key slots, security protocols, key agreement, attestation, crypto-erase; and the cipher cores
(12_sorrel_keys_cipher.md). Keys and scalars are numbers that Sorrel's generator gives (log 11); what the part computes from
them it computes by the standards of Crypto.lean. -/

namespace Sys2Proof.Machine

/-! ### Key slots (R463–R465, R472) -/

/-- States of SOR.SLOT_STAT.STATE: 0 FREE, 1 UNBOUND, 2 BOUND, 3 LOST, 4 TLS, 5 DESTROYING. -/
def slotState (s : State) (k : Nat) : Nat :=
  if k < 1024 then
    if (mget s.nsKeys k).isSome then 2
    else if s.lostSlots.contains k then 3
    else match nsAt s k with
      | some n => if (tenant s n.tenant).state = .removing then 5 else 1
      | none => 0
  else if (mget s.tslots k).isSome then 4 else 0

/-- A namespace key slot is destroyed: both copies of its record are overwritten, its key leaves every core and the slot holds
none (R465). -/
def destroySlot (s : State) (k : Nat) : State :=
  bump (dropKey { recDel s k with nsKeys := mdel s.nsKeys k, keyGen := mdel s.keyGen k, lostSlots := s.lostSlots.filter (· ≠ k) } k)
    .sor 0 F.SOR_DESTROYED_COUNT

/-! ### Crypto-erase (R484–R486) -/

/-- Commands in the part that name a namespace and have been admitted. -/
def nsCmds (s : State) (k : Nat) : List Nat :=
  (s.cmds.filter (fun q => q.2.phase ≠ .waiting && (cmdSlots s q.2).contains k)).map Prod.fst

/-- None of these commands is in the part any more. -/
def cmdsGone (s : State) (l : List Nat) : Bool := l.all (fun k => (mget s.cmds k).isNone)

/-- Step 1: every further command that names the namespace is refused. -/
def eraseStart (s : State) (k : Nat) (e : EraseKind) : State :=
  let w := nsCmds s k
  modNs s k (fun n => { n with erase := some e, eraseWait := w, eraseDone := false })

/-- CRYPTO_ERASE_COMMIT: once the commands before it have completed, the new key and the erase cut are written as one
record update. -/
def eraseCommit (k : Nat) (s : State) : State :=
  match nsAt s k with
  | some n =>
    if n.erase.isSome && !n.eraseDone && cmdsGone s n.eraseWait then
      let r := freshKey s
      let s1 := modNs r.2 k (fun n => { n with eraseDone := true, eraseCut := jCount s })
      bindSlot (dropKey s1 k) k r.1 (mgetD s.keyGen k 0 + 1)
    else s
  | none => s

/-- The staged units of an erased namespace: those that hold a slot are programmed there and are stale, the others are
dropped. Copies of a relocation stay, and their commit finds their entries gone (R302). -/
def staleUnits (s : State) (k : Nat) : State :=
  { s with staged := (s.staged.filter (fun q => !(q.2.nsk = k && q.2.slot.isNone && !q.2.reloc))).map (fun q =>
      if q.2.nsk = k then (q.1, { q.2 with stale := true }) else q) }

/-- Whoever began a crypto-erase learns that it has ended: the Format NVM completes, a BIND's response is ready, a Sanitize
whose namespaces have all ended has completed. -/
def eraseTell (s : State) (k : Nat) (n : Ns) : State :=
  match n.erase with
  | some .format =>
    (s.adminWaits.filter (fun w => w.2.2 = .format k)).foldl (fun s w => postSt s w.1 w.2.1 stOk)
      { s with adminWaits := s.adminWaits.filter (fun w => w.2.2 ≠ .format k) }
  | some .bind => readyResp s n.tenant
  | some .sanitize =>
    if s.nss.any (fun q => q.2.tenant = n.tenant && q.2.erase = some .sanitize) then s
    else modTenant s n.tenant (fun t => { t with sanitize := 1 })
  | none => s

/-- CRYPTO_ERASE_DONE: after the commit the namespace becomes empty. -/
def eraseEnd (k : Nat) (s : State) : State :=
  match nsAt s k with
  | some n =>
    if n.erase.isSome && n.eraseDone then
      let s1 := staleUnits s k
      let s2 := modNs s1 k (fun n => { n with
        erase := none, eraseWait := [], eraseDone := false, map := [], dirty := [], zones := [], nonce := {}, wp := false,
        defer := false })
      let s3 := modTenant s2 n.tenant (fun t => { t with defer := t.defer.filter (fun e => e.nsid ≠ n.nsid) })
      pump (eraseTell s3 k n)
    else s
  | none => s

/-! ### Security Send and Receive (R461, R466) -/

/-- Bits of the dwords of Security Send and Receive that their descriptions name (log 7). -/
def secMasks : List Nat := [0xFFFFFFFF, 0xFFFFFFFF, 0, 0, 0, 0]

/-- Security Send of one protocol: it completes successfully, and the request goes on. SECP is dword 10 [31:24], SPSP
[23:8], the transfer length dword 11. -/
def secSend (q : Capsule) (secp : Nat) (run : Nat → State → State) (s : State) : State :=
  admin q { masks := secMasks } (fun f s =>
    if bitsOf q.dw10 31 24 ≠ secp || (secp = 0xF0 && bitsOf q.dw10 23 8 ≠ 0) || (secp = 0xE8 && 4096 < q.len) || 2097152 < q.dw11 then
      no stInvalidField
    else .yes (run f (postSt s q.conn q.cid stOk))) s

/-- The function's enrollment. -/
def enrollOf (s : State) (f : Nat) : Option Enroll := if f = fnMF then s.mfEnroll else (tenant s f).enroll

/-- A function's enrollment changes, and with it its key record (R459, R468). -/
def setEnroll (s : State) (f : Nat) (e : Enroll) : State :=
  let s1 := recPut s (enrollRec f) (.enroll e)
  if f = fnMF then { s1 with mfEnroll := some e } else modTenant s1 f (fun t => { t with enroll := some e })

/-- A response waits for the next Security Receive of its function and protocol. -/
def setResp (s : State) (f : Nat) (spdm : Bool) (r : SecResp) : State :=
  { s with secs := mset s.secs (f * 2 + (!spdm).toNat) r }

/-- A request or response of key agreement up to its MAC (R467). -/
def kaHead (op result ctr : Nat) (body : List Nat) : List Nat :=
  leBytes 2 op ++ leBytes 2 result ++ leBytes 4 body.length ++ leBytes 8 ctr ++ body

/-- A key agreement response as bytes: header, body, MAC under K_RSP (R467). -/
def kaBytes (s : State) (f : Nat) (r : SecResp) : List Nat :=
  let head := kaHead r.op r.result r.ctr r.body
  if r.op = 1 then head
  else if 1 ≤ r.result && r.result ≤ 3 then head ++ List.replicate 48 0
  else match enrollOf s f with
    | some e => head ++ hmac384 (kRsp f e) head
    | none => head ++ List.replicate 48 0

/-- SECURITY_RECEIVE. -/
def securityReceive (q : Capsule) (s : State) : State :=
  admin q { masks := secMasks } (fun f s =>
    let secp := bitsOf q.dw10 31 24
    if 2097152 < q.dw11 then no stInvalidField
    else if secp = 0 then .yes (postOk s q.conn q.cid 0 [0, 0, 0, 0, 0, 0, 0, 3, 0x00, 0xE8, 0xF0])
    else if secp = 0xE8 then
      match mget s.secs (f * 2) with
      | some r => .yes (postOk { s with secs := mdel s.secs (f * 2) } q.conn q.cid 0 r.body)
      | none => .yes (postSt s q.conn q.cid stSequenceError)
    else if secp = 0xF0 && bitsOf q.dw10 23 8 = 0 then
      match mget s.secs (f * 2 + 1) with
      | some r =>
        if r.ready && r.due ≤ s.now then
          .yes (postOk { s with secs := mdel s.secs (f * 2 + 1) } q.conn q.cid 0 (kaBytes s f r))
        else .yes (postOk s q.conn q.cid 0 (kaBytes s f { r with result := 0x000E, body := [] }))
      | none => .yes (postSt s q.conn q.cid stSequenceError)
    else no stInvalidField) s

/-! ### Key agreement (R468–R472) -/

/-- The refusal of R468, if any, of a request with a body: not enrolled, a bad MAC, a replayed CTR. -/
def kaRefusal (s : State) (f op : Nat) (h : KaHdr) (body : List Nat) : Option Nat :=
  match enrollOf s f with
  | none => some 3
  | some e =>
    if h.mac ≠ hmac384 (kCmd f e) (kaHead op 0 h.ctr body) then some 1
    else if h.ctr % 2 ^ 64 ≤ e.ctr then some 2 else none

/-- What an accepted operation answers: state, RESULT, body, and whether the response is ready. -/
structure KaRes where
  s : State
  result : Nat
  body : List Nat
  ready : Bool
  wait : Nat := 0

/-- An answer with no body. -/
def kaAns (s : State) (result : Nat) : KaRes := ⟨s, result, [], true, 0⟩

/-- An answer with bytes. -/
def kaBytesAns (s : State) (l : List Nat) : KaRes := ⟨s, 0, l, true, 0⟩

/-- A request under R468: a refused one is counted and reported, an accepted one takes its CTR and runs. -/
def kaRun (f op : Nat) (h : KaHdr) (body : List Nat) (run : State → KaRes) (s : State) : State :=
  match kaRefusal s f op h body with
  | some r =>
    let s1 := raise (blockError (bump s .sor 0 F.SOR_KA_FAIL_REQ) .sor 0 1 r (fnCode f) 0) .sor 0 F.SOR_INT_RAW_KA_FAIL
    setResp s1 f false ⟨op, r, h.ctr, [], true, 0⟩
  | none =>
    let s1 := (match enrollOf s f with
      | some e => setEnroll s f { e with ctr := h.ctr % 2 ^ 64 }
      | none => s)
    let r := run s1
    setResp r.s f false ⟨op, r.result, h.ctr, r.body, r.ready, s.now + r.wait⟩

/-- A key agreement request: Security Send with SECP 0xF0. -/
def kaSend (q : Capsule) (op : Nat) (h : KaHdr) (body : List Nat) (run : Nat → State → KaRes) (s : State) : State :=
  secSend q 0xF0 (fun f s => kaRun f op h body (run f) s) s

/-- A signature by the DIK; its per-message secret comes from the generator (R458, R460). -/
def dikSign (s : State) (l : List Nat) : List Nat × State :=
  (ecdsaSign dikScalar (freshScalar s).1 l, (freshScalar s).2)

/-- Function number, part serial number and SPK of an ENROLL response. -/
def enrollHead (f ssk : Nat) : List Nat := leBytes 2 (fnCode f) ++ leBytes 16 Config.serial ++ ecPublic ssk

/-- MF's new enrollment brings a new MK: its generation rises, and kept records are tagged under it (R662, R471). -/
def mkNew (s : State) : State :=
  let g := (getF s .mtr 0 F.MTR_MK_GEN_GEN + 1) % 2 ^ 32
  let t := setF (setF (dropKey s 0x2000) .mtr 0 F.MTR_MK_GEN_GEN g) .mtr 0 F.MTR_STAT_MK_READY 1
  { t with meter := { t.meter with rings := t.meter.rings.map (fun x => (x.1, x.2.map (mtrTagged s.mfEnroll g x.1))) } }

/-- ENROLL with the bytes of TPK. It needs no MAC. -/
def enroll (q : Capsule) (ctr : Nat) (tpk : List Nat) (s : State) : State :=
  secSend q 0xF0 (fun f s =>
    if f ≠ fnMF && (enrollOf s f).isSome then setResp s f false ⟨1, 4, ctr, [], true, 0⟩
    else if (ecPoint tpk).isNone then setResp s f false ⟨1, 5, ctr, [], true, 0⟩
    else
      let r := freshScalar s
      let s1 := setEnroll r.2 f ⟨tpk, r.1, 0⟩
      let s2 := if f = fnMF then mkNew s1 else s1
      let g := dikSign s2 (enrollHead f r.1 ++ tpk)
      setResp g.2 f false ⟨1, 0, ctr, enrollHead f r.1 ++ g.1, true, 0⟩) s

/-- BIND. -/
def bind (q : Capsule) (h : KaHdr) (nsid : Nat) (s : State) : State :=
  kaSend q 2 h (leBytes 4 nsid) (fun f s =>
    if f = fnMF then kaAns s 9
    else match nsSlot s f nsid with
    | none => kaAns s 6
    | some k =>
      if (migOf s f).state = .importing && (migOf s f).names nsid then kaAns s 0xB
      else if (nsAt s k).any (·.erase.isSome) then kaAns s 8
      else match slotState s k with
      | 1 =>
        let r := freshKey s
        kaAns (modNs (bindSlot r.2 k r.1 1) k (fun n => { n with nonce := {} })) 0
      | 2 => kaAns s 7
      | 3 => ⟨eraseStart s k .bind, 0, [], false, 0⟩
      | _ => kaAns s 8) s

/-- STATUS of one NSID: state, flags, GEN (R469). -/
def statusEntry (s : State) (f nsid : Nat) : List Nat :=
  match nsSlot s f nsid with
  | some k =>
    let st := (match slotState s k with
      | 1 => 1
      | 2 => 2
      | 3 => 3
      | _ => 4)
    let n := nsAt s k
    [st, (n.any (·.wp)).toNat + (n.any (·.erase.isSome)).toNat * 2, 0, 0] ++ leBytes 4 (mgetD s.keyGen k 0)
  | none => List.replicate 8 0

/-- STATUS: the key slot states of a tenant's namespaces, then the last accepted CTR. -/
def keyStatus (q : Capsule) (h : KaHdr) (s : State) : State :=
  kaSend q 3 h [] (fun f s =>
    let e := (List.range 16).map (fun i => if f = fnMF then List.replicate 8 0 else statusEntry s f (i + 1))
    kaBytesAns s (e.flatten ++ leBytes 8 h.ctr)) s

/-! ### Attestation (R461, R462). Message layouts are those of SPDM 1.2 (R4; log 172). -/

/-- The SPDM exchange of a function. -/
def spdmOf (s : State) (f : Nat) : Spdm := mgetD s.spdm f {}

/-- An SPDM request is answered: the response waits, and the exchange takes its new state. -/
def spdmGive (s : State) (f : Nat) (x : Spdm) (resp : List Nat) : State :=
  setResp (bump { s with spdm := mset s.spdm f x } .sor 0 F.SOR_SPDM_REQ_COUNT) f true ⟨0, 0, 0, resp, true, 0⟩

/-- An SPDM ERROR response. -/
def spdmError (s : State) (f code data : Nat) : State := spdmGive s f (spdmOf s f) [(spdmOf s f).ver, 0x7F, code, data]

/-- An SPDM request by its bytes. One whose version is not the one in force ends in VersionMismatch. -/
def spdmAnswer (q : Capsule) (req : List Nat) (run : Nat → Spdm → State → State) (s : State) : State :=
  secSend q 0xE8 (fun f s =>
    let x := spdmOf s f
    if req.getD 0 0 ≠ x.ver then spdmError s f 0x41 0 else run f x s) s

/-- The certificate chain of slot 0: length, root hash, certificates. -/
def spdmChain : List Nat :=
  let c := Config.rootCert ++ Config.deviceCerts
  leBytes 2 (52 + c.length) ++ [0, 0] ++ sha384 Config.rootCert ++ c

/-- A measurement's value. -/
def measurement (s : State) (f i : Nat) : List Nat :=
  let run := mgetD s.slots (getF s .fwp 0 F.FWP_SLOT_STAT_RUNNING) []
  match i with
  | 1 => sha384 Config.bootRom
  | 2 => sha384 (imageBytes run)
  | 3 => if getF s .til 0 F.TIL_THY_VER_PATCH_ID = 0 then List.replicate 48 0 else sha384 ((patchBytes run).getD [])
  | 4 => sha384 [getF s .dbg 0 F.DBG_TOKEN_SINCE_POR]
  | 0x10 => (match enrollOf s f with
    | some e => sha384 (leBytes 2 (fnCode f) ++ leBytes 16 Config.serial ++ sha384 e.tpk ++ sha384 (ecPublic e.ssk))
    | none => List.replicate 48 0)
  | _ => []

/-- Indexes of the measurement blocks. -/
def measIdx : List Nat := [1, 2, 3, 4, 0x10]

/-- A measurement block: index, DMTF specification, size, then value type, size and value, in raw bit-stream form. -/
def measBlock (s : State) (f i : Nat) : List Nat :=
  [i, 1] ++ leBytes 2 51 ++ [0x80 + (measIdx.findIdx (· = i)) % 4] ++ leBytes 2 48 ++ measurement s f i

/-- A DIK signature over a transcript: version 1.2 puts a prefix with the context before the transcript's hash. -/
def spdmSign (s : State) (ver : Nat) (context : String) (transcript : List Nat) : List Nat × State :=
  if ver = 0x12 then
    let c := ascii context
    dikSign s ((List.replicate 4 (ascii "dmtf-spdm-v1.2.*")).flatten ++ List.replicate (36 - c.length) 0 ++ c ++ sha384 transcript)
  else dikSign s transcript

/-- SPDM_GET_VERSION: versions 1.1 and 1.2; it begins the exchange anew. -/
def spdmVersion (q : Capsule) (req : List Nat) (s : State) : State :=
  secSend q 0xE8 (fun f s =>
    let resp := [0x10, 0x04, 0, 0, 0, 2, 0x00, 0x11, 0x00, 0x12]
    spdmGive s f { vca := req ++ resp } resp) s

/-- SPDM_GET_CAPABILITIES: CERT_CAP, CHAL_CAP, MEAS_CAP with signature. The request chooses the version. -/
def spdmCapabilities (q : Capsule) (req : List Nat) (s : State) : State :=
  secSend q 0xE8 (fun f s =>
    let v := req.getD 0 0
    if v ≠ 0x11 ∧ v ≠ 0x12 then spdmError s f 0x41 0
    else
      let resp := [v, 0x61, 0, 0, 0, 0, 0, 0] ++ leBytes 4 0x16 ++ (if v = 0x12 then leBytes 4 4096 ++ leBytes 4 4096 else [])
      spdmGive s f { spdmOf s f with ver := v, vca := (spdmOf s f).vca ++ req ++ resp } resp) s

/-- SPDM_NEGOTIATE_ALGORITHMS: ECDSA P-384, SHA-384. -/
def spdmAlgorithms (q : Capsule) (req : List Nat) (s : State) : State :=
  spdmAnswer q req (fun f x s =>
    let resp := [x.ver, 0x63, 0, 0, 36, 0, 1, 0] ++ leBytes 4 0x04 ++ leBytes 4 0x80 ++ leBytes 4 0x02 ++ List.replicate 16 0
    spdmGive s f { x with vca := x.vca ++ req ++ resp } resp) s

/-- SPDM_GET_DIGESTS: slot 0. -/
def spdmDigests (q : Capsule) (req : List Nat) (s : State) : State :=
  spdmAnswer q req (fun f x s =>
    let resp := [x.ver, 0x01, 0, 1] ++ sha384 spdmChain
    spdmGive s f { x with certs := x.certs ++ req ++ resp } resp) s

/-- SPDM_GET_CERTIFICATE: a part of the slot 0 chain; another slot is an invalid request. -/
def spdmCertificate (q : Capsule) (req : List Nat) (s : State) : State :=
  spdmAnswer q req (fun f x s =>
    let off := ofLe ((req.drop 4).take 2)
    if req.getD 2 0 % 16 ≠ 0 ∨ spdmChain.length ≤ off then spdmError s f 0x01 0
    else
      let p := (spdmChain.drop off).take (ofLe ((req.drop 6).take 2))
      let resp := [x.ver, 0x02, 0, 0] ++ leBytes 2 p.length ++ leBytes 2 (spdmChain.length - off - p.length) ++ p
      spdmGive s f { x with certs := x.certs ++ req ++ resp } resp) s

/-- A nonce of 32 bytes. -/
def spdmNonce (s : State) : List Nat × State := (leBytes 32 (drawBits s).1, (drawBits s).2)

/-- SPDM_CHALLENGE: signed with the DIK over the exchange; param 2 asks for a summary of all measurements, or of none. -/
def spdmChallenge (q : Capsule) (req : List Nat) (s : State) : State :=
  spdmAnswer q req (fun f x s =>
    if req.getD 2 0 ≠ 0 then spdmError s f 0x01 0
    else
      let n := spdmNonce s
      let sum := if req.getD 3 0 = 0 then [] else
        sha384 ((if req.getD 3 0 = 1 then [1] else measIdx).map (fun i => measBlock s f i)).flatten
      let resp := [x.ver, 0x03, 0, 1] ++ sha384 spdmChain ++ n.1 ++ sum ++ [0, 0]
      let g := spdmSign n.2 x.ver "responder-challenge_auth signing" (x.vca ++ x.certs ++ req ++ resp)
      spdmGive g.2 f { x with certs := [] } (resp ++ g.1)) s

/-- SPDM_GET_MEASUREMENTS: the number of blocks for operation 0, all of them for 0xFF, or one; signed when the request asks. -/
def spdmMeasurements (q : Capsule) (req : List Nat) (s : State) : State :=
  spdmAnswer q req (fun f x s =>
    let op := req.getD 3 0
    if op ≠ 0 ∧ op ≠ 0xFF ∧ op ∉ measIdx then spdmError s f 0x01 0
    else
      let is := if op = 0xFF then measIdx else if op = 0 then [] else [op]
      let b := (is.map (measBlock s f)).flatten
      let n := spdmNonce s
      let resp := [x.ver, 0x60, if op = 0 then measIdx.length else 0, 0, is.length] ++ leBytes 3 b.length ++ b ++ n.1 ++ [0, 0]
      let log := x.meas ++ req ++ resp
      if req.getD 2 0 % 2 = 1 then
        let g := spdmSign n.2 x.ver "responder-measurements signing" ((if x.ver = 0x12 then x.vca else []) ++ log)
        spdmGive g.2 f { x with meas := [] } (resp ++ g.1)
      else spdmGive n.2 f { x with meas := log } resp) s

/-- SPDM_UNSUPPORTED_REQUEST: ERROR, UnsupportedRequest. -/
def spdmUnsupported (q : Capsule) (req : List Nat) (s : State) : State :=
  secSend q 0xE8 (fun f s => spdmError s f 0x07 (req.getD 1 0)) s

/-! ### Cipher cores (R487–R491) -/

/-- A core. -/
def coreAt (s : State) (c : Nat) : Core := mgetD s.cores c {}

/-- Replace a core. -/
def setCore (s : State) (c : Nat) (x : Core) : State := { s with cores := mput s.cores c {} x }

/-- Cores in service. -/
def coresOk (s : State) : List Nat := (List.range 16).filter (fun c => !s.oos.cores.contains c)

/-- A core takes a job; a key that misses its cache is loaded. Which of 8 cached keys gives way, the spec leaves open; the
model drops the one loaded longest ago (log 13). -/
def coreTake (s : State) (c : Nat) (j : CJob) : State :=
  let x := coreAt s c
  if x.cache.contains j.addr then setCore s c { x with job := some (j, s.now) }
  else bump (setCore s c { job := some (j, s.now), cache := (j.addr :: x.cache).take 8 }) .csx 0 F.CSX_KEY_LOADS_COUNT

/-- Blocks a running job has left: two blocks end per ns. -/
def blocksLeft (s : State) (j : CJob) (since : Nat) : Nat := j.blocks - 2 * (s.now - since)

/-- The job a free core takes: the highest class, in it a resumed job first, then the earliest. -/
def nextJob (s : State) : Option CJob :=
  (s.cctx ++ s.cjobs).foldl (fun best j => match best with
    | none => some j
    | some b => if b.cls < j.cls then some j else some b) none

/-- A free core takes the next job. -/
def coreNext (s : State) (c : Nat) : State :=
  match nextJob s with
  | some j => coreTake { s with cctx := s.cctx.erase j, cjobs := if s.cctx.contains j then s.cjobs else s.cjobs.erase j } c j
  | none => s

/-- The core a STRICT job preempts, with its job and the blocks that remain. -/
def preemptCore (s : State) : Option (Nat × CJob × Nat) :=
  if 64 ≤ s.cctx.length then none
  else ((coresOk s).filterMap (fun c => match (coreAt s c).job with
    | some (j, t) => if j.cls < 2 then some (c, j, blocksLeft s j t) else none
    | none => none)).foldl (fun best x => match best with
      | none => some x
      | some b => if b.2.2 < x.2.2 then some x else some b) none

/-- A job arrives: a free core takes it, one that has its key cached before others; a STRICT job may preempt. -/
def jobArrive (s : State) (j : CJob) : State :=
  let free := (coresOk s).filter (fun c => (coreAt s c).job.isNone)
  match (free.find? (fun c => (coreAt s c).cache.contains j.addr)).orElse (fun _ => free.head?) with
  | some c => coreTake s c j
  | none =>
    match (if j.cls = 2 then preemptCore s else none) with
    | some (c, r, left) =>
      if getF s .csx 0 F.CSX_SCHED_CTRL_PREEMPT_MIN ≤ left && r.preempts < getF s .csx 0 F.CSX_SCHED_CTRL_PREEMPT_MAX then
        let r1 := { r with blocks := left - 1, preempts := r.preempts + 1, resumed := true }
        coreTake (bump { s with cctx := s.cctx ++ [r1] } .csx 0 F.CSX_PREEMPTS_COUNT) c j
      else { s with cjobs := s.cjobs ++ [j] }
    | none => { s with cjobs := s.cjobs ++ [j] }

/-- Every job in CSX. -/
def allJobs (s : State) : List CJob := s.cctx ++ s.cjobs ++ s.cores.filterMap (fun q => q.2.job.map Prod.fst)

/-- CIPHER_JOB_ARRIVAL. A decryption is that of a sector whose ciphertext a read has. -/
def cipherArrival (r : JobReq) (s : State) : State :=
  match r with
  | .dec conn cid off =>
    (match s.cmds.find? (fun q => q.2.conn = conn && q.2.cid = cid && (mget q.2.plain off).isSome) with
    | some (k, c) =>
      if (allJobs s).any (fun j => j.what = .dec k off) then s
      else jobArrive s { what := .dec k off, addr := c.nsk.getD 0, cls := c.cls, blocks := 256 }
    | none => s)
  | .other id addr cls blocks => jobArrive s { what := .other id, addr := addr, cls := min 2 cls, blocks := blocks }

/-- A sector is decrypted under the key of its command's namespace: its tag verifies, or the sector fails (R479). `intact` says
that the ciphertext and metadata came as they were stored. -/
def decDone (s : State) (k off : Nat) (intact : Bool) : State :=
  match mget s.cmds k with
  | some c => (match mget c.plain off, c.nsk with
    | some x, some sl =>
      (match (if intact then (mget s.nsKeys sl).bind (fun key => x.opened key ((nsAt s sl).elim 0 (·.nsid))) else none) with
      | some v => readGive (bump s .csx 0 F.CSX_SECT_DEC_COUNT) k off v
      | none =>
        let s1 := raise (blockError (bump s .csx 0 F.CSX_AUTH_FAIL_SECTOR) .csx 0 1 (c.fn % 512) (x.lsa % 2 ^ 32)
          (sl * 65536 + x.lsa / 2 ^ 32)) .csx 0 F.CSX_INT_RAW_AUTH_FAIL
        readFail s1 k off stSectorAuth)
    | _, _ => s)
  | none => s

/-- CIPHER_JOB_DONE: a core's job ends; the core takes the next. -/
def cipherDone (c : Nat) (intact : Bool) (s : State) : State :=
  match (coreAt s c).job with
  | some (j, _) =>
    let s1 := setCore s c { coreAt s c with job := none }
    let s2 := (match j.what with
      | .dec k off => decDone s1 k off intact
      | .other _ => s1)
    coreNext s2 c
  | none => s

end Sys2Proof.Machine
end

