-- ==== Sys2Proof/Machine/RelocOps.lean ====
section
/-! DEFINITION. Relocation of a victim band step by step, retirement of blocks, refresh and patrol
(07_translation_and_wear.md R310–R321; 08_map_durability.md R350). -/

namespace Sys2Proof.Machine

/-! ### Retirement (R310, R311) -/

/-- A block becomes an SLC system block; one that was queued for erase is erased before its first use. -/
def sysBlock (s : State) (die blk : Nat) : State :=
  modBlk s die blk (fun x => { x with state := .system, dirty := x.state = .queued || x.dirty, fill := 0 })

/-- A block is retired: it takes a block of its member's spare pool, or lowers BAND_BLOCKS. A system block is replaced by
the free block of lowest erase count (R308). -/
def retireBlock (s : State) (die blk : Nat) : State :=
  let s0 := modBlk s die blk (fun x => { x with state := .retired, dirty := false })
  let s1 := if (blkOf s die blk).state = .system then (leastWorn s0 die).elim s0 (sysBlock s0 die) else s0
  let p := mkPua die 0 blk 0
  match dsOfDie s1 die with
  | some (d, ds) =>
    let m := ds.members.idxOf die
    let s2 := modDs s1 d (fun x =>
      if x.spare.getD m 0 = 0 then { x with bandBlocks := x.bandBlocks - 1 }
      else { x with spare := x.spare.set m (x.spare.getD m 0 - 1) })
    raise (blockError (bump s2 .mape 0 F.MAPE_RETIRED) .mape 0 1 d (p % 2 ^ 32) (p / 2 ^ 32)) .mape 0 F.MAPE_INT_RAW_RETIRE
  | none => s1

/-! ### Victims (R314, R316, R317) -/

/-- Relocation of a die set starts, keeps on or stops (R314). -/
def judgeReloc (s : State) (d : Nat) : State :=
  match dsAt s d with
  | some ds =>
    let fb := freeBands s ds
    let start := getF s .mape 0 F.MAPE_GC_CTRL_START
    if fb ≤ start then modDs s d (fun x => { x with running := true })
    else if start + 2 < fb then modDs s d (fun x => { x with running := false })
    else s
  | none => s

/-- A place lies in a block of a band. -/
def Band.holds (b : Band) (pua : Nat) : Bool := b.members.any (fun m => m.2.1 = puaDie pua && m.2.2 = puaBlk pua)

/-- Live entries that point into a band: key slot, zoned, place and codeword. -/
def liveIn (s : State) (b : Band) : List (Nat × Bool × Nat × Nat) :=
  (s.nss.map (fun q => q.2.map.filterMap (fun e => match e.2 with
    | .at p i => if b.holds p then some (q.1, q.2.zoned, p, i) else none
    | _ => none))).flatten

/-- Live sectors of a band. -/
def liveCount (s : State) (b : Band) : Nat := ((liveIn s b).map (fun e => if e.2.1 then 4 else 1)).sum

/-- Some staged unit holds a slot of the band. -/
def bandStaged (s : State) (h : Nat) : Bool :=
  s.staged.any (fun q => match q.2.slot with
    | some (h', _) => h' = h
    | none => false)

/-- The order of victims: refresh first unless the die set is urgent, then fewer live sectors, then closed earlier. -/
def victimBefore (s : State) (urgent : Bool) (a b : Nat × Band) : Bool :=
  let ra := !urgent && a.2.refresh
  let rb := !urgent && b.2.refresh
  let la := liveCount s a.2
  let lb := liveCount s b.2
  (ra && !rb) || (ra = rb && (la < lb || (la = lb && a.2.closedAt < b.2.closedAt)))

/-- The next victim of a die set: while its relocation runs any closed band, else one queued for refresh or one with no live
sector (R314, R317). -/
def nextVictim (s : State) (d : Nat) (ds : DieSet) : Option (Nat × Band) :=
  (s.bands.filter (fun q => q.2.dieSet = d && q.2.closed && !bandStaged s q.1 &&
      (ds.running || q.2.refresh || liveCount s q.2 = 0))).foldl
    (fun best q => match best with
      | none => some q
      | some b => if victimBefore s (dsUrgent s ds) q b then some q else some b) none

/-- Release a band: its RELEASE record is staged and its blocks are queued for erase once the record is in the ring; a
block marked suspect twice is retired (R310, R339, R350). -/
def releaseBand (s : State) (h : Nat) : State :=
  match bandAt s h with
  | some b =>
    let s0 := dropAccs s h
    let s1 := jStage { s0 with bands := mdel s0.bands h } [.release h]
    let n := jCount s1
    b.members.foldl (fun s m =>
      let k := blkOf s m.2.1 m.2.2
      if k.state = .retired then s
      else if 2 ≤ k.suspect then retireBlock s m.2.1 m.2.2
      else modBlk s m.2.1 m.2.2 (fun x => { x with state := .queued, waitRec := n, dirty := true, asked := false, relBand := h })) s1
  | none => s

/-! ### Copy and commit (R302, R318, R350) -/

/-- A commit or a release of a victim waits while the ring is held, and is counted once (R341). -/
def ringGate (s : State) (h : Nat) (v : Victim) (go : State) : State :=
  if !ringHeld s then go
  else if v.held then s
  else ringWaits (modBand s h (fun b => { b with victim := some { v with held := true } }))

/-- Begin the copy of a victim: each codeword of every plane page whose unit state is 0b01 is read at the class of the die
set's relocation (R318). -/
def beginCopy (s : State) (ds : DieSet) (h : Nat) (b : Band) : State :=
  let cls := if dsUrgent s ds then 1 else 0
  let pages := (((liveIn s b).map (fun e => e.2.2.1)).eraseDups).filter (fun p => unitState s p = 1)
  let places := (pages.map (fun p => (List.range 4).map (fun i => (p, i)))).flatten
  if places.isEmpty then ringGate s h { committed := true } (releaseBand s h)
  else places.foldl (fun s p => startClimb s p.1 p.2 cls 0 (.reloc h))
    (modBand s h (fun b => { b with victim := some {} }))

/-- A staged unit was copied out of a band. -/
def copiedFrom (b : Band) (u : StUnit) : Bool :=
  u.reloc && u.secs.any (fun c => match c.2.src with
    | some (p, _) => b.holds p
    | none => false)

/-- The copies of a victim, by unit. -/
def copies (s : State) (b : Band) : List (Nat × StUnit) := s.staged.filter (fun q => copiedFrom b q.2)

/-- One sector of a conventional copy, or the whole of a zoned one, takes its new place if the map still holds the old
one (R302). -/
def commitPlace (s : State) (u : StUnit) (pua sub : Nat) (c : StSec) : State :=
  match nsAt s u.nsk, c.src with
  | some n, some (p, i) =>
    if entOf n c.sec.lsa = some (.at p (if n.zoned then 0 else i)) then
      bump (setEnt s u.nsk (entIdx n c.sec.lsa) (some (.at pua (if n.zoned then 0 else sub)))) .mape 0 F.MAPE_RELOCATED
    else bump s .mape 0 F.MAPE_CAS_LOST
  | _, _ => bump s .mape 0 F.MAPE_CAS_LOST

/-- Commit one copied unit: its map changes and their EXTENT records. -/
def commitUnit (s : State) (q : Nat × StUnit) : State :=
  let u := q.2
  match u.slot with
  | some (h, sl) => (match bandAt s h with
    | some b =>
      let pua := b.slotPua sl
      let before := ((nsAt s u.nsk).map (·.map)).getD []
      let s1 := (if u.zoned then u.secs.take 1 else u.secs).foldl (fun s p => commitPlace s u pua p.1 p.2) s
      let moved : List (Nat × StSec) := (match nsAt s1 u.nsk with
        | some n => u.secs.filter (fun p =>
            entOf n p.2.sec.lsa = some (MapEnt.at pua (if n.zoned then 0 else p.1)) &&
            mget before (entIdx n p.2.sec.lsa) ≠ some (MapEnt.at pua (if n.zoned then 0 else p.1)))
        | none => [])
      let recs : List JRec := if moved.isEmpty then [] else if u.zoned then
          [.extent u.nsk u.unit 1 h sl true 0 u.tail false]
        else moved.map (fun p => .extent u.nsk p.2.sec.lsa 1 h sl true p.1 0 true)
      let s2 := recs.foldl jExtent s1
      { s2 with staged := mdel s2.staged q.1 }
    | none => s)
  | none => s

/-- Segments of conventional namespaces that a victim's copies change. -/
def convSegs (us : List (Nat × StUnit)) : List (Nat × Nat) :=
  (us.map (fun q => if q.2.zoned then [] else q.2.secs.map (fun p => (q.2.nsk, p.2.sec.lsa / segEntries)))).flatten.eraseDups

/-- Commit of a victim: all its copies at once. -/
def commitVictim (s : State) (h : Nat) (b : Band) : State :=
  let us := copies s b
  let s1 := us.foldl commitUnit s
  let n := jCount s1
  modBand s1 h (fun b => { b with victim := some { committed := true, commitRec := n, segs := (convSegs us).map (fun q => (q.1, q.2, n)) } })

/-- Every map change of a committed victim is durable. -/
def commitDurable (s : State) (v : Victim) : Bool :=
  decide (v.commitRec ≤ s.jr.head) && v.segs.all (fun g => match mget s.ckpts (ckptKey g.1 g.2.1) with
    | some c => decide (g.2.2 ≤ c.madeAt)
    | none => (nsAt s g.1).isNone)

/-- One step of a victim's relocation. -/
def relocStep (s : State) (h : Nat) (b : Band) (v : Victim) : State :=
  if v.committed then (if commitDurable s v then ringGate s h v (releaseBand s h) else s)
  else if s.climbs.any (fun q => q.2.readers.contains (.reloc h)) then s
  else
    let us := copies s b
    let slow := us.filter (fun q => !q.2.complete)
    if slow.isEmpty then
      (if us.any (fun q => match q.2.slot with
        | some (h', _) => s.raws.any (fun r => r.band = h')
        | none => true) then s else ringGate s h v (commitVictim s h b))
    else forceUnits s (slow.map Prod.fst)

/-- RELOCATION: firmware takes the next step of a die set's relocation: it goes on with the victims it has begun, or
takes the next one. -/
def relocation (d : Nat) (s0 : State) : State :=
  let s := judgeReloc s0 d
  match dsAt s d with
  | some ds =>
    let begun := s.bands.filter (fun q => q.2.dieSet = d && q.2.victim.isSome)
    if begun.isEmpty then
      (match nextVictim s d ds with
      | some (h, b) => pump (beginCopy s ds h b)
      | none => s)
    else pump (begun.foldl (fun s q => match bandAt s q.1 with
      | some b => (match b.victim with
        | some v => relocStep s q.1 b v
        | none => s)
      | none => s) s)
  | none => s

/-! ### Refresh (R320, R321) -/

/-- Read threshold of a mode, in reads. -/
def disturbLimit (s : State) (bits : Nat) : Nat :=
  1024 * max 1 (match bits with
    | 1 => getF s .mape 0 F.MAPE_DISTURB_SLC_K
    | 3 => getF s .mape 0 F.MAPE_DISTURB_TLC_K
    | _ => getF s .mape 0 F.MAPE_DISTURB_QLC_K)

/-- An array read of a block (R320). -/
def countRead (s : State) (pua : Nat) : State :=
  let d := puaDie pua
  let s1 := modBlk s d (puaBlk pua) (fun x => { x with reads := x.reads + 1 })
  match bandOfBlk s1 d (puaBlk pua) with
  | some h =>
    let lim := disturbLimit s1 (dieBits s1 d)
    if lim ≤ (blkOf s1 d (puaBlk pua)).reads then queueRefresh s1 h else s1
  | none => s1

/-- Days of retention of a mode. -/
def retainDays (s : State) (bits : Nat) : Nat :=
  if bits = 3 then getF s .mape 0 F.MAPE_RETAIN_TLC_DAYS else getF s .mape 0 F.MAPE_RETAIN_QLC_DAYS

/-- Bands closed for longer than their mode retains are queued for refresh. -/
def ageBands (s : State) : State :=
  { s with bands := s.bands.map (fun q =>
      let days := retainDays s q.2.bits
      if q.2.closed && days ≠ 0 && q.2.closedAt + days * 86400 < s.pos then (q.1, { q.2 with refresh := true }) else q) }

/-- PATROL_TIMER: once PATROL_H hours have passed since the last patrol, one codeword of each member block of every closed
band is read at BULK class. -/
def patrolTimer (s : State) : State :=
  let h := getF s .mape 0 F.MAPE_RETAIN_PATROL_H
  if h = 0 || s.now < s.patrolAt + h * 3600000000000 then s
  else
    let s1 := ageBands { s with patrolAt := s.now }
    (s1.bands.filter (fun q => q.2.closed)).foldl (fun s q =>
      (List.range q.2.size).foldl (fun s pos =>
        let pua := q.2.puaOf 0 pos 0
        if dieOut s (q.2.die pos) || (stagedAtPua s pua).isSome then s
        else startClimb s pua 0 0 0 (.patrol q.1)) s) s1

def execRelocation (d : Nat) (s : State) : Res := done (relocation d s)
def execPatrolTimer (s : State) : Res := done (patrolTimer s)

end Sys2Proof.Machine
end

