-- ==== Sys2Proof/Machine/TenantOps.lean ====
section
/-! DEFINITION. Tenants, namespaces and die sets: parameter blocks, pools, quiesce, reset, removal
(05_tenant_functions.md R204–R229; 06_zones_and_placement.md R264–R271; 07_translation_and_wear.md R296–R298, R309). -/

namespace Sys2Proof.Machine

/-! ### What is held (R204, R205, R296–R298) -/

/-- Tenants that are not FREE. -/
def usedTenants (s : State) : List (Nat × Tenant) := s.tenants.filter (fun q => q.2.state ≠ .free)

/-- Sum of a reservation over the tenants other than `t`. -/
def reserved (s : State) (t : Nat) (f : TParams → Nat) : Nat :=
  (((usedTenants s).filter (fun q => q.1 ≠ t)).map (fun q => f q.2.par)).sum

/-- Map of a namespace in MiB (R296). -/
def nsMapMib (n : Ns) : Nat := ceilDiv (if n.zoned then n.capacity / 4 else n.capacity) segEntries

/-- Log of a migration in MiB (R504). -/
def logMib (s : State) (t mask : Nat) : Nat :=
  ((s.nss.filter (fun q => q.2.tenant = t && mask / 2 ^ (q.2.nsid - 1) % 2 = 1)).map (fun q =>
    ceilDiv (q.2.capacity / 4) (8 * 2 ^ 20))).sum + 1

/-- Namespaces of a tenant. -/
def tenantNs (s : State) (t : Nat) : List (Nat × Ns) := s.nss.filter (fun q => q.2.tenant = t)

/-- Map DRAM a tenant's namespaces and migration log take. -/
def mapHeld (s : State) (t : Nat) : Nat :=
  ((tenantNs s t).map (fun q => nsMapMib q.2)).sum + (if (migOf s t).logs then logMib s t (migOf s t).mask else 0)

/-- Sum of the capacity of the conventional namespaces. -/
def convHeld (s : State) : Nat := ((s.nss.filter (fun q => !q.2.zoned)).map (fun q => q.2.capacity)).sum

/-! ### Front of a management command (R206, R207) -/

/-- No dword's fields are refused. -/
def noField : Nat → State → Bool := fun _ _ => false

/-- The lowest-numbered command dword, from 10 on, with a reserved bit set or with fields that `bad` refuses (R207). -/
def firstBad (q : Capsule) (masks : List Nat) (bad : Nat → State → Bool) (s : State) : Option Nat :=
  [10, 11, 12, 13, 14, 15].find? (fun n => badDword q (masks.mapIdx (fun i m => if i + 10 = n then m else 0xFFFFFFFF)) = some n || bad n s)

/-- An MF vendor command whose refusals follow R207: its dwords are checked in ascending order, reserved bits and fields. -/
def vendor (q : Capsule) (masks : List Nat) (bad : Nat → State → Bool) (run : State → Verdict) (s : State) : State :=
  admin q (mfOnly []) (fun _ s => match firstBad q masks bad s with
    | some n => no207 (dwordRef n)
    | none => run s) s

/-- A tenant, namespace, die-set or migration command: MF refuses it in SERVICE (R613). -/
def manage (q : Capsule) (masks : List Nat) (bad : Nat → State → Bool) (run : State → Verdict) (s : State) : State :=
  if s.mode = .service then admin q (mfOnly []) (fun _ s => .yes (postSt s q.conn q.cid stSequenceError)) s
  else vendor q masks bad run s

/-- Bits of dword 10 that name a tenant. -/
def tenantMask : Nat := 0x1FF

/-- Tenant number of a command. -/
def cmdTenant (q : Capsule) : Nat := bitsOf q.dw10 8 0

/-- A command on a tenant that is not FREE; `bad` refuses fields of dwords 11 to 15. -/
def onTenant (q : Capsule) (masks : List Nat) (bad : Nat → Nat → State → Bool) (run : Nat → State → Verdict) (s : State) : State :=
  let t := cmdTenant q
  manage q masks (fun n s => (n = 10 && (tenant s t).state = .free) || bad t n s) (run t) s

/-- No dword's fields are refused. -/
def noFieldT : Nat → Nat → State → Bool := fun _ _ _ => false

/-- One error reported to TFn by an MF command (R213, R226). -/
def tfError (s : State) (t cause cid : Nat) : State :=
  report s .tf t 1 0 cause cid (pageBase .tf t + 0x010) 0

/-! ### The tenant parameter block (R211, R212, R214) -/

/-- Host entries of the allow-list. -/
def allowEntry (b : Block) (i : Nat) : Nat := blkField b (0x100 + 256 * i) 256

/-- An entry is an NQN of at most 223 bytes, ended by a zero byte and zero-filled. -/
def allowBad (b : Block) (i : Nat) : Bool :=
  let l := (List.range 256).map (fun j => (mgetD b (0x100 + 256 * i + j) 0).toNat)
  let n := l.findIdx (· = 0)
  decide (223 < n) || (l.drop n).any (· ≠ 0)

/-- The eight entries of the allow-list, 0 where one is unused. -/
def allowList (b : Block) : List Nat := (List.range 8).map (allowEntry b)

/-- The parameters of a block. -/
def tenantPar (b : Block) : TParams :=
  { flags := blkField b 0 1, maxClass := blkField b 1 1, ioqGrant := blkField b 2 2, maxNs := blkField b 4 2,
    ifMask := blkField b 8 8, openZones := blkField b 0x10 2, activeZones := blkField b 0x12 2, mapMib := blkField b 0x14 4,
    credits := blkField b 0x18 4, rateMbps := blkField b 0x1C 4, iopsK := blkField b 0x20 4, allow := allowList b }

/-- The first offending field of a tenant parameter block for tenant `t`, by offset. `held` asks for the counts of R214. -/
def tenantBlockBad (s : State) (t : Nat) (b : Block) (held : Bool) : Option Nat :=
  let p := tenantPar b
  let al := (allowList b).filter (· ≠ 0)
  let bad : List (Nat × Bool) := [
    (0x000, 8 ≤ p.flags),
    (0x001, 2 < p.maxClass),
    (0x002, p.ioqGrant < 1 || 128 < p.ioqGrant || 16384 < reserved s t (·.ioqGrant + 1) + p.ioqGrant + 1 + poolDisc s),
    (0x004, p.maxNs < 1 || 16 < p.maxNs || (held && p.maxNs < (tenantNs s t).length)),
    (0x006, (blkNonzero b 0x006 0x008).isSome),
    (0x010, 8192 < p.openZones || 8192 < reserved s t (·.openZones) + p.openZones || (held && p.openZones < openUsed s t)),
    (0x012, p.activeZones < p.openZones || 16384 < p.activeZones || 16384 < reserved s t (·.activeZones) + p.activeZones ||
      (held && p.activeZones < activeUsed s t)),
    (0x014, getF s .mape 0 F.MAPE_POOL_FWD_MIB < reserved s t (·.mapMib) + p.mapMib || (held && p.mapMib < mapHeld s t)),
    (0x018, p.credits < 32 || 32768 < p.credits || 32768 < reserved s t (·.credits) + p.credits),
    (0x024, (blkNonzero b 0x024 0x100).isSome),
    (0x100, (List.range 8).any (fun i => allowEntry b i ≠ 0 && allowBad b i) || al.eraseDups.length < al.length),
    (0x900, (blkNonzero b 0x900 0x1000).isSome)]
  (bad.find? (·.2)).map Prod.fst

/-- TENANT_CREATE. -/
def tenantCreate (q : Capsule) (b : Block) (s : State) : State :=
  let t := cmdTenant q
  manage q [tenantMask, 0, 0, 0, 0, 0] (fun n s => n = 10 && (tenant s t).state ≠ .free) (fun s =>
    if q.len < 4096 then no stSglLength
    else match tenantBlockBad s t b false with
      | some o => no207 o
      | none =>
        let s1 := trecClear (setTenant s t { state := .active, par := tenantPar b, ver := 1 }) t
        .yes (postSt (setF s1 .tf t F.TF_CTRL_QUIESCE 0) q.conn q.cid stOk)) s

/-- A change of R213 that needs the quiesce. -/
def needsQuiesce (o n : TParams) : Bool :=
  n.ioqGrant < o.ioqGrant || n.maxNs < o.maxNs || n.openZones < o.openZones || n.activeZones < o.activeZones ||
  n.mapMib < o.mapMib || n.credits < o.credits || o.ifMask - (o.ifMask &&& n.ifMask) ≠ 0 ||
  (o.allow.zip n.allow).any (fun p => p.1 ≠ 0 && p.1 ≠ p.2) || n.flags % 4 ≠ o.flags % 4 || n.maxClass ≠ o.maxClass

/-- TENANT_MODIFY. -/
def tenantModify (q : Capsule) (b : Block) (s : State) : State :=
  onTenant q [tenantMask, 0, 0, 0, 0, 0] noFieldT (fun t s =>
    if q.len < 4096 then no stSglLength
    else match tenantBlockBad s t b true with
      | some o => no207 o
      | none =>
        if needsQuiesce (tenant s t).par (tenantPar b) && !(tenant s t).quiesced then
          .yes (postSt (tfError s t 3 q.cid) q.conn q.cid stSequenceError)
        else
          let s1 := modTenant (rebaseTenant s t) t (fun x => { x with par := tenantPar b, ver := (x.ver + 1) % 2 ^ 32 })
          let s2 := if meterEn (tenant s1 t) && !meterEn (tenant s t) then
              modAcc s1 t (fun a => { ({} : MtrAcc) with timeSet := a.timeSet }) else s1
          .yes (pump (postSt s2 q.conn q.cid stOk))) s

/-! ### Quiesce (R220–R225) -/

/-- Commands of a tenant that are admitted and not completed. -/
def tenantCmds (s : State) (t : Nat) : List Nat :=
  (s.cmds.filter (fun q => q.2.fn = t && q.2.phase ≠ .waiting)).map Prod.fst

/-- Admin commands of a tenant that complete later. -/
def tenantWaits (s : State) (t : Nat) : Bool :=
  s.adminWaits.any (fun w => match connOf s w.1 with
    | some c => c.fn = some t
    | none => false)

/-- A write of 1 to TFn.CTRL.QUIESCE. -/
def quiesceBegin (s : State) (t : Nat) : State :=
  let s1 := setF s .tf t F.TF_CTRL_QUIESCE 1
  if (tenant s t).state = .active then
    pump (modTenant s1 t (fun x => { x with state := .quiescing, quiesced := false, drain := tenantCmds s t }))
  else s1

/-- The quiesce ends and admission resumes. -/
def quiesceOver (s : State) (t : Nat) : State :=
  pump (modTenant (setF s .tf t F.TF_CTRL_QUIESCE 0) t (fun x =>
    { x with state := .active, quiesced := false, drain := [], endHeld := false }))

/-- A write of 0 to TFn.CTRL.QUIESCE: held while a TENANT_RESET runs, without effect while a TENANT_REMOVE runs. -/
def quiesceEnd (s : State) (t : Nat) : State :=
  match (tenant s t).state with
  | .resetting => modTenant s t (fun x => { x with endHeld := true })
  | .removing => s
  | .quiescing => quiesceOver s t
  | .quiesced => quiesceOver s t
  | _ => setF s .tf t F.TF_CTRL_QUIESCE 0

/-- QUIESCE_COMPLETE: the last command admitted before the quiesce has completed. -/
def quiesceComplete (t : Nat) (s : State) : State :=
  let x := tenant s t
  if x.state = .quiescing && cmdsGone s x.drain && !tenantWaits s t then
    raise (modTenant s t (fun x => { x with state := .quiesced, quiesced := true, drain := [] })) .tf t F.TF_INT_RAW_QUIESCED
  else s

/-! ### Release (R219, R228, R269) -/

/-- The acknowledged units of a tenant that is removed are still programmed: no removal discards them. They belong to no
namespace from here on, and no map entry points to them (R222). -/
def orphanUnits (s : State) (k : Nat) : State :=
  let us := (s.staged.filter (fun q => q.2.nsk = k && !q.2.reloc && q.2.secs.any (fun p => p.2.acked))).map Prod.fst
  forceUnits { s with staged := s.staged.map (fun q => if us.contains q.1 then (q.1, { q.2 with nsk := 1024, stale := true }) else q) } us

/-- A namespace is released: its map, zones, checkpoints and staged units go; its blocks hold nothing live any more. -/
def releaseNs (s : State) (k : Nat) : State :=
  let s1 := discardUnits s (fun u => u.nsk = k)
  { s1 with nss := mdel s1.nss k, ckpts := mdelRange s1.ckpts (k * 131072) 131072,
            jr := { s1.jr with acts := s1.jr.acts.filter (fun a => match a.2 with
              | .zoneReset n _ => n ≠ k
              | .zoneFinish n _ => n ≠ k
              | .zoneOffline n _ => n ≠ k
              | .zoneReadOnly n _ => n ≠ k
              | .poison n _ _ _ _ _ => n ≠ k) } }

/-- Connections of a function. -/
def connsOf (s : State) (f : Nat) : List Nat := (s.conns.filter (fun q => q.2.fn = some f)).map Prod.fst

/-! ### Reset and removal (R226–R229, R681) -/

/-- Why TENANT_RESET or TENANT_REMOVE is turned away, if it is: a migration is check 7 of R161 (R210), a tenant that is not
quiesced a state (R226). -/
def stopGate (q : Capsule) (cause : Nat) (run : Nat → State → State) (s : State) : State :=
  onTenant q [tenantMask, 0, 0, 0, 0, 0] noFieldT (fun t s =>
    if !((tenant s t).quiesced && (tenant s t).state = .quiesced) then
      .yes (post (tfError s t cause q.cid) q.conn q.cid stNotQuiesced t 0 [])
    else if (migOf s t).logs then no stMigrationActive
    else .yes (run t s)) s

/-- TENANT_RESET: every connection of the tenant ends. Where its host has cleared CC.EN, the steps of R185, which have no
command to wait for in a quiesced tenant, end first (R685). -/
def tenantReset (q : Capsule) (s : State) : State :=
  stopGate q 1 (fun t s0 =>
    let s := if (ctrl s0 t).resetting then ctrlReset s0 t false false else s0
    modTenant (connsLost s (connsOf s t)) t (fun x => { x with state := .resetting, cmd := some (q.conn, q.cid) })) s

/-- TENANT_RESET_DONE: the reset of kind TENANT has taken effect; a QUIESCE write of 0 that was held takes effect. -/
def tenantResetDone (t : Nat) (s : State) : State :=
  let x := tenant s t
  if x.state = .resetting then
    let s1 := setCtrl s t { critWarn := (ctrl s t).critWarn }
    let s2 := modTenant (bump s1 .tf t F.TF_RESETS_TENANT) t (fun x => { x with state := .quiesced, cmd := none, resets := x.resets + 1 })
    let s3 := (match x.cmd with
      | some (c, i) => postSt s2 c i stOk
      | none => s2)
    if x.endHeld then quiesceOver s3 t else s3
  else s

/-- Step 2 of R228: the key slots, the enrollment and the credentials of the tenant are destroyed. -/
def endKeys (s : State) (t : Nat) : State :=
  modTenant (recDel (recDel ((tenantNs s t).foldl (fun s q => destroySlot s q.1) s) (enrollRec t)) (credRec t)) t
    (fun x => { x with enroll := none, psk := [], secrets := [], removeStep := 2 })

/-- TENANT_REMOVE: steps 1 and 2, every connection ends and every key is destroyed. -/
def tenantRemove (q : Capsule) (s : State) : State :=
  stopGate q 2 (fun t s =>
    endKeys (modTenant (connsLost s (connsOf s t)) t (fun x =>
      { x with state := .removing, removeStep := 1, cmd := some (q.conn, q.cid) })) t) s

/-- Steps 3 and 4 of R228. -/
def removeRest (s : State) (t : Nat) : State :=
  let s1 := if (metered s).contains t && s.meter.void ≠ some s.meter.minute then closeRec s t s.meter.minute true true else s
  let s2 := (tenantNs s1 t).foldl (fun s q => releaseNs (orphanUnits s q.1) q.1) s1
  let s3 := { s2 with
    diesets := s2.diesets.map (fun q => if q.2.owner = t then (q.1, { q.2 with owner := 0xFFFF }) else q),
    trecs := mdel s2.trecs t, migs := mdel s2.migs t, secs := mdelRange s2.secs (t * 2) 2,
    byteBkts := mdel s2.byteBkts t, cmdBkts := mdel s2.cmdBkts t,
    meter := { s2.meter with accs := mdel s2.meter.accs t } }
  wr (wr (wr (setF (setCtrl (setTenant s3 t {}) t {}) .tf t F.TF_CTRL_QUIESCE 0) .tf t 0x110 0) .tf t 0x114 0) .tf t 0x118 0

/-- TENANT_REMOVE_DONE. -/
def tenantRemoveDone (t : Nat) (s : State) : State :=
  let x := tenant s t
  if x.state = .removing && x.removeStep = 2 then
    match x.cmd with
    | some (c, i) => pump (postSt (removeRest s t) c i stOk)
    | none => pump (removeRest s t)
  else s

/-! ### Namespaces (R216–R219, R265) -/

/-- The lowest free namespace key slot (R218). -/
def freeNsSlot (s : State) : Option Nat := (List.range 1024).find? (fun k => (nsAt s k).isNone)

/-- The first offending field of a namespace parameter block. -/
def nsBlockBad (s : State) (t : Nat) (b : Block) : Option Nat :=
  let p := (tenant s t).par
  let zoned := blkField b 4 1 = 1
  let n : Ns := { tenant := t, nsid := blkField b 0 4, zoned := zoned, zsize := blkField b 5 1, parity := blkField b 6 1,
                  cls := blkField b 7 1, dieSet := blkField b 8 2, capacity := blkField b 0x10 8 }
  let ds := dsAt s n.dieSet
  let bad : List (Nat × Bool) := [
    (0x00, n.nsid < 1 || 16 < n.nsid || (nsSlot s t n.nsid).isSome || p.maxNs < (tenantNs s t).length + 1 ||
      (freeNsSlot s).isNone),
    (0x04, 1 < blkField b 4 1 || (zoned && p.openZones = 0)),
    (0x05, if zoned then 2 < n.zsize else n.zsize ≠ 0),
    (0x06, 3 < n.parity || ds.any (fun d => d.parity ≠ n.parity)),
    (0x07, 2 < n.cls || p.maxClass < n.cls || (n.cls = 2 && ds.any (fun d => d.owner ≠ t))),
    (0x08, ds.isNone || ds.any (fun d => d.owner ≠ 0xFFFF && d.owner ≠ t)),
    (0x0A, (blkNonzero b 0x0A 0x10).isSome),
    (0x10, n.capacity = 0 || (zoned && n.capacity % zoneSize n ≠ 0) || p.mapMib < mapHeld s t + nsMapMib n ||
      (!zoned && 15625000000 < convHeld s + n.capacity) ||
      ds.any (fun d => dsLogical s d < dsAllotted s n.dieSet + n.capacity)),
    (0x18, (blkNonzero b 0x18 0x100).isSome)]
  (bad.find? (·.2)).map Prod.fst

/-- NS_CREATE. Records staged before it do not concern the new namespace, whatever its key slot held before (log 14). -/
def nsCreate (q : Capsule) (b : Block) (s : State) : State :=
  onTenant q [tenantMask, 0, 0, 0, 0, 0] noFieldT (fun t s =>
    if q.len < 256 then no stSglLength
    else match nsBlockBad s t b, freeNsSlot s with
      | some o, _ => no207 o
      | none, some k =>
        let n : Ns := { tenant := t, nsid := blkField b 0 4, zoned := blkField b 4 1 = 1, zsize := blkField b 5 1,
                        parity := blkField b 6 1, cls := blkField b 7 1, dieSet := blkField b 8 2,
                        capacity := blkField b 0x10 8, eraseCut := jCount s }
        .yes (postSt { s with nss := mset s.nss k n } q.conn q.cid stOk)
      | none, none => no207 0) s

/-- The namespace of an NS_DELETE may go: it exists, and no command of it is in the part. -/
def nsDeletable (q : Capsule) (t : Nat) (s : State) : Bool :=
  match nsSlot s t (bitsOf q.dw11 4 0) with
  | some k => (nsCmds s k).isEmpty && !s.adminWaits.any (fun w => w.2.2 = .format k)
  | none => false

/-- NS_DELETE. -/
def nsDelete (q : Capsule) (s : State) : State :=
  onTenant q [tenantMask, 0x1F, 0, 0, 0, 0] (fun t n s => n = 11 && !nsDeletable q t s) (fun t s =>
    if (migOf s t).logs then no stMigrationActive
    else match nsSlot s t (bitsOf q.dw11 4 0) with
      | some k => .yes (pump (postSt (releaseNs (destroySlot s k) k) q.conn q.cid stOk))
      | none => no207 (dwordRef 11)) s

/-! ### Configuration and credentials (R209, R215, R473, R474) -/

/-- Register words that CONFIG_SAVE commits beside the interface table. -/
def savedWords : List (PageKind × Nat × Nat) :=
  (.tte, 0, F.TTE_L4_PORTS_IO_PORT.off) :: (.tte, 0, F.TTE_CC_CTRL_DEC_GAP.off) ::
  ((List.range 2).map (fun p => [(PageKind.eth, p, F.ETH_PORT_CTRL_ENABLE.off), (.eth, p, F.ETH_PFC_CTRL_QUANTA.off),
    (.eth, p, F.ETH_PFC_THR_XON_KIB.off), (.eth, p, F.ETH_MAC_LO_ADDR_LO.off), (.eth, p, F.ETH_MAC_HI_ADDR_HI.off)])).flatten

/-- CONFIG_SAVE. -/
def configSave (q : Capsule) (s : State) : State :=
  vendor q [0, 0, 0, 0, 0, 0] noField (fun s =>
    .yes (postSt { s with
      savedIfs := s.ifs,
      savedRegs := savedWords.foldl (fun m w => mset m (pageBase w.1 w.2.1 + w.2.2) (BitVec.ofNat 32 (rd s w.1 w.2.1 w.2.2))) s.savedRegs }
      q.conn q.cid stOk)) s

/-! The credential blob of 368 bytes (R473). -/

def credKind (b : List Nat) : Nat := pkgField b 0 1
def credHash (b : List Nat) : Nat := pkgField b 1 1
def credTenant (b : List Nat) : Nat := pkgField b 2 2
def credIdLen (b : List Nat) : Nat := pkgField b 4 2
def credSecretLen (b : List Nat) : Nat := pkgField b 6 2
def credIv (b : List Nat) : List Nat := pkgBytes b 8 12
def credIdent (b : List Nat) : Nat := pkgField b 0x20 256

/-- A blob's fields are in range: the reserved bytes and what follows IDENT are 0. -/
def credOk (b : List Nat) : Bool :=
  (credKind b = 1 || credKind b = 2) && 1 ≤ credHash b && credHash b ≤ 3 && (credHash b ≠ 3 || credKind b = 2) &&
  1 ≤ credIdLen b && credIdLen b ≤ 223 &&
  (credSecretLen b = 0 || credSecretLen b = 32 || credSecretLen b = 48 || credSecretLen b = 64) && allZero (pkgBytes b 0x14 12) &&
  allZero (pkgBytes b (0x20 + credIdLen b) (256 - credIdLen b))

/-- The secret of a blob that verifies under K_WRAP, as its 64 bytes. -/
def credOpen (key b : List Nat) : Option (List Nat) :=
  if pkgBytes b 0x160 16 = gcmTag key (credIv b) (pkgBytes b 0 0x120) (pkgBytes b 0x120 64)
  then some (gcmCrypt key (credIv b) (pkgBytes b 0x120 64)) else none

/-- A list of up to 8 installed credentials takes, replaces or loses one. -/
def putCred (m : FMap Nat) (b secret : List Nat) : Option (FMap Nat) :=
  if credSecretLen b = 0 then some (mdel m (credIdent b))
  else if (mget m (credIdent b)).isNone && 8 ≤ m.length then none
  else some (mset m (credIdent b) (credHash b + 4 * ofLe (secret.take (credSecretLen b))))

/-- TENANT_CRED with the bytes of the blob. -/
def tenantCred (q : Capsule) (data : List Nat) (s : State) : State :=
  onTenant q [tenantMask, 0, 0, 0, 0, 0] noFieldT (fun t s =>
    if q.len < 368 then no stSglLength
    else
      let b := fitBytes 368 data
      let x := tenant s t
      let m := if credKind b = 1 then x.psk else x.secrets
      match (x.enroll.bind (fun e => credOpen (kWrap t e) b)).bind (fun sec =>
          if credTenant b = t && credOk b then putCred m b sec else none) with
      | some m' =>
        let y := if credKind b = 1 then { x with psk := m' } else { x with secrets := m' }
        .yes (postSt (setTenant (recPut s (credRec t) (.creds y.psk y.secrets)) t y) q.conn q.cid stOk)
      | none => .no stInvalidField 0 (fun s =>
          raise (blockError (bump s .sor 0 F.SOR_KA_FAIL_CRED) .sor 0 2 q.cid t 0) .sor 0 F.SOR_INT_RAW_CRED_FAIL)) s

/-! ### Die sets (R266–R271, R309) -/

/-- Flash dies present. -/
def presentDies (s : State) : List Nat := (s.dies.filter (fun q => q.2.st ≠ .absent)).map Prod.fst

/-- A flash die is free and healthy: present, in service, in no die set. -/
def dieFree (s : State) (d : Nat) : Bool :=
  (dieAt s d).st ≠ .absent && !dieOut s d && !(s.diesets.any (fun q => q.2.members.contains d))

/-- The order in which lanes are visited (R268). -/
def laneVisit : List Nat := ((List.range 16).map (fun k => (List.range 4).map (fun t => 16 * t + k))).flatten

/-- One pass over the lanes: the lowest free die of each, up to `n`. -/
def memberPass (free : List Nat) (lanes : List Nat) : List Nat :=
  lanes.filterMap (fun l => (free.filter (fun d => d / 32 = l)).head?)

/-- Members in the order of taking. -/
def chooseMembers (free lanes : List Nat) (n : Nat) : Nat → List Nat
  | 0 => []
  | f + 1 =>
    let p := (memberPass free lanes).take n
    if p.isEmpty then [] else p ++ chooseMembers (free.filter (fun d => !p.contains d)) lanes (n - p.length) f

/-- Lanes a LANE_MASK allows. -/
def maskLanes (mask : Nat) : List Nat := laneVisit.filter (fun l => mask = 0 || mask / 2 ^ l % 2 = 1)

/-- Good blocks of a flash die: those of blocks 0 to 8,190 neither bad nor retired. -/
def goodBlocks (s : State) (d : Nat) : List Nat :=
  (List.range (blocksOf s d)).filter (fun b => !(blkOf s d b).bad && (blkOf s d b).state ≠ .retired)

/-- Take the 16 SLC system blocks of a member (R308). -/
def takeSystem (s : State) (d : Nat) : State :=
  (List.range 16).foldl (fun s _ => match leastWorn s d with
    | some b => sysBlock s d b
    | none => s) s

/-- The first offending field of a die-set parameter block, with the members chosen. -/
def dsBlockBad (s : State) (b : Block) (members : List Nat) : Option Nat :=
  let owner := blkField b 2 2
  let count := blkField b 4 1
  let streams := blkField b 6 1
  let bad : List (Nat × Bool) := [
    (0x00, blkField b 0 1 < 1 || 2 < blkField b 0 1),
    (0x01, 3 < blkField b 1 1),
    (0x02, owner ≠ 0xFFFF && (511 < owner || (tenant s owner).state = .free)),
    (0x04, count < 8 || 64 < count || members.length < count),
    (0x05, blkField b 5 1 < 7 || 50 < blkField b 5 1),
    (0x06, streams < 1 || 28 < streams),
    (0x07, 1 < blkField b 7 1),
    (0x10, (blkNonzero b 0x10 0x20).isSome),
    (0x20, blkField b 7 1 % 2 = 0 && (List.range 192).any (fun i => streams ≤ (mgetD b (0x20 + i) 0).toNat)),
    (0xE0, (blkNonzero b 0xE0 0x100).isSome)]
  (bad.find? (·.2)).map Prod.fst

/-- DIESET_CREATE. -/
def diesetCreate (q : Capsule) (b : Block) (s : State) : State :=
  let d := bitsOf q.dw10 6 0
  manage q [0x7F, 0, 0, 0, 0, 0] (fun n s => n = 10 && (dsAt s d).isSome) (fun s =>
    if q.len < 256 then no stSglLength
    else
      let count := blkField b 4 1
      let ms := chooseMembers ((presentDies s).filter (dieFree s)) (maskLanes (blkField b 8 8)) count count
      match dsBlockBad s b ms with
      | some o => no207 o
      | none =>
        let res := getF s .mape 0 F.MAPE_SPARE_CTRL_SPARE_RES
        let bb := minOf (ms.map (fun m => (goodBlocks s m).length - 16 - res))
        let pool := ms.map (fun m => (goodBlocks s m).length - 16 - bb)
        let x : DieSet := {
          mode := blkField b 0 1, parity := blkField b 1 1, owner := blkField b 2 2, opPct := blkField b 5 1,
          streams := blkField b 6 1, flags := blkField b 7 1, laneMask := blkField b 8 8,
          streamMap := (List.range 192).map (fun i => (mgetD b (0x20 + i) 0).toNat), members := ms, bandBlocks := bb,
          initSpare := pool, spare := pool }
        let s1 := ms.foldl takeSystem s
        .yes (postSt { s1 with diesets := mset s.diesets d { x with freeWas := freeBands s1 x } } q.conn q.cid stOk)) s

/-- The blocks of a deleted die set return to the free blocks; those that were programmed are queued for erase. -/
def freeMember (s : State) (d : Nat) : State :=
  { s with blks := s.blks.map (fun q =>
      if q.1 / 8192 = d then
        (q.1, match q.2.state with
          | .system => { q.2 with state := .queued, dirty := true, fill := 0 }
          | .open => { q.2 with state := .queued, dirty := true }
          | .closed => { q.2 with state := .queued, dirty := true }
          | _ => q.2)
      else q) }

/-- DIESET_DELETE. Checkpoint copies that lie on its members are written anew elsewhere before. -/
def diesetDelete (q : Capsule) (s : State) : State :=
  let d := bitsOf q.dw10 6 0
  manage q [0x7F, 0, 0, 0, 0, 0] (fun n s => n = 10 && ((dsAt s d).isNone || s.nss.any (fun n => n.2.dieSet = d))) (fun s =>
    let hs := (s.bands.filter (fun b => b.2.dieSet = d)).map Prod.fst
    let ms := (dsAt s d).elim [] (·.members)
    let s1 := hs.foldl (fun s h => releaseBand s h) (discardUnits s (fun u => u.dieSet = d))
    .yes (postSt (rehome { (ms.foldl freeMember s1) with diesets := mdel s1.diesets d } ms) q.conn q.cid stOk)) s

/-- A bitmap of die indexes as 256 bytes. -/
def dieBitmap (p : Nat → Bool) : List Nat :=
  (List.range 256).map (fun i => ((List.range 8).map (fun j => if p (8 * i + j) then 2 ^ j else 0)).sum)

/-- DIESET_INFO with dword 10 [7] set: the population report. -/
def diesetPopulation (q : Capsule) (s : State) : State :=
  manage q [0xFF, 0, 0, 0, 0, 0] noField (fun s =>
    if q.len < 4096 then no stSglLength
    else
      let pres := presentDies s
      let used := (s.diesets.map (fun x => x.2.members)).flatten
      .yes (postOk s q.conn q.cid 0 (dieBitmap (fun d => pres.contains d && !dieOut s d) ++ dieBitmap (used.contains ·) ++
        dieBitmap (fun d => pres.contains d && dieOut s d) ++ List.replicate 3328 0))) s

/-- The default stream map (R279). -/
def mapInForce (x : DieSet) : List Nat :=
  if x.flags % 2 = 1 then (List.range 192).map (fun i => (i / 64 * 4 + i / 16 % 4) % max 1 x.streams) else x.streamMap

/-- The report of one die set (R271). -/
def diesetReport (s : State) (d : Nat) (x : DieSet) : List Nat :=
  zeroOverlay 4096 ([
    (0, 1, x.mode), (1, 1, x.parity), (2, 2, x.owner), (4, 1, x.members.length), (5, 1, x.opPct), (6, 1, x.streams),
    (7, 1, x.flags), (8, 8, x.laneMask), (16, 4, x.bandBlocks), (20, 2, (activeMembers s x).length),
    (22, 2, (s.bands.filter (fun b => b.2.dieSet = d && !b.2.closed)).length), (24, 8, dsLogical s x), (32, 8, dsAllotted s d)]
    ++ (List.range 64).map (fun m => (64 + 2 * m, 2, match x.members[m]? with
      | some i => i + (dieOut s i).toNat * 32768
      | none => 0xFFFF))
    ++ ((List.range 192).zip (mapInForce x)).map (fun p => (192 + p.1, 1, p.2)))

/-- DIESET_INFO of one die set; with dword 10 [7] set it is the population report. -/
def diesetInfo (q : Capsule) (s : State) : State :=
  let d := bitsOf q.dw10 6 0
  if bitsOf q.dw10 7 7 = 1 then diesetPopulation q s
  else manage q [0xFF, 0, 0, 0, 0, 0] (fun n s => n = 10 && (dsAt s d).isNone) (fun s =>
    match dsAt s d with
    | some x => if q.len < 4096 then no stSglLength else .yes (postOk s q.conn q.cid 0 (diesetReport s d x))
    | none => no207 (dwordRef 10)) s

end Sys2Proof.Machine
end

