-- ==== Sys2Proof/Machine/LaneOps.lean ====
section
/-! DEFINITION. Cirrus queues and the lanes: which operation a flash die is sent, what becomes of an operation that
arrives, suspensions and resumes (11_cirrus_latency.md R436–R447; 09_flash_lanes_thyme.md R380–R387). -/

namespace Sys2Proof.Machine

/-! ### Times and settings of a tile -/

/-- Maximum times of a flash die's tile in ns (R398). -/
def tRead (s : State) (d : Nat) : Nat := getF s .til (tileOfDie d) F.TIL_TIMING0_TR_US * 1000
def tProg (s : State) (d : Nat) : Nat := getF s .til (tileOfDie d) F.TIL_TIMING0_TPROG_US * 1000
def tErase (s : State) (d : Nat) : Nat := getF s .til (tileOfDie d) F.TIL_TIMING1_TBERS_US * 1000
def tSusp (s : State) (d : Nat) : Nat := getF s .til (tileOfDie d) F.TIL_TIMING1_TSUSP_US * 1000
def tRes (s : State) (d : Nat) : Nat := getF s .til (tileOfDie d) F.TIL_TIMING2_TRES_US * 1000
def tSlc (s : State) (d : Nat) : Nat := getF s .til (tileOfDie d) F.TIL_TIMING2_TPROG_SLC_US * 1000

/-- Shortest run before a suspension (R384). -/
def runMin (s : State) (d : Nat) : Nat := getF s .til (tileOfDie d) F.TIL_SUSP_CTRL_RUN_MIN_US * 1000

/-- Most suspensions of an operation (R384). -/
def suspMax (s : State) (d : Nat) : FlashKind → Nat
  | .erase => getF s .til (tileOfDie d) F.TIL_SUSP_CTRL_ERASE_MAX
  | .read => 0
  | _ => getF s .til (tileOfDie d) F.TIL_SUSP_CTRL_PROG_MAX

/-- Longest suspension of an operation (R386, R398). -/
def suspHold (s : State) (d : Nat) : FlashKind → Nat
  | .erase => max 1 (getF s .til (tileOfDie d) F.TIL_SUSP_CTRL_ERASE_HOLD_MS) * 1000000
  | _ => max 1 (getF s .til (tileOfDie d) F.TIL_SUSP_CTRL_PROG_HOLD) * 100000

/-- Read of a flash operation. -/
def FlashOp.isRead (o : FlashOp) : Bool := o.kind = .read

/-- Lane of a flash die. -/
def laneOfDie (d : Nat) : Nat := d / 32

/-! ### What Cirrus may send (R438–R446) -/

/-- A strict flash die: a member of a dedicated die set with a STRICT namespace (R433). -/
def strictDie (s : State) (d : Nat) : Bool :=
  match dsOfDie s d with
  | some q => q.2.owner ≠ 0xFFFF && s.nss.any (fun n => n.2.dieSet = q.1 && n.2.cls = 2)
  | none => false

/-- An erase runs or is suspended on the flash die. -/
def DieSt.inErase : DieSt → Bool
  | .erase => true
  | .es => true
  | .esRead => true
  | .esProg => true
  | _ => false

/-- The block an erase under way names. -/
def erasedBlk (x : Die) : Option Nat :=
  match x.sus, x.cur with
  | some o, _ => if o.kind = .erase then some (puaBlk o.pua) else none
  | none, some o => if o.kind = .erase then some (puaBlk o.pua) else none
  | none, none => none

/-- The acknowledged data aimed at a flash die has reached its limit (R348, R443). -/
def ackedFull (s : State) (d : Nat) : Bool :=
  decide (128 * (match dsOfDie s d with
    | some q => modeBits q.2.mode
    | none => 4) ≤ aimedAt s d true)

/-- Reads that end gathering (R442, R444). -/
def gatherBatch (s : State) : Nat := max 1 (getF s .qeng 0 F.QENG_BG_CTRL_BATCH)

/-- Fields of BG_CTRL as an operation entered its queue (R454): BG_WIN_MS, URG_WR_PCT, HELD_WIN, BATCH. -/
def FlashOp.win (o : FlashOp) : Nat := max 1 (bitsOf o.ctl 7 0) * 1000000
def FlashOp.urgPct (o : FlashOp) : Nat := min 100 (bitsOf o.ctl 15 8)
def FlashOp.heldWin (o : FlashOp) : Nat := max 1 (bitsOf o.ctl 19 16)
def FlashOp.batch (o : FlashOp) : Nat := max 1 (bitsOf o.ctl 23 20)

/-- The condition of R444: λ × t_op ≤ MAX × BATCH. -/
def bgFits (s : State) (x : Die) (o : FlashOp) : Bool :=
  let t := if o.kind = .erase then tErase s o.die else tProg s o.die
  decide (x.lastReads * t ≤ suspMax s o.die o.kind * o.batch * o.win)

/-- A background operation is forced: it failed HELD_WIN windows in a row, or its die set is urgent (R445). -/
def bgForced (s : State) (o : FlashOp) : Bool :=
  decide (o.heldWin ≤ o.strikes) || (match dsOfDie s o.die with
    | some q => dsUrgent s q.2
    | none => false)

/-- Host programs have taken their share of the window while relocation programs wait (R446). -/
def hostShareUsed (s : State) (x : Die) (o : FlashOp) : Bool :=
  !o.bg && o.kind = .program && (match dsOfDie s o.die with
    | some q => dsUrgent s q.2
    | none => false) && x.queue.any (fun p => p.bg && p.kind = .program) &&
    decide (o.urgPct * (x.winProgs + 1) < (x.winHost + 1) * 100)

/-- A queued read may be sent: the lane would not refuse it, a diagnostic read apart (R439), and R441 and R442 let it go. -/
def readMay (s : State) (x : Die) (o : FlashOp) : Bool :=
  if o.owner ≠ .diag ∧ x.st.inErase ∧ erasedBlk x = some (puaBlk o.pua) then false
  else if o.susp then
    match x.st with
    | .prog => (match x.gatherAt with
      | some t => decide (t ≤ s.now)
      | none => true)
    | .erase => (match x.gatherAt with
      | some t => decide (t ≤ s.now)
      | none => true)
    | _ => true
  else x.st = .idle && x.descs.isEmpty

/-- A queued program or erase may be sent (R383, R385, R439, R443–R446). -/
def opMay (s : State) (x : Die) (o : FlashOp) : Bool :=
  s.plRun.isSome || (
  (match x.st with
    | .ps => false
    | .psRead => false
    | st => o.kind ≠ .erase || !(st = .es || st = .esRead || st = .esProg)) &&
  (o.kind = .erase || !x.st.inErase ||
    (x.st ≠ .erase && erasedBlk x ≠ some (puaBlk o.pua) && !strictDie s o.die && (decide (o.deadline < s.now) || ackedFull s o.die))) &&
  (!o.bg || bgFits s x o || bgForced s o) && !hostShareUsed s x o)

/-- Earlier deadline first, then the higher class; the queue keeps the order of entry (R438). -/
def before (a b : FlashOp) : Bool := a.deadline < b.deadline || (a.deadline = b.deadline && b.cls < a.cls)

/-- The best operation of a list. -/
def bestOp : List FlashOp → Option FlashOp
  | [] => none
  | o :: t => match bestOp t with
    | some b => if before b o then some b else some o
    | none => some o

/-- Remove the first occurrence of an operation. -/
def dropOp (l : List FlashOp) (o : FlashOp) : List FlashOp := l.erase o

/-- The descriptor of an operation as it is sent: forced background work runs at STANDARD (R445). -/
def sentForm (s : State) (x : Die) (o : FlashOp) : FlashOp :=
  if o.bg && !o.isRead && !bgFits s x o then { o with forced := true, cls := 1 } else o

/-- Cirrus sends one queued operation to the lane. -/
def sendOne (s : State) (d : Nat) (o : FlashOp) : State :=
  let x := dieAt s d
  let f := sentForm s x o
  let s1 := if f.forced then bump s .qeng 0 F.QENG_BG_HELD_FORCED else s
  let s2 := if !o.isRead && o.kind ≠ .erase && x.st.inErase then bump s1 .qeng 0 F.QENG_ES_PROG_COUNT else s1
  modDie s2 d (fun x => { x with
    queue := dropOp x.queue o, descs := x.descs ++ [f],
    winProgs := if o.kind = .program then x.winProgs + 1 else x.winProgs,
    winHost := if o.kind = .program && !o.bg then x.winHost + 1 else x.winHost })

/-- Count once each background operation that fails R444. -/
def countBgHeld (s : State) (d : Nat) : State :=
  (dieAt s d).queue.foldl (fun s o =>
    if o.bg && !o.isRead && !o.held && !bgFits s (dieAt s d) o then
      bump (modDie s d (fun x => { x with queue := x.queue.map (fun p => if p = o then { p with held := true } else p) }))
        .qeng 0 F.QENG_BG_HELD_HELD
    else s) s

/-- The tile's Nimbus link carries descriptors: during a retrain they wait in Cirrus (R34, R436). -/
def linkCarries (s : State) (d : Nat) : Bool := (mgetD s.nims (tileOfDie d) {}).state = .up

/-- Fill the free places of a flash die: the read place first (R438). -/
def fillPlaces (s0 : State) (d : Nat) : State :=
  let s := countBgHeld s0 d
  let x := dieAt s d
  if dieOut s d || !linkCarries s d then s
  else
    let s1 := if x.rdPlace.isNone && !(x.descs.any (·.isRead)) then
      (match bestOp (x.queue.filter (fun o => o.isRead && readMay s x o)) with
      | some o => sendOne s d o
      | none => s) else s
    let y := dieAt s1 d
    if y.opPlace.isNone && !(y.descs.any (fun o => !o.isRead)) then
      (match bestOp (y.queue.filter (fun o => !o.isRead && opMay s1 y o)) with
      | some o => sendOne s1 d o
      | none => s1)
    else s1

/-! ### Entering the queue (R436, R437, R440, R442) -/

/-- The next operation that waits to enter a flash die's queue. -/
def nextFeed (s : State) (d : Nat) : Option FlashOp := s.feeds.find? (·.die = d)

/-- A BULK read carries SUSPEND once less than tPROG + 1 ms remains (R440). -/
def bulkSusp (s : State) (o : FlashOp) : Bool := o.isRead && decide (o.deadline < s.now + tProg s o.die + 1000000)

/-- A read with SUSPEND counts in its window, and on a flash die in PROG or ERASE gathering starts or ends (R442, R444). -/
def gather (s : State) (d : Nat) : State :=
  let x := dieAt s d
  let waiting := (x.queue.filter (fun o => o.isRead && o.susp)).length
  modDie s d (fun x => { x with
    winReads := x.winReads + 1,
    gatherAt := if x.st = .prog || x.st = .erase then
        (if gatherBatch s ≤ waiting then some (min s.now (x.gatherAt.getD s.now))
         else some (x.gatherAt.getD (s.now + getF s .qeng 0 F.QENG_BG_CTRL_GATHER_US * 1000)))
      else x.gatherAt })

/-- OPERATION_QUEUED: the next operation of a flash die enters its queue, with its deadline and its SUSPEND flag; a full
queue stalls it, which is counted once. -/
def operationQueued (d : Nat) (s : State) : State :=
  match nextFeed s d with
  | none => s
  | some o =>
    if 256 ≤ (dieAt s d).queue.length then
      (if o.stalled then s
       else bump { s with feeds := s.feeds.map (fun p => if p = o then { p with stalled := true } else p) } .qeng 0 F.QENG_QUEUE_STALLS)
    else
      let dl := if o.atEntry then s.now else if o.deadline = 0 then s.now + clsTarget s o.cls else o.deadline
      let o1 := { o with deadline := dl, entered := s.now, ctl := rd s .qeng 0 F.QENG_BG_CTRL_BATCH.off }
      let o2 := { o1 with susp := o1.isRead && (o1.susp || bulkSusp s o1) }
      let s0 : State := (match o.owner with
        | .climb g => { s with climbs := s.climbs.map (fun (q : Nat × Climb) =>
            if q.2.desc = g && q.2.deadline = 0 then (q.1, { q.2 with deadline := dl }) else q) }
        | _ => s)
      let s1 := modDie { s0 with feeds := dropOp s0.feeds o } d (fun x => { x with queue := x.queue ++ [o2] })
      let n := (dieAt s1 d).queue.length
      let s2 := if getF s1 .qeng 0 F.QENG_QUEUE_PEAK < n then setF s1 .qeng 0 F.QENG_QUEUE_PEAK n else s1
      fillPlaces (if o2.susp then gather s2 d else s2) d

/-! ### The lane (R380–R387) -/

/-- State of a flash die as an operation starts. -/
def startSt (st : DieSt) (k : FlashKind) : DieSt :=
  match k, st with
  | .read, .es => .esRead
  | .read, .ps => .psRead
  | .read, _ => .read
  | .erase, _ => .erase
  | _, .es => .esProg
  | _, _ => .prog

/-! Bus cycles (R368, R378, R379): two column bytes and three row bytes address a place. -/

/-- Column cycles. -/
def colBytes (c : Nat) : List Nat := [c % 256, c / 256 % 256]

/-- Row cycles of a plane page: LUN, block, plane and page at the bit positions of the parameter page. -/
def rowBytes (s : State) (d plane blk page : Nat) : List Nat :=
  match paramOf s d with
  | some p =>
    let r := d % 4 * 2 ^ p.lunAt + blk * 2 ^ p.blkAt + plane * 2 ^ p.planeAt + page * 2 ^ p.pageAt
    [r % 256, r / 256 % 256, r / 65536 % 256]
  | none => [0, 0, 0]

/-- Row cycles of a PUA. -/
def puaRow (s : State) (pua : Nat) : List Nat := rowBytes s (puaDie pua) (puaPlane pua) (puaBlk pua) (puaPage pua)

/-- Bytes of the model record's mode selection, by bits per cell. -/
def modeSel (s : State) (d bits : Nat) : List Nat :=
  ((modelOf s d).map (fun m => m.modeSel.getD (if bits = 1 then 0 else if bits = 3 then 1 else 2) [])).getD []

/-- The threshold set of a read as the model record numbers its sets: 0 the default, 1 to 4 the sets A to D. -/
def thrIdx (s : State) (d thr : Nat) : Nat := if thr = 0 then mgetD (dieAt s d).tracked (dieBits s d) 0 else thr - 1

/-- Set Features by LUN with a read's threshold set, when it is not the tracked one or another was loaded since (R379,
R416). -/
def setThr (s : State) (d thr : Nat) : List Nat :=
  if thr = 0 && !(dieAt s d).otherSet then []
  else ((modelOf s d).map (fun m => m.thrSets.getD (thrIdx s d thr) [])).getD []

/-- The command and address cycles with which an operation starts. -/
def opCycles (s : State) (d : Nat) (o : FlashOp) : List Nat :=
  let shot := ((modelOf s d).map (·.oneShot)).getD []
  let pages (n : Nat) : List Nat := ((List.range n).map (fun j =>
    [0x80] ++ colBytes 0 ++ rowBytes s d (j % 4) (puaBlk o.pua) (puaPage o.pua + j / 4) ++ [if j + 1 = n then 0x10 else 0x11])).flatten
  match o.kind with
  | .read => setThr s d o.thr ++ [0x00] ++ colBytes 0 ++ puaRow s o.pua ++ [0x30]
  | .program => shot ++ pages (4 * dieBits s d)
  | .slcProgram => modeSel s d 1 ++ shot ++ pages 4
  | .erase => modeSel s d (dieBits s d) ++ ((List.range 4).map (fun p =>
      [0x60] ++ rowBytes s d p (puaBlk o.pua) 0 ++ [if p = 3 then 0xD0 else 0xD1])).flatten

/-- Change Read Column Enhanced for each codeword of a read (R378, R379). -/
def readCycles (s : State) (d : Nat) (o : FlashOp) : List Nat :=
  (o.cws.map (fun k => [0x06] ++ colBytes (k * getF s .til (tileOfDie d) F.TIL_GEOM0_CW_LEN) ++ puaRow s o.pua ++ [0xE0])).flatten

/-- The plane pages that a program writes, with the bytes that the encoders of the tile make of them (R405–R409, R412). -/
def opCells (s : State) (o : FlashOp) : List (Nat × List Nat) :=
  match o.owner with
  | .prog h r pos => ((bandAt s h).map (fun b => unitPages s b r pos)).getD [] |>.map (fun p =>
      (p.1, pageCells (getF s .til (tileOfDie (puaDie p.1)) F.TIL_GEOM0_SPARE) p.1 p.2))
  | _ => []

/-- Bus cycles leave on the flash die's lane. -/
def busOut (s : State) (d : Nat) (l : List Nat) : State := emit s (.bus (laneOfDie d) l)

/-- The model record's sequence that suspends or resumes a program or an erase. -/
def seqOf (s : State) (d : Nat) (l : ModelRec → List (List Nat)) (k : FlashKind) : List Nat :=
  ((modelOf s d).map (fun m => (l m).getD (if k = .erase then 1 else 0) [])).getD []

/-- An operation starts on a flash die. -/
def startOp (s : State) (d : Nat) (o : FlashOp) : State :=
  let s1 := busOut s d (opCycles s d o)
  let s2 := if o.isRead || o.kind = .erase then s1 else emit s1 (.cells (laneOfDie d) (opCells s o))
  emit (modDie s2 d (fun x => { x with st := startSt x.st o.kind, cur := some { o with since := s.now },
                                       otherSet := if o.isRead then o.thr ≠ 0 else x.otherSet }))
    (.lane (laneOfDie d) "start" o.pua)

/-- The waiting read may suspend what runs (R384). -/
def mayPreempt (s : State) (d : Nat) : Bool :=
  let x := dieAt s d
  match x.rdPlace, x.cur with
  | some r, some o =>
    r.susp && (x.st = .prog || x.st = .erase) && !x.suspSent &&
      decide (o.nsusp < suspMax s d o.kind) && decide (o.since + runMin s d ≤ s.now)
  | _, _ => false

/-- Evaluate the waiting read: SUSPEND is sent, or a read with the flag whose first evaluation fails is counted once. -/
def evalRead (s : State) (d : Nat) : State :=
  let x := dieAt s d
  if mayPreempt s d then
    emit (busOut (modDie s d (fun x => { x with suspSent := true, susAt := s.now })) d
      (seqOf s d (·.suspends) ((x.cur.map (·.kind)).getD .program))) (.lane (laneOfDie d) "suspend" d)
  else match x.rdPlace with
  | some r =>
    if r.susp && !r.counted && !x.suspSent then
      bump (modDie s d (fun x => { x with rdPlace := some { r with counted := true } })) .lan (laneOfDie d) F.LAN_SUSP_WAIT_COUNT
    else s
  | none => s

/-- The suspended operation has been suspended longer than allowed (R386). -/
def overHeld (s : State) (x : Die) (d : Nat) : Bool :=
  match x.sus with
  | some o => decide (x.susAt + suspHold s d o.kind < s.now)
  | none => false

/-- Resume the suspended operation. -/
def resumeOp (s : State) (d : Nat) : State :=
  let x := dieAt s d
  match x.sus with
  | some o =>
    evalRead (emit (busOut (modDie s d (fun x => { x with
      st := if o.kind = .erase then .erase else .prog, cur := some { o with since := s.now }, sus := none })) d
      (seqOf s d (·.resumes) o.kind)) (.lane (laneOfDie d) "resume" o.pua)) d
  | none => s

/-- A flash die that runs nothing takes the next step: a suspension held too long resumes; a waiting read starts, then a
waiting operation that the state lets start; else a suspended operation resumes (R380, R386). -/
def nextOp (s : State) (d : Nat) : State :=
  let x := dieAt s d
  if x.cur.isSome || x.st = .absent || x.st = .oos || x.resetAt.isSome then s
  else if (x.st = .es || x.st = .ps) && overHeld s x d then resumeOp s d
  else match x.rdPlace with
  | some r => fillPlaces (startOp (modDie s d (fun x => { x with rdPlace := none })) d r) d
  | none =>
    match x.opPlace with
    | some o =>
      if x.st = .idle || (x.st = .es && o.kind ≠ .erase) then
        fillPlaces (startOp (modDie s d (fun x => { x with opPlace := none })) d o) d
      else if x.sus.isSome then resumeOp s d else s
    | none => if x.sus.isSome then resumeOp s d else s

/-- The lane refuses an operation: an internal error, and Cirrus has it back at the head of its queue (R382, R439). A
refused diagnostic read of a block in erase has its result, and is no error. -/
def refuseOp (s : State) (d : Nat) (o : FlashOp) (code : Nat) : State :=
  let l := laneOfDie d
  if o.owner = .diag then
    if code = 4 then diagEnd s l 3 0 else modDie s d (fun x => { x with queue := o :: x.queue })
  else
  let s1 := bump s .lan l (if code = 4 then F.LAN_REFUSED_IN_ERASE else F.LAN_REFUSED_NEST)
  let s2 := raise (blockError s1 .lan l 5 code (o.pua % 2 ^ 32) (o.pua / 2 ^ 32)) .lan l F.LAN_INT_RAW_REFUSED
  modDie s2 d (fun x => { x with queue := o :: x.queue })

/-- An operation arrives at a flash die (R380, R383, R385). -/
def arrive (s : State) (d : Nat) (o : FlashOp) : State :=
  let x := dieAt s d
  if x.st.inErase && o.kind ≠ .erase && erasedBlk x = some (puaBlk o.pua) then refuseOp s d o 4
  else if o.isRead then
    match x.st with
    | .idle => startOp s d o
    | .es => startOp s d o
    | .ps => startOp s d o
    | _ => if x.rdPlace.isSome then refuseOp s d o 5 else evalRead (modDie s d (fun x => { x with rdPlace := some o })) d
  else
    match x.st with
    | .idle => startOp s d o
    | .es => if o.kind = .erase then refuseOp s d o 5 else startOp s d o
    | .esRead => if o.kind = .erase || x.opPlace.isSome then refuseOp s d o 5 else modDie s d (fun x => { x with opPlace := some o })
    | .esProg => if o.kind = .erase || x.opPlace.isSome then refuseOp s d o 5 else modDie s d (fun x => { x with opPlace := some o })
    | .ps => refuseOp s d o 5
    | .psRead => refuseOp s d o 5
    | _ => if x.opPlace.isSome then refuseOp s d o 5 else modDie s d (fun x => { x with opPlace := some o })

/-- LANE_DESCRIPTOR: the oldest descriptor on its way to a flash die arrives, unless the link carries no frame (R34). -/
def laneDescriptor (d : Nat) (s : State) : State :=
  let x := dieAt s d
  match x.descs with
  | o :: t => if linkCarries s d then fillPlaces (arrive (modDie s d (fun x => { x with descs := t })) d o) d else s
  | [] => s

/-- The operation that runs ends and the flash die goes on. `st` is the state it leaves. -/
def endCur (s : State) (d : Nat) : State :=
  modDie s d (fun x => { x with
    cur := none, suspSent := false,
    gatherAt := none,
    st := match x.st with
      | .esRead => .es
      | .esProg => .es
      | .psRead => .ps
      | _ => .idle })

/-- SUSPEND_ACCEPTED: what ran is suspended, and the waiting read starts (R384, R386). -/
def suspendAccepted (d : Nat) (s : State) : State :=
  let x := dieAt s d
  match x.cur with
  | some o =>
    if x.suspSent then
      let l := laneOfDie d
      let er := o.kind = .erase
      let s1 := bump s .lan l (if er then F.LAN_SUSPENDS_ERASE else F.LAN_SUSPENDS_PROGRAM)
      nextOp (modDie s1 d (fun x => { x with
        st := if er then .es else .ps, cur := none, suspSent := false, susAt := s.now, gatherAt := none,
        sus := some { o with nsusp := o.nsusp + 1, ran := o.ran + (s.now - o.since) } })) d
    else s
  | none => s

/-- RUN_MIN_EXPIRY: the waiting read is evaluated again (R384). -/
def runMinExpiry (d : Nat) (s : State) : State := evalRead s d

/-- SUSPEND_HOLD_EXPIRY: a suspension has lasted as long as it may (R386). -/
def suspendHoldExpiry (d : Nat) (s : State) : State := nextOp s d

/-- GATHER_EXPIRY: gathering ends, and the earliest read is sent (R442). -/
def gatherExpiry (d : Nat) (s : State) : State := fillPlaces s d

/-- BULK_ESCALATION: BULK reads that have come near their deadline gain SUSPEND, join the batch and are counted (R440,
R444, R453). -/
def bulkEscalation (d : Nat) (s : State) : State :=
  let x := dieAt s d
  let n := (x.queue.filter (fun o => bulkSusp s o && !o.susp)).length
  if n = 0 then s
  else fillPlaces ((List.range n).foldl (fun s _ => gather s d)
    (modDie s d (fun x => { x with queue := x.queue.map (fun o => if bulkSusp s o then { o with susp := true } else o) }))) d

/-- PROGRAM_DEADLINE_PASSED: a program whose deadline has passed may be sent under a suspended erase (R443). -/
def programDeadline (d : Nat) (s : State) : State := fillPlaces s d

/-- BG_WINDOW_END: the window's reads become λ, each background operation that fails R444 has a strike, and the die goes
on (R444–R446). -/
def bgWindowEnd (d : Nat) (s : State) : State :=
  let x := dieAt s d
  let win := max 1 (getF s .qeng 0 F.QENG_BG_CTRL_BG_WIN_MS) * 1000000
  if s.now < x.winAt + win then s
  else
    let y := { x with lastReads := x.winReads, winReads := 0, winProgs := 0, winHost := 0, winAt := s.now }
    fillPlaces (modDie s d (fun _ => { y with
      queue := y.queue.map (fun o => if o.bg && !o.isRead then { o with strikes := if bgFits s y o then 0 else o.strikes + 1 } else o) })) d

end Sys2Proof.Machine
end

