-- ==== Sys2Proof/Machine/BringUp.lean ====
section
/-! DEFINITION. Flash die model records and the acceptance of flash dies, lane bring-up, cold and warm
(09_flash_lanes_thyme.md R369, R370, R373, R374, R376–R378, R397, R398; 16_power_modes.md R602). -/

namespace Sys2Proof.Machine

/-! ### Acceptance (R369, R373, R374) -/

/-- A parameter page is one the part takes. -/
def ParamPage.ok (p : ParamPage) : Bool :=
  p.data = 16384 && p.planes = 4 && 2048 ≤ p.spare && p.spare ≤ 2816 && p.blocks ≤ 8191 &&
    (p.gbit = 1024 || p.gbit = 2048 || p.gbit = 4096) && p.wl * 4 ≤ 2048

/-- The model record that a Read ID matches. -/
def modelIdx (ms : List ModelRec) (id : Nat) : Option Nat := (List.range ms.length).find? (fun i => (ms[i]?).any (fun m => m.id = id))

/-- A flash die is accepted: its Read ID matches a model record and its parameter page is one the part takes. Answers the
record's index and the page. -/
def accepts (ms : List ModelRec) (f : DieFind) : Option (Nat × ParamPage) :=
  match modelIdx ms f.id, f.page with
  | some i, some p => if p.ok then some (i, p) else none
  | _, _ => none

/-! ### Provisioning (R377, R397, R398) -/

/-- Codes of GEOM2.DENSITY and GEOM2.LUNS. -/
def ParamPage.density (p : ParamPage) : Nat := if p.gbit = 4096 then 2 else if p.gbit = 2048 then 1 else 0
def ParamPage.lunCode (p : ParamPage) : Nat := if p.luns = 4 then 2 else if p.luns = 2 then 1 else 0

/-- The geometry of a tile is recorded, from the model record and the parameter page of the part's flash dies. -/
def recordGeom (i : Nat) (m : ModelRec) (p : ParamPage) (s : State) (t : Nat) : State :=
  wr (wr (wr (wr (wr (wr s .til t 0x104 (cwLen p.spare % 8192 * 65536 + p.spare % 4096))
    .til t 0x108 (p.blocks % 8192 * 65536 + p.wl % 1024))
    .til t 0x10C (i % 8 * 2 ^ 24 + m.pairWl % 8 * 65536 + p.density * 1024 + p.lunCode * 256 + m.modes % 8))
    .til t 0x110 (p.tProg % 65536 * 65536 + p.tR % 65536))
    .til t 0x114 (p.tBers % 65536 * 65536 + m.tSusp % 65536))
    .til t 0x120 (m.tProgSlc % 65536 * 65536 + m.tRes % 65536)

/-- At provisioning the flash dies found that are accepted, under the same model record and with as many LUNs on a CE_n as
the first, are recorded with the CE_n populated (R373, R377). -/
def recordLane (i luns : Nat) (s : State) (f : LaneFind) : State :=
  let ok := f.dies.filter (fun x => (accepts s.models x).any (fun a => a.1 = i && a.2.luns = luns))
  let s1 := setF s .lan f.lane F.LAN_CE_POP_CE f.ces
  { s1 with dieRecs := ok.foldl (fun m x => mset m (f.lane * 32 + x.celun % 32) x) s1.dieRecs,
            dies := ok.foldl (fun m x => mset m (f.lane * 32 + x.celun % 32) ({ st := .idle } : Die)) s1.dies }

/-- The geometry, the CE_n and the flash dies of a part are recorded from what its lanes find. -/
def recordPart (s : State) (fs : List LaneFind) : State :=
  match (fs.map (·.dies)).flatten.findSome? (accepts s.models) with
  | some (i, p) => (match s.models[i]? with
    | some m => fs.foldl (recordLane i p.luns) ((List.range 4).foldl (recordGeom i m p) s)
    | none => s)
  | none => s

/-! ### Bring-up (R370, R376, R377) -/

/-- A flash die of a lane is checked against its record (R377): one that matches is IDLE, one that differs or is not
recorded is reported and not brought into service, one that is recorded and absent is out of service. -/
def checkDie (s : State) (d : Nat) (found : Option DieFind) : State :=
  let t := tileOfDie d
  let bad (s : State) : State := raise (blockError s .til t 1 0 d 0) .til t F.TIL_INT_RAW_GEOM
  match mget s.dieRecs d, found with
  | some r, some f =>
    if dieOut s d then modDie s d (fun x => { x with st := .oos })
    else if r = f then modDie s d (fun x => if x.st = .absent || x.st = .bringUp || x.st = .oos then { x with st := .idle } else x)
    else dieLeaves (bad s) d
  | some _, none => if dieOut s d then s else dieLeaves s d
  | none, some _ => modDie (bad s) d (fun x => { x with st := .absent })
  | none, none => s

/-- The highest rate that the model record allows; a lane without recorded flash dies has no such limit. -/
def rateMax (s : State) (l : Nat) : Nat :=
  match (List.range 32).find? (fun c => (mget s.dieRecs (l * 32 + c)).isSome) with
  | some c => ((modelOf s (l * 32 + c)).map (·.rate)).getD 4
  | none => 4

/-- A lane is brought up with what was found on it: its flash dies are checked, or it leaves service when its training
failed at 1,600 MT/s. -/
def laneUp (s : State) (f : LaneFind) : State :=
  if s.oos.lanes.contains f.lane || s.oos.tiles.contains (f.lane / 16) then s
  else if f.rate = 0 then laneLeaves (raise s .lan f.lane F.LAN_INT_RAW_TRAIN_FAIL) f.lane
  else
    let s1 := { s with lanes := mset s.lanes f.lane { mgetD s.lanes f.lane ({} : Lane) with
      trained := true, rate := min (min 4 f.rate) (rateMax s f.lane), zqAt := s.now } }
    (List.range 32).foldl (fun s i => checkDie s (f.lane * 32 + i) (f.dies.find? (·.celun = i))) s1

end Sys2Proof.Machine
end

