-- ==== Sys2Proof/Machine/LossOps.lean ====
section
/-! DEFINITION. The power-loss sequence, which the critical stop and the orderly stops share (08_map_durability.md R355,
R356; 17_thermal.md R634, R637; 19_faults_and_resets.md R682, R685). -/

namespace Sys2Proof.Machine

/-! ### Stopping the flash (R355 step 2, R595 step 2) -/

/-- An operation that stopping the flash ends: every read, every erase. -/
def FlashOp.stops (o : FlashOp) : Bool := o.kind = .erase || o.kind = .read

/-- A flash die stops: its erase ends by RESET_LUN, reads end, a suspended erase is abandoned, a suspended program resumes. -/
def stopDie (s : State) (d : Nat) : State :=
  let x := dieAt s d
  if x.st = .absent || x.st = .oos || x.st = .bringUp then s
  else
    let cur := x.cur.filter (fun o => !o.stops)
    let sus := x.sus.filter (fun o => !o.stops)
    let s1 := if x.cur.any (·.kind = .erase) then emit (busOut s d [0xFA]) (.lane (laneOfDie d) "reset_lun" d) else s
    let y : Die := { x with
      cur := cur.orElse (fun _ => sus.map (fun o => { o with since := s.now })), sus := none, suspSent := false,
      rdPlace := none, opPlace := x.opPlace.filter (fun o => !o.stops), gatherAt := none,
      queue := x.queue.filter (fun o => !o.stops), descs := x.descs.filter (fun o => !o.stops) }
    { s1 with dies := mset s1.dies d { y with st := if y.cur.isSome then .prog else .idle } }

/-- Every erase in the part, from the feeds, the queues and the flash dies. -/
def allErases (s : State) : List FlashOp :=
  s.feeds.filter (·.kind = .erase) ++
    (s.dies.map (fun q => (q.2.queue ++ q.2.descs ++ q.2.opPlace.toList ++ q.2.cur.toList ++ q.2.sus.toList).filter (·.kind = .erase))).flatten

/-- Reads, climbs, samples and erases end on every flash die. -/
def stopFlash (s : State) : State :=
  let s1 := (s.dies.map Prod.fst).foldl stopDie s
  { s1 with climbs := [], raws := [], staged := s1.staged.filter (fun q => !(q.2.complete && !q.2.reloc)),
               feeds := s1.feeds.filter (fun o => !o.stops),
            lanes := s1.lanes.map (fun q => (q.1, { q.2 with diag := none, diagRead := false })) }

/-- Relocations that have not committed are abandoned; their copies that hold no slot go (R350). -/
def stopReloc (s : State) : State :=
  { s with bands := s.bands.map (fun q => (q.1, match q.2.victim with
             | some v => if v.committed then q.2 else { q.2 with victim := none }
             | none => q.2)),
           staged := s.staged.filter (fun q => !(q.2.reloc && q.2.slot.isNone)) }

/-! ### Dropping what is not acknowledged (R355 step 1) -/

/-- The program unit that a slot lies in has been given to Cirrus. -/
def slotSent (s : State) (h sl : Nat) : Bool :=
  match bandAt s h with
  | some b => let p := b.place sl; b.sent.contains (unitCode p.1 p.2.1)
  | none => true

/-- A staged unit of which nothing is acknowledged and nothing is on its way to the flash is dropped; its slot becomes
filler. -/
def dropUnit (s : State) (u : Nat) (x : StUnit) : State :=
  if x.reloc || x.secs.any (fun p => p.2.acked) then s
  else match x.slot with
  | none => { s with staged := mdel s.staged u }
  | some (h, sl) =>
    if slotSent s h sl then s
    else { modBand s h (fun b => { b with slots := mset b.slots sl .filler }) with staged := mdel s.staged u }

/-- Writes that are staged and not acknowledged are dropped. -/
def dropUnacked (s : State) : State := s.staged.foldl (fun s q => dropUnit s q.1 q.2) s

/-! ### The sequence -/

/-- The partly filled rows of a band: rows with a slot in use or a program unit sent, and a data unit not sent. -/
def partRows (b : Band) : List Nat :=
  (b.slots.map (fun (q : Nat × SlotUse) => q.1 / max 1 b.per) ++ b.sent.map (· / 64)).eraseDups.filter (fun r =>
    (b.dataPos r).any (fun p => !b.sent.contains (unitCode r p)))

/-- Each partly filled row of an open band is completed with filler; its parity follows when its data units are programmed
(R276, R355 step 3). -/
def completeRows (s : State) : State :=
  (s.bands.filter (fun q => !q.2.closed)).foldl (fun s q => match bandAt s q.1 with
    | some b => (partRows b).foldl (fun s r => (b.dataPos r).foldl (fun s p => fillUnit s q.1 r p) s) s
    | none => s) s

/-- Acknowledged units that are not programmed with their paired word-line group. -/
def lossUnits (s : State) : List Nat := ackedUnits s (s.nss.map Prod.fst)

/-- The hold of a firmware activation ends without it (R356, R637, R709). -/
def dropHold (s : State) : State :=
  match s.fwHold with
  | some h =>
    raise (setF (setF { s with fwHold := none } .cfe 0 F.CFE_STAT_HOLDING 0) .cfe 0 F.CFE_HOLD_LAST_US (ceilDiv (s.now - h.since) 1000))
      .cfe 0 F.CFE_INT_RAW_HOLD_END
  | none => s

/-- Steps 1 and 2, and the beginning of step 3. Whatever the part was doing for hosts ends here, without a completion. -/
def lossBegin (cause : PlCause) (budget : Option (Nat × Nat × Nat)) (s : State) : State :=
  let s0 := { dropHold s with
    cmds := [], adminWaits := [], held := [], txWait := [], plRun := some { cause := cause, step := 3, began := s.now, budget := budget },
    pwr := { s.pwr with entry := none } }
  let s1 := stopReloc (stopFlash (dropUnacked s0))
  let s2 := { s1 with cjobs := [], cctx := [], cores := s1.cores.map (fun q => (q.1, { q.2 with job := none })) }
  completeRows (forceUnits s2 (lossUnits s2))

/-- A power-loss sequence starts unless one runs. In HOLD nothing is written (R614); during a part reset there is nothing
to save. -/
def lossStart (cause : PlCause) (budget : Option (Nat × Nat × Nat)) (s : State) : State :=
  if s.mode = .hold || s.mode = .reset then s
  else match s.plRun with
  | some p =>
    { s with plRun := some { p with budget := p.budget.orElse (fun _ => budget) } }
  | none => lossBegin cause budget s

/-- Flush everything that is staged. -/
def flushAll (s : State) : Nat → State
  | 0 => s
  | n + 1 => if s.jr.flushing.isEmpty && s.jr.staged.isEmpty then s else flushAll (flushDone (jFlush s)) n

/-- A counter's final mark (R353). -/
def Counter.final (c : Counter) : Counter := { c with mark := c.next, wanted := none }

/-- Every counter's final mark is written. -/
def finalMarks (s : State) : State :=
  { s with bandCtr := s.bandCtr.final, sealCtr := s.sealCtr.final,
           nss := s.nss.map (fun q => (q.1, { q.2 with wseq := q.2.wseq.final, nonce := q.2.nonce.final })),
           tenants := s.tenants.map (fun q => (q.1, { q.2 with deferSeq := q.2.deferSeq.final })) }

/-- Some program still runs or waits. -/
def programsLeft (s : State) : Bool :=
  !(lossUnits s).isEmpty || s.feeds.any (fun o => !o.stops) ||
    s.dies.any (fun q => q.2.cur.isSome || q.2.sus.isSome || q.2.opPlace.isSome || !q.2.queue.isEmpty || !q.2.descs.isEmpty)

/-- THERM_SHDN_N is driven low. -/
def shdnLow (s : State) : State :=
  if s.therm.shdn then s else emit { s with therm := { s.therm with shdn := true } } (.board "THERM_SHDN_N" 0)

/-- What the end of step 4 leads to: the critical stop drives THERM_SHDN_N, an orderly stop resets the part. -/
def lossEnd (s : State) (p : PlRun) : State :=
  let s1 := if s.stage = .critical then shdnLow s else s
  match p.cause with
  | .orderly kind detail => partReset kind detail 0 0 s1
  | _ => s1

/-- PL_PROGRAMS_DONE: the programs of step 3 have ended; MRJ flushes, writes the final marks and the sequence-complete
mark (step 4), and step 5 begins. -/
def plProgramsDone (s : State) : State :=
  match s.plRun with
  | some p =>
    if p.step = 3 && !p.ended && !programsLeft s then
      let s1 := finalMarks (flushAll s (s.jr.staged.length + s.jr.flushing.length + 2))
      let p1 := { p with step := 5, step4End := some s.now }
      lossEnd { s1 with
        plStat := { valid := true, done := true, lastStep := 5, ms := min 0xFFFF (ceilDiv (s.now - p.began) 1000000), kind := 1 },
        plRun := some p1 } p1
    else s
  | none => s

/-- When the restart of R356 may take place: the later of the end of step 4 and the input's return, plus 10 ms. -/
def restartAt (s : State) (p : PlRun) : Option Nat :=
  match p.cause, p.step4End, s.pwr.sense.okSince with
  | .pfWarn, some t, some o => some (max t (o + 1000000) + 10000000)
  | _, _, _ => none

/-- PL_RESTART_TIMER. -/
def plRestart (s : State) : State :=
  match s.plRun with
  | some p => (match restartAt s p with
    | some t => if t ≤ s.now then partReset 3 0x22 0 0 s else s
    | none => s)
  | none => s

/-- Budget of an orderly stop in ns. -/
def stopBudget (s : State) : Nat := max 1 (getF s .boot 0 F.BOOT_WDT_CTRL_STOP_MS) * 1000000

/-- STOP_BUDGET_EXPIRY: STOP_MS has passed before step 4 ended. DETAIL [4] of a watchdog's reset says so. -/
def stopBudgetExpiry (s : State) : State :=
  match s.plRun with
  | some p => (match p.budget with
    | some (kind, detail, t) =>
      if p.step < 5 && decide (t + stopBudget s ≤ s.now) then partReset kind (if kind = 6 then detail + 16 else detail) 0 0 s else s
    | none => s)
  | none => s

/-- An orderly stop of R682. -/
def orderlyStop (kind detail : Nat) (s : State) : State :=
  if s.mode = .hold then partReset kind detail 0 0 s
  else lossStart (.orderly kind detail) (some (kind, detail, s.now)) s

/-- WATCHDOG_EXPIRY of a control core: the watchdogs are armed from the end of start-up, and pause in DOZE and HOLD. -/
def watchdogExpiry (core : Nat) (s : State) : State :=
  if s.mode = .run || s.mode = .guard || s.mode = .service then orderlyStop 6 (core % 16) s else s

end Sys2Proof.Machine
end

