-- ==== Sys2Proof/Machine/PowerCmds.lean ====
section
/-! DEFINITION. Supplies and modes: sense inputs, rails, regulators, GUARD, entering DOZE and HOLD, wakes
(16_power_modes.md R590–R614; 03_ethernet_transport.md R141, R143). -/

namespace Sys2Proof.Machine

/-! ### GUARD (R612, R631) -/

/-- Time of the supply cause in ns. -/
def guardEnter (s : State) : Nat := max 1 (getF s .pwr 0 F.PWR_GUARD_CTRL_ENTER_MS) * 1000000

/-- A time that began so long ago that the supply cause holds. -/
def longBelow (s : State) (t : Option Nat) : Bool := t.any (fun t => decide (t + guardEnter s ≤ s.now))

/-- A GUARD cause holds: the enforcement stage, or the input or a rail below its warning threshold for ENTER_MS. -/
def guardCause (s : State) : Bool :=
  s.stage = .enforce || longBelow s s.pwr.sense.warnSince || s.pwr.rails.any (fun q => longBelow s q.2.warnSince)

/-- A cause that holds is noted, and takes the part from RUN to GUARD. -/
def guardJudge (s : State) : State :=
  if guardCause s then
    let s1 := { s with pwr := { s.pwr with guardAt := s.now } }
    if s.mode = .run then
      raise (setF (setMode s1 .guard) .qeng 0 F.QENG_THROTTLE_ACTIVE 1) .pwr 0 F.PWR_INT_RAW_GUARD_ENTER
    else s1
  else s

/-- GUARD_EXIT_TIMER: EXIT_S with no cause. -/
def guardExit (s0 : State) : State :=
  let s := guardJudge s0
  if s.mode = .guard && !guardCause s &&
      decide (s.pwr.guardAt + max 1 (getF s .pwr 0 F.PWR_GUARD_CTRL_EXIT_S) * 1000000000 ≤ s.now) then
    pump (raise (setF (setMode s .run) .qeng 0 F.QENG_THROTTLE_ACTIVE 0) .pwr 0 F.PWR_INT_RAW_GUARD_EXIT)
  else s

/-! ### VIN_SENSE and HOLD_SENSE (R610, R611) -/

/-- WARN_MV and PFW_MV in force (R616). -/
def vinWarn (s : State) : Nat := getF s .pwr 0 F.PWR_VIN_THR_WARN_MV
def vinPfw (s : State) : Nat := min (getF s .pwr 0 F.PWR_VIN_THR_PFW_MV) (vinWarn s - 1)
/-- READY_MV and RESET_MV in force (R616). -/
def holdReady (s : State) : Nat := getF s .pwr 0 F.PWR_HOLD_THR_READY_MV
def holdReset (s : State) : Nat := min (getF s .pwr 0 F.PWR_HOLD_THR_RESET_MV) (holdReady s - 1)

/-- Change the sense inputs. -/
def modSense (s : State) (f : Sense → Sense) : State := { s with pwr := { s.pwr with sense := f s.pwr.sense } }

/-- The sense inputs after a sample of VIN_SENSE. -/
def senseVin (s : State) (mv : Nat) (x : Sense) : Sense :=
  let ok := if vinWarn s ≤ mv then some (x.okSince.getD s.now) else none
  { x with vinLow := if mv < vinPfw s then x.vinLow + 1 else 0, okSince := ok,
           warnSince := if mv < vinWarn s then some (x.warnSince.getD s.now) else none,
           armed := x.armed || ok.any (fun t => decide (t + 1000000 ≤ s.now)) }

/-- VIN_SAMPLE: five samples in a row below PFW_MV raise PF_WARN, once per reset, when it is armed. -/
def vinSample (mv : Nat) (s0 : State) : State :=
  if s0.mode = .reset then s0
  else
    let s := guardJudge s0
    let s1 := modSense (recSupply (setF s .pwr 0 F.PWR_SENSE_VIN_MV mv) 17 mv) (senseVin s mv)
    let s2 := if mv < vinWarn s then raise s1 .pwr 0 F.PWR_INT_RAW_VIN_WARN else s1
    let x := s2.pwr.sense
    if 5 ≤ x.vinLow && x.armed && !x.raised then
      let s3 := modSense s2 (fun x => { x with raised := true })
      lossStart .pfWarn none (if s3.pwr.entry.isSome then entryAbort s3 else s3)
    else guardJudge s2

/-- Staged units that hold a sector not acknowledged. -/
def unackedUnits (s : State) : List Nat :=
  (s.staged.filter (fun q => !q.2.complete && !q.2.reloc && !q.2.stale && q.2.secs.any (fun p => !p.2.acked))).map Prod.fst

/-- HOLD_SAMPLE. -/
def holdSample (mv : Nat) (s : State) : State :=
  if s.mode = .reset then s
  else
    let s1 := recSupply (setF s .pwr 0 F.PWR_SENSE_HOLD_MV mv) 18 mv
    let s2 := modSense s1 (fun x => { x with holdRst := if mv < holdReset s then x.holdRst + 1 else 0 })
    if 2 ≤ s2.pwr.sense.holdRst then partReset 3 0x20 0 0 s2
    else
      let low := mv < holdReady s
      let s3 := { s2 with holdLow := low }
      if low && !s.holdLow then
        let s4 := raise s3 .pwr 0 F.PWR_INT_RAW_HOLD_LOW
        forceUnits s4 (unackedUnits s4)
      else if !low && s.holdLow then pump s3 else s3

/-! ### Rail monitors (R608, R609, R617) -/

/-- RAIL_CFG of a rail. -/
def railCfg (s : State) (i : Nat) : Nat := mgetD s.pwr.cfgs i 0x5028
/-- WARN_PM and RESET_PM in force. -/
def railWarnPm (s : State) (i : Nat) : Nat := max 10 (min 60 (bitsOf (railCfg s i) 7 0))
def railResetPm (s : State) (i : Nat) : Nat :=
  let r := min 120 (bitsOf (railCfg s i) 15 8)
  if r ≤ railWarnPm s i then railWarnPm s i + 10 else r

/-- A reading lies below nominal by more than so many per mille. -/
def belowPm (i mv pm : Nat) : Bool := decide (mv * 1000 < railNominal i * (1000 - pm))

/-- A monitor is armed 200 µs after its rail was first above the warning threshold. -/
def railArmed (s : State) (r : Rail) : Bool := r.on && r.goodAt.any (fun t => decide (t + 200000 ≤ s.now))

/-- The part monitors a rail: in HOLD only VDD_AON, VDDQ_DDR and VDD_IO. -/
def railWatched (s : State) (i : Nat) : Bool := i ≤ 16 && (s.mode ≠ .hold || i = 0 || i = 8 || i = 16)

/-- A rail after a sample. -/
def railNext (s : State) (i mv : Nat) (r : Rail) : Rail :=
  let armed := railArmed s r
  { r with
    mv := mv,
    goodAt := if r.on && r.goodAt.isNone && !belowPm i mv (railWarnPm s i) then some s.now else r.goodAt,
    minMv := if armed then some (min mv (r.minMv.getD mv)) else r.minMv,
    warnSince := if armed && belowPm i mv (railWarnPm s i) then some (r.warnSince.getD s.now) else none,
    resetSince := if armed && belowPm i mv (railResetPm s i) then some (r.resetSince.getD s.now) else none,
    warned := r.warned && belowPm i mv (railWarnPm s i) }

/-- RAIL_SAMPLE. -/
def railSample (i mv : Nat) (s0 : State) : State :=
  let s := guardJudge s0
  let r := railAt s i
  if !railWatched s i || !r.on then s
  else
    let r1 := railNext s i mv r
    let s1 := setRail (if railArmed s r then recSupply s i mv else s) i r1
    if r1.resetSince.any (fun t => decide (t + 1000 ≤ s.now)) then
      (if i = 0 then partReset 1 0 0 0 s1 else partReset 3 i 0 0 s1)
    else if r1.warnSince.any (fun t => decide (t + 10000 ≤ s.now)) && !r1.warned then
      let s2 := raise (blockError (setRail s1 i { r1 with warned := true }) .pwr 0 1 mv i 0) .pwr 0 F.PWR_INT_RAW_RAIL_WARN
      resumeAfter s2 (guardJudge (wakeEvent 6 s2))
    else guardJudge s1

/-! ### Sequencing and regulators (R605–R607) -/

/-- RAIL_GOOD: the rail that is commanded becomes good, and the next of the sequence is commanded on. -/
def railGood (i : Nat) (s : State) : State :=
  match s.pwr.seq with
  | r :: t =>
    if r = i then
      let s1 := railOn s i
      { s1 with pwr := { s1.pwr with seq := t, seqAt := s.now } }
    else s
  | [] => s

/-- RAIL_GOOD_TIMEOUT: a commanded rail is not good within 2 ms; the rails already on go off and the part is reset. -/
def railTimeout (s : State) : State :=
  match s.pwr.seq with
  | r :: _ =>
    if s.pwr.seqAt + 2000000 ≤ s.now then
      let s1 := railsOff s (railOrder.filter (fun i => (railAt s (railMon i)).on))
      partReset 3 0x21 0 0 (blockError s1 .pwr 0 3 0 r 0)
    else s
  | [] => s

/-- Fault bits of STATUS_WORD: all but POWER_GOOD#, BUSY and OFF (PMBus; log 7). -/
def pmbFault (w : Nat) : Bool := (w &&& 0xF73F) ≠ 0

/-- The rail of a regulator output, as an item of the order of R605: the fixed four (R689), or one of the board profile's. -/
def regRail (s : State) (addr page : Nat) : Option Nat :=
  if 0x40 ≤ addr && addr ≤ 0x43 && page = 0 then railOrder[addr - 0x40]?
  else s.profile.bind (fun p => (p.regs.find? (fun r => r.addr = addr && r.page = page)).map (·.rail))

/-- MGMT runs, so that the host polls: in HOLD only while a port is started (R590, R607). -/
def mgmtRuns (s : State) : Bool := s.mode ≠ .reset && (s.mode ≠ .hold || s.eth.any (fun q => q.2.serdesUntil.isSome))

/-- The host polls a regulator: MGMT runs and the regulator is on. -/
def pmbPolled (s : State) (addr page : Nat) : Bool :=
  mgmtRuns s && (regRail s addr page).any (fun r => (railAt s (railMon r)).on)

/-- PMBUS_POLL of one regulator: its STATUS_WORD, or none when it does not acknowledge. -/
def pmbPoll (addr page : Nat) (st : Option Nat) (s : State) : State :=
  if !pmbPolled s addr page then s
  else
    let key := addr * 256 + page
    let n := match st with
      | some _ => 0
      | none => mgetD s.pwr.nacks key 0 + 1
    let bad := match st with
      | some w => pmbFault w
      | none => decide (n = 2)
    let s1 := { s with pwr := { s.pwr with nacks := mput s.pwr.nacks key 0 (if n = 2 then 0 else n) } }
    if bad then
      emit (raise (blockError (bump s1 .pwr 0 F.PWR_PMB_FAULTS_COUNT) .pwr 0 2 (st.getD 0xFFFF) key 0)
        .pwr 0 F.PWR_INT_RAW_PMB_FAULT) (.board "CLEAR_FAULTS" key)
    else s1

/-! ### Entering DOZE and HOLD (R594–R596, R603) -/

/-- The conditions of R594. -/
def entryIdle (s : State) : Bool :=
  (s.mode = .run || s.mode = .guard) && s.pwr.entry.isNone && s.plRun.isNone && s.fwHold.isNone &&
  decide (s.pwr.lastCmd + max 1 (getF s .pwr 0 F.PWR_MODE_CTRL_DOZE_IDLE_MS) * 1000000 ≤ s.now) &&
  s.cmds.isEmpty && s.adminWaits.isEmpty && s.held.isEmpty && !(s.tenants.any (fun q => q.2.cmd.isSome)) &&
  !(s.tenants.any (fun q => q.2.state = .removing)) && !(s.nss.any (fun q => q.2.erase.isSome)) &&
  !(s.migs.any (fun q => q.2.draining || q.2.committing)) &&
  s.diesets.all (fun q => decide (getF s .mape 0 F.MAPE_GC_CTRL_START < freeBands s q.2)) &&
  !(s.bands.any (fun q => q.2.refresh)) && getF s .drx 0 F.DRX_SPARE_STATE ≠ 1

/-- MODE_ENTRY_START: steps 1 and 2 of R595. Erases go back to the queue of work still to be given to Cirrus. -/
def entryStart (s : State) : State :=
  let t := getF s .pwr 0 F.PWR_MODE_CTRL_PS
  if (t = 1 || t = 2) && entryIdle s then
    let es := allErases s
    let s1 := stopReloc (stopFlash { s with pwr := { s.pwr with entry := some t } })
    let s2 := { s1 with feeds := s1.feeds ++ es.map (fun o => { o with since := 0, ran := 0, nsusp := 0, entered := 0, counted := false }) }
    forceUnits s2 (lossUnits s2)
  else s

/-- Step 3 of HOLD entry: every connection ends, and each tenant controller that had one is reset (R595). -/
def dropHosts (s : State) : State :=
  let fs := (s.conns.filterMap (fun q => q.2.fn)).eraseDups.filter (· < 512)
  let s1 := connsLost s (s.conns.map Prod.fst)
  fs.foldl (fun s f => if (ctrl s f).assoc.isSome then ctrlReset s f true false else s) s1

/-- Channels that a mode does not sample read so; in HOLD their levels are forgotten (R636). -/
def thermSleep (s : State) (t : Nat) : State :=
  { s with therm := { s.therm with chs := s.therm.chs.map (fun q =>
      if t = 2 then (q.1, { q.2 with health := 3, ups := [0, 0, 0], downs := [0, 0, 0], got := [false, false, false], limit := 0 })
      else if 4 ≤ q.1 && q.1 ≤ 7 then (q.1, { q.2 with health := 3 }) else q) } }

/-- The mode is entered (step 5). -/
def entryEnd (s : State) (t : Nat) : State :=
  let s0 := if s.stage = .enforce then s else setF s .qeng 0 F.QENG_THROTTLE_ACTIVE 0
  let s1 := setF (setMode (thermSleep s0 t) (if t = 2 then .hold else .doze)) .pwr 0 F.PWR_MODE_CTRL_REQ t
  let s2 := bump (linksOff { s1 with pwr := { s1.pwr with entry := none } }) .pwr 0 F.PWR_COUNTS_ENTRIES
  let s3 := setF s2 .pwr 0 F.PWR_PAD_HOLD_DDR 1
  if t = 2 then
    railsOff (setF { s3 with txWait := [], eth := s3.eth.map (fun q =>
      (q.1, { txEq := q.2.txEq, wakeKey := q.2.wakeKey, wakeStaged := q.2.wakeStaged })) } .pwr 0 F.PWR_PAD_HOLD_GPIO 1) holdOrder
  else setF s3 .pwr 0 F.PWR_PAD_HOLD_FL 15

/-! ### Wake sources (R141, R143, R598, R604) -/

/-- A wake source whose wake or abandonment lets commands go on. -/
def wakeBy (late : List Nat) (code : Nat) (s : State) : State := resumeAfter s (wakeLate late code s)

/-- Ports that HOLD runs for a wake frame. -/
def portsStarted (s : State) : Bool := s.eth.any (fun q => q.2.serdesUntil.isSome)

/-- The rails a started port needs (R590). -/
def portRails : List Nat := [15, 1, 13, 14]

/-- ENERGY_DETECT: energy on a receive lane in HOLD wakes the part, or starts that port alone. During the entry into HOLD,
energy that would wake the part abandons the entry (R596). -/
def energyDetect (p : Nat) (late : List Nat) (s : State) : State :=
  if s.mode = .hold then
    if getF s .eth p F.ETH_WAKE_CTRL_ENERGY_WAKE = 1 then wakeBy late 2 s
    else if getF s .eth p F.ETH_WAKE_CTRL_FRAME_WAKE = 1 && (eth s p).serdesUntil.isNone then
      modEth (if portsStarted s then s else railsOn s portRails) p (fun e => { e with serdesUntil := some (s.now + 100000000) })
    else s
  else if getF s .eth p F.ETH_WAKE_CTRL_ENERGY_WAKE = 1 then wakeBy late 2 s
  else s

/-- WAKE_FRAME: in HOLD it is seen only by a port that energy has started, else by one whose link is up. ENABLE 0 treats
the link as down (R144). -/
def wakeFrame (p key : Nat) (late : List Nat) (s : State) : State :=
  let k := (eth s p).wakeKey
  if k ≠ 0 && k = key && getF s .eth p F.ETH_WAKE_CTRL_FRAME_WAKE = 1 && getF s .eth p F.ETH_PORT_CTRL_ENABLE = 1 &&
      (if s.mode = .hold then (eth s p).serdesUntil.isSome else (eth s p).linkUp) then wakeBy late 3 s
  else s

/-- PORT_WAKE_TIMEOUT: the started port returns to off. -/
def portWakeTimeout (p : Nat) (s : State) : State :=
  match (eth s p).serdesUntil with
  | some t =>
    if s.mode = .hold && decide (t ≤ s.now) then
      let s1 := modEth s p (fun e => { e with serdesUntil := none })
      if portsStarted s1 then s1 else railsOff s1 portRails
    else s
  | none => s

/-- MODE_ENTRY_COMMIT: the programs have ended, MRJ flushes, every control core waits, and the mode is entered, unless WAKE_N is
already low as step 4 is reached and is a wake source (R595, R596, R614). The level of WAKE_N is the board's, a free value
(log 190). -/
def entryCommit (s : State) : State :=
  match s.pwr.entry with
  | some t =>
    if programsLeft s then s
    else
      let f := takeFree s
      let s1 := flushAll f.2 (s.jr.staged.length + s.jr.flushing.length + 2)
      let s2 := if t = 2 then dropHosts s1 else s1
      if (Config.freeWord f.1).toNat % 2 = 0 && wakeSource s t 4 then resumeAfter s (entryAbort s2) else entryEnd s2 t
  | none => s

/-- WAKE_N low for 10 µs. -/
def wakeN (late : List Nat) (s : State) : State := wakeBy late 4 s

/-- TIMER_EXPIRY: the always-on timer ends (R604). -/
def timerExpiry (late : List Nat) (s : State) : State :=
  match s.aon.timer with
  | some t =>
    if t ≤ s.now then wakeBy late 5 (raise { s with aon := { s.aon with timer := none } } .pwr 0 F.PWR_INT_RAW_TIMER) else s
  | none => s

/-- WARM_BRING_UP_DONE: the training of a lane that was late at a wake from HOLD ends. -/
def warmDone (f : LaneFind) (s : State) : State :=
  if s.dies.any (fun q => q.1 / 32 = f.lane && q.2.st = .bringUp) then pump (laneUp s f) else s

/-! ### Meanings -/

def execVinSample (mv : Nat) (s : State) : Res := done (vinSample (min 1000 mv) s)
def execPlProgramsDone (s : State) : Res := done (plProgramsDone s)
def execPlRestartTimer (s : State) : Res := done (plRestart s)
def execHoldSample (mv : Nat) (s : State) : Res := done (holdSample (min 1000 mv) s)
def execModeEntryStart (s : State) : Res := done (entryStart s)
def execModeEntryCommit (s : State) : Res := done (entryCommit s)
def execWakeFrame (p : Fin 2) (key : Nat) (late : List Nat) (s : State) : Res := done (wakeFrame p key late s)
def execEnergyDetect (p : Fin 2) (late : List Nat) (s : State) : Res := done (energyDetect p late s)
def execPortWakeTimeout (p : Fin 2) (s : State) : Res := done (portWakeTimeout p s)
def execWakeN (late : List Nat) (s : State) : Res := done (wakeN late s)
def execTimerExpiry (late : List Nat) (s : State) : Res := done (timerExpiry late s)
def execRailGood (i : Nat) (s : State) : Res := done (railGood i s)
def execRailGoodTimeout (s : State) : Res := done (railTimeout s)
def execPmbusPoll (addr page : Nat) (st : Option Nat) (s : State) : Res := done (pmbPoll addr page st s)
def execRailSample (i mv : Nat) (s : State) : Res := done (railSample i mv s)
def execGuardExitTimer (s : State) : Res := done (guardExit s)
def execWarmBringUpDone (f : LaneFind) (s : State) : Res := done (warmDone f s)
def execWatchdogExpiry (core : Nat) (s : State) : Res := done (watchdogExpiry core s)
def execStopBudgetExpiry (s : State) : Res := done (stopBudgetExpiry s)

end Sys2Proof.Machine
end

