-- ==== Sys2Proof/Machine/Thermal.lean ====
section
/-! DEFINITION. Temperature sensing and throttling: channels, levels, stages, the critical stop (17_thermal.md
R621–R637). Readings are in units of 0.25 °C. -/

namespace Sys2Proof.Machine

/-! ### Channels (R621, R622, R625–R627) -/

/-- A channel. -/
def chAt (s : State) (c : Nat) : ThCh := mgetD s.therm.chs c {}

/-- Replace a channel. -/
def setCh (s : State) (c : Nat) (x : ThCh) : State := { s with therm := { s.therm with chs := mset s.therm.chs c x } }

/-- A channel is enabled: the on-chiplet ones always are. -/
def chOn (s : State) (c : Nat) : Bool := c < 8 || bitsOf (chAt s c).cfg 15 15 = 1

/-- Group of a channel (R621, R622). -/
def chGroup (s : State) (c : Nat) : Nat :=
  if c < 4 then 0 else if c < 8 then 1
  else let g := bitsOf (chAt s c).cfg 11 8; if g < 2 then 15 else g

/-- The channel is in CROSS_CHECK mode. -/
def chCross (s : State) (c : Nat) : Bool := bitsOf (chAt s c).cfg 14 14 = 1

/-- A byte as a signed number. -/
def signed8 (b : Nat) : Int := if 128 ≤ b % 256 then Int.ofNat (b % 256) - 256 else Int.ofNat (b % 256)

/-- WARN, THROT and CRIT in force, in °C (R627). -/
def chWarn (s : State) (c : Nat) : Int := signed8 (bitsOf (chAt s c).thr 15 8)
def chThrot (s : State) (c : Nat) : Int := max (signed8 (bitsOf (chAt s c).thr 23 16)) (chWarn s c)
def chCrit (s : State) (c : Nat) : Int :=
  let v := max (signed8 (bitsOf (chAt s c).thr 31 24)) (chThrot s c)
  if c < 8 then min v 105 else v

/-- The part samples a channel in its mode (R636). -/
def chSampled (s : State) (c : Nat) : Bool :=
  chOn s c && c < 32 && (match s.mode with
    | .hold => false
    | .reset => false
    | .doze => !(4 ≤ c && c ≤ 7)
    | _ => true)

/-! ### From a measurement to a reading (R622, R623, R625) -/

/-- A reading in quarter degrees Celsius of a temperature of `num / den` kelvin, to the nearest. -/
def toQuarters (num den : Int) : Int := (40 * num - 10921 * den) / (10 * den)

/-- Thirty-two steps of a binary logarithm: the mantissa in units of 2 ^ -40, from 1 to below 2, and the bits found so far. -/
def log2Step (x : Nat × Nat) (_ : Nat) : Nat × Nat :=
  let m := x.1 * x.1 / 2 ^ 40
  if 2 ^ 41 ≤ m then (m / 2, 2 * x.2 + 1) else (m, 2 * x.2)

/-- ln (a / b) in units of 2 ^ -32, for positive `a` and `b`. -/
def lnFix (a b : Nat) : Int :=
  let y := a * 2 ^ 60 / b
  let e := Nat.log2 y
  let f := ((List.range 32).foldl log2Step (y * 2 ^ 40 / 2 ^ e, 0)).2
  ((Int.ofNat e - 60) * 2 ^ 32 + Int.ofNat f) * 2977044472 / 2 ^ 32

/-- PARAM_LO and PARAM_HI of a channel lie in the ranges of R638. -/
def parOk (c par : Nat) : Bool :=
  if c < 24 then 9000 ≤ par % 65536 && par % 65536 ≤ 11000 && par / 65536 ≤ 1000 else par % 65536 ≠ 0

/-- Reading of a remote diode from its ΔVBE in nV between 10 µA and 160 µA (R731): the drop of the series resistance is taken
off, and the rest is ideality × (k T / q) × ln 16, with k ln 16 / q = 238,923.21 nV/K (log 174). -/
def diodeReading (par : Nat) (v : Int) : Int :=
  toQuarters ((v - 150000 * Int.ofNat (par / 65536)) * 1000000) (Int.ofNat (par % 65536) * 23892321)

/-- Reading of a thermistor from the ratio of its input to the reference in millionths: R / R25 is r / (1 - r), as the pull-up
equals R25, and 1/T = 1/298.15 K + ln (R / R25) / B (R623). -/
def thermistorReading (par ppm : Nat) : Int :=
  let r := min 999999 (max 1 ppm)
  let b := Int.ofNat (par % 65536)
  toQuarters (29815 * b * 2 ^ 32) (100 * 2 ^ 32 * b + 29815 * lnFix r (1000000 - r))

/-- The raw reading of a sample: the sensor's own on the chiplets, else converted under CH_PARAM. A diode without current gives
none, so the last one stays; with parameters outside the ranges of R638, and where the equation has no temperature, the spec
states no reading and the value is free (log 174). -/
def rawReading (s : State) (c : Nat) (v : Int) (bad : Bool) : Int :=
  let par := (chAt s c).par
  if c < 8 then v
  else if c < 24 && bad then (chAt s c).raw
  else if !parOk c par then Config.tempUnstated par v
  else if c < 24 then diodeReading par v
  else if 0 < 100 * 2 ^ 32 * Int.ofNat (par % 65536) + 29815 * lnFix (min 999999 (max 1 v.toNat)) (1000000 - min 999999 (max 1 v.toNat)) then
    thermistorReading par v.toNat
  else Config.tempUnstated par v

/-- Fault code of a sample (R625): open or short, the self-check, or a reading out of range. -/
def faultCode (c : Nat) (v : Int) (bad : Bool) (raw : Int) : Nat :=
  if c < 8 && bad then 4
  else if (8 ≤ c && c < 24 && bad) || (24 ≤ c && 980000 < v) then 1
  else if (8 ≤ c && c < 24 && v < 20000000) || (24 ≤ c && v < 20000) then 2
  else if raw < -160 || 600 < raw then 3 else 0

/-- Raw readings of the other healthy members of a channel's group. -/
def healthyOthers (s : State) (c : Nat) : List Int :=
  ((List.range 32).filter (fun d => d ≠ c && chOn s d && chGroup s d = chGroup s c && (chAt s d).health ≠ 3 && (chAt s d).fault = 0)).map
    (fun d => (chAt s d).raw)

/-- Twice the median of a list that is not empty. -/
def median2 (l : List Int) : Int :=
  let m := l.mergeSort (fun a b => decide (a ≤ b))
  let n := m.length
  if n % 2 = 1 then 2 * m.getD (n / 2) 0 else m.getD (n / 2 - 1) 0 + m.getD (n / 2) 0

/-- Half of a number; which way a half goes the spec leaves open (log 12). -/
def half (v : Int) : Int := v / 2 + (if v % 2 = 1 ∧ Config.roundUp v then 1 else 0)

/-- Effective reading of a sample, and whether the median replaced it (R626). -/
def effReading (s : State) (c : Nat) (fault : Nat) (raw : Int) : Int × Bool :=
  let o := healthyOthers s c
  let m := median2 o
  if chCross s c && 2 ≤ o.length then
    (if fault ≠ 0 || 120 < (2 * raw - m).natAbs then (half m, true) else (raw, false))
  else if fault ≠ 0 then (4 * chThrot s c, false) else (raw, false)

/-- Levels after a sample: per threshold, three samples in a row reach it, three below it less the hysteresis leave it. -/
def levelNext (eff thr hyst : Int) (up down : Nat) (got : Bool) : Nat × Nat × Bool :=
  let u := if 4 * thr ≤ eff then up + 1 else 0
  let d := if eff < 4 * (thr - hyst) then down + 1 else 0
  (min 3 u, min 3 d, if got then decide (d < 3) else decide (3 ≤ u))

/-- CH_STAT.LEVEL. -/
def ThCh.level (x : ThCh) : Nat :=
  if x.got.getD 2 false then 3 else if x.got.getD 1 false then 2 else if x.got.getD 0 false then 1 else 0

/-! ### Stages (R628–R631, R633) -/

/-- A channel that counts has reached a threshold (0 WARN, 1 THROT, 2 CRIT). -/
def anyLevel (s : State) (i : Nat) : Bool := (List.range 32).any (fun c => chOn s c && (chAt s c).got.getD i false)

/-- MF, and every tenant function with a connection. -/
def noticeFns (s : State) : List Nat := fnMF :: ((s.conns.filterMap (fun q => q.2.fn)).eraseDups.filter (· < 512))

/-- The throttle notice of R630. -/
def throttleNotice (s : State) : State :=
  (noticeFns s).foldl (fun s f =>
    if (ctrl s f).notice then postEvent (modCtrl s f (fun c => { c with notice := false })) f (aerDw0 7 3 2) else s) s

/-- The stage changes. THROTTLE_ECN is set in NOTIFY and ENFORCE, and cleared on the return to NORMAL (R629). -/
def toStage (s : State) (g : ThmStage) : State :=
  let s1 := { s with stage := g, therm := { s.therm with stageAt := s.now } }
  match g with
  | .normal => setF s1 .tte 0 F.TTE_STAT_THROTTLE_ECN 0
  | .critical => s1
  | _ => setF s1 .tte 0 F.TTE_STAT_THROTTLE_ECN 1

/-- THM stops holding THROTTLE.ACTIVE, which GUARD keeps while it lasts (R631). -/
def leaveEnforce (s : State) : State :=
  let s1 := { s with pwr := { s.pwr with guardAt := s.now } }
  if s.mode = .guard then s1 else setF s1 .qeng 0 F.QENG_THROTTLE_ACTIVE 0

/-- The stage becomes ENFORCE. -/
def enterEnforce (s : State) : State :=
  guardJudge (raise (bump (setF (toStage s .enforce) .qeng 0 F.QENG_THROTTLE_ACTIVE 1) .thm 0 F.THM_COUNTS_ENFORCE)
    .thm 0 F.THM_INT_RAW_ENFORCE)

/-- The stage becomes NOTIFY. -/
def enterNotify (s : State) : State :=
  throttleNotice (raise (bump (toStage s .notify) .thm 0 F.THM_COUNTS_NOTIFY) .thm 0 F.THM_INT_RAW_NOTIFY)

/-- The stage becomes CRITICAL: the critical stop begins (R634), or a sequence that runs goes on (R637). -/
def enterCritical (s : State) (c : Nat) : State :=
  let s1 := if s.stage = .enforce then leaveEnforce s else s
  let s2 := raise (blockError (toStage s1 .critical) .thm 0 3 ((chAt s c).eff % 4096).toNat c 0) .thm 0 F.THM_INT_RAW_CRIT
  let s3 := queueUnitOut { s2 with therm := { s2.therm with stop := if s2.plRun.isSome then none else some s.now } } 4 2 c 0
  let s4 := lossStart (.critical c) none s3
  if s.plRun.any (fun p => p.step = 5) then shdnLow s4 else s4

/-- Grace time in ns. -/
def graceNs (s : State) : Nat := getF s .thm 0 F.THM_THR_CTRL_GRACE * 10000000

/-- Judge the stage. -/
def judgeStage (s : State) : State :=
  if s.stage = .critical then s
  else match (List.range 32).find? (fun c => chOn s c && (chAt s c).got.getD 2 false) with
  | some c => enterCritical s c
  | none =>
    match s.stage with
    | .normal => if anyLevel s 1 then enterNotify s else s
    | .notify =>
      if !anyLevel s 1 then pump (toStage s .normal)
      else if s.therm.stageAt + graceNs s ≤ s.now then enterEnforce s else s
    | .enforce => if !anyLevel s 1 then pump (toStage (leaveEnforce s) .normal) else s
    | .critical => s

/-! ### Health log values (R632) -/

/-- Highest effective reading of channels 0 to 7 that are sampled. -/
def composite (s : State) : Int :=
  match ((List.range 8).filter (fun c => (chAt s c).health ≠ 3)).map (fun c => (chAt s c).eff) with
  | [] => 0
  | e :: t => t.foldl max e

/-- A reading in kelvin, to the nearest. -/
def kelvin (q : Int) : Nat := ((q * 25 + 27365) / 100).toNat

/-- WCTEMP and CCTEMP in kelvin. -/
def wcTemp (s : State) : Nat := kelvin (4 * ((List.range 8).map (chWarn s)).foldl min 127)
def ccTemp (s : State) : Nat := kelvin (4 * ((List.range 8).map (chCrit s)).foldl min 127)

/-- Time at or above the composite thresholds and in ENFORCE, brought up to now. -/
def thermTime (s : State) : State :=
  let dt := s.now - s.therm.asOf
  let k := kelvin (composite s)
  let e := if s.stage = .enforce then s.therm.enfNs + dt else s.therm.enfNs
  let s1 := bumpBy s .thm 0 F.THM_ENF_TIME_SEC (e / 1000000000 - s.therm.enfNs / 1000000000)
  { s1 with therm := { s1.therm with
      asOf := s.now, enfNs := e,
      warnNs := if wcTemp s ≤ k then s.therm.warnNs + dt else s.therm.warnNs,
      critNs := if ccTemp s ≤ k then s.therm.critNs + dt else s.therm.critNs } }

/-- Critical Warning bit 1 follows the levels; its event is that of R633. -/
def judgeCrit1 (s : State) : State :=
  let w := anyLevel s 0 || anyLevel s 1 || anyLevel s 2
  let s1 := { s with therm := { s.therm with crit1 := w } }
  if w && !s.therm.crit1 then (noticeFns s1).foldl (fun s f => postEvent s f (aerDw0 1 1 2)) s1 else s1

/-! ### Samples -/

/-- A channel after a sample. -/
def chNext (s : State) (c fault : Nat) (raw : Int) : ThCh :=
  let x := chAt s c
  let r := effReading s c fault raw
  let hyst := Int.ofNat (getF s .thm 0 F.THM_THR_CTRL_HYST)
  let lv := [chWarn s c, chThrot s c, chCrit s c].zip ((x.ups.zip x.downs).zip x.got) |>.map
    (fun p => levelNext r.1 p.1 hyst p.2.1.1 p.2.1.2 p.2.2)
  { x with
    health := if r.2 then 2 else if fault ≠ 0 then 1 else 0, fault := fault, raw := raw, eff := r.1,
    ups := lv.map (·.1), downs := lv.map (·.2.1), got := lv.map (·.2.2),
    limit := if c < 8 && fault = 0 && 460 ≤ raw then x.limit + 1 else 0 }

/-- Reports of a sample: a fault that is new, a reading that is newly replaced, a WARN newly reached. -/
def sampleReports (s : State) (c : Nat) (old new : ThCh) : State :=
  let s1 := if new.fault ≠ 0 then bump s .thm 0 F.THM_FAULTS_FAULT else s
  let s2 := if new.fault ≠ 0 && old.fault = 0 then raise (blockError s1 .thm 0 1 new.fault c 0) .thm 0 F.THM_INT_RAW_FAULT else s1
  let s3 := if new.health = 2 then bump s2 .thm 0 F.THM_FAULTS_REPLACED else s2
  let s4 := if new.health = 2 && old.health ≠ 2 then blockError s3 .thm 0 2 (new.raw % 4096).toNat c 0 else s3
  if new.got.getD 0 false && !old.got.getD 0 false then raise s4 .thm 0 F.THM_INT_RAW_WARN else s4

/-- The limit of R635: two samples in a row at or above 115 °C. The reports of the stop and of the limit are taken in the
order of their causes (R673). -/
def hardLimit (s : State) (c : Nat) : State :=
  let s1 := if s.stage = .critical then s else enterCritical s c
  shdnLow (blockError s1 .thm 0 4 ((chAt s c).raw % 4096).toNat c 0)

/-- THM_SAMPLE of a channel: what its sensor measures, and whether the self-check fails (on a chiplet) or no current flows (a
diode). The measure is the reading itself in quarter degrees on a chiplet, ΔVBE in nV for a diode, the input's share of the
reference in millionths for a thermistor. -/
def thmSample (c : Nat) (v : Int) (bad : Bool) (s0 : State) : State :=
  if !chSampled s0 c then s0
  else
    let s := thermTime s0
    let old := chAt s c
    let raw := rawReading s c v bad
    let new := chNext s c (faultCode c v bad raw) raw
    let s1 := sampleReports (setCh (recTemp s (chGroup s c) new.eff 4) c new) c old new
    let warned := new.got.getD 0 false && !old.got.getD 0 false
    let s2 := if warned then resumeAfter s1 (wakeEvent 6 s1) else s1
    let s3 := judgeStage (judgeCrit1 s2)
    if new.limit = 2 then hardLimit s3 c else s3

/-- GRACE_EXPIRY. -/
def graceExpiry (s : State) : State := if s.stage = .notify then judgeStage (thermTime s) else s

/-- SHDN_BUDGET_EXPIRY: SHDN_MS has passed since the critical stop began; the work left is abandoned. -/
def shdnExpiry (s : State) : State :=
  match s.therm.stop with
  | some t =>
    if !s.therm.shdn && decide (t + max 1 (getF s .thm 0 F.THM_THR_CTRL_SHDN_MS) * 1000000 ≤ s.now) then
      shdnLow { s with plRun := s.plRun.map (fun p => { p with ended := true }) }
    else s
  | none => s

/-! ### Meanings -/

def execThmSample (c : Fin 32) (v : Int) (bad : Bool) (s : State) : Res := done (thmSample c v bad s)
def execGraceExpiry (s : State) : Res := done (graceExpiry s)
def execShdnBudgetExpiry (s : State) : Res := done (shdnExpiry s)

end Sys2Proof.Machine
end

