-- ==== Sys2Proof/Machine/AdminOps.lean ====
section
/-! DEFINITION. Log pages, Identify, Format NVM, Sanitize, power states, the fault log and part resets on command
(04_commands_and_ordering.md R158, R159, R180, R181; 05 R203, R233, R234; 06 R743; 16 R592, R593; 17 R630, R632; 18 R653,
R663; 19 R677, R683). The numbers of NVMe structures are those of the NVMe specifications (log 7). -/

namespace Sys2Proof.Machine

/-! ### Violations (R163) -/

/-- A command fails check 4: it is counted and reported as a violation. -/
def nsViolation (s : State) (f nsid : Nat) : State :=
  let s1 := raise (blockError (bump s .cfe 0 F.CFE_VIOL) .cfe 0 1 (f % 512) (nsid % 2 ^ 32) 0) .cfe 0 F.CFE_INT_RAW_VIOL
  if f < 512 then
    modTenant (raiseTf (bumpTf s1 f F.TF_VIOL_COUNT) f F.TF_INT_RAW_VIOL) f (fun t => { t with viol := t.viol + 1 })
  else s1

/-! ### Log pages (R159) -/

/-- The pages a function has. -/
def logHas (f lid : Nat) : Bool :=
  if f = fnMF then [0x01, 0x02, 0x03, 0x05, 0xE0].contains lid
  else [0x01, 0x02, 0x04, 0x05, 0x81, 0xBF, 0xC0, 0xC1].contains lid

/-- The flash dies the Percentage Used of a function looks at. -/
def fnDies (s : State) (f : Nat) : List Nat := ((fnDieSets s f).map (·.members)).flatten

/-- Mean erase count of a flash die's blocks over the rated endurance of its mode, in percent (R307). -/
def diePctUsed (s : State) (d : Nat) : Nat :=
  let total := ((s.blks.filter (fun q => q.1 / 8192 = d)).map (fun q => q.2.erases)).sum
  100 * total / max 1 (blocksOf s d * Config.endurance (dieBits s d))

/-- Percentage Used. -/
def pctUsed (s : State) (f : Nat) : Nat := min 255 (((fnDies s f).map (diePctUsed s)).foldl max 0)

/-- Log page 0x02 (R307, R312, R326, R632, R671): 512 bytes of health, and the stage in byte 512 − 1 of its vendor area
is at offset 512 of the page as the spec counts it. -/
def healthFields (s : State) (f : Nat) : List (Nat × Nat × Nat) :=
  [(0, 1, (ctrl s f).critWarn + s.therm.crit1.toNat * 2), (1, 2, kelvin (composite s)), (3, 1, availSpare s (fnDieSets s f)),
   (4, 1, getF s .mape 0 F.MAPE_SPARE_CTRL_WARN_PCT), (5, 1, pctUsed s f), (192, 4, s.therm.warnNs / 60000000000),
   (196, 4, s.therm.critNs / 60000000000)]
  ++ (List.range 8).map (fun c => (200 + 2 * c, 2, if (chAt s c).health = 3 then 0 else kelvin (chAt s c).eff))
  ++ [(512, 1, match s.stage with
    | .normal => 0
    | .notify => 1
    | .enforce => 2
    | .critical => 3)]

/-- Eight ASCII hexadecimal digits of a version, the most significant first, or 0 for an invalid slot (R700). -/
def versionText (valid v : Nat) : Nat :=
  if valid = 0 then 0
  else ofLe ((List.range 8).map (fun i => let d := v / 16 ^ (7 - i) % 16; if d < 10 then 48 + d else 55 + d))

/-- Log page 0x03 (R700). -/
def slotFields (s : State) : List (Nat × Nat × Nat) :=
  let run := getF s .fwp 0 F.FWP_SLOT_STAT_RUNNING
  let nxt := getF s .fwp 0 F.FWP_SLOT_STAT_NEXT
  [(0, 1, run + 1 + (if nxt = run then 0 else (nxt + 1) * 16)),
   (8, 8, versionText (getF s .fwp 0 F.FWP_SLOT_STAT_VALID_A) (getF s .fwp 0 F.FWP_VER_A_VERSION)),
   (16, 8, versionText (getF s .fwp 0 F.FWP_SLOT_STAT_VALID_B) (getF s .fwp 0 F.FWP_VER_B_VERSION))]

/-- Log page 0xC0 (R181). -/
def deferFields (t : Tenant) : List (Nat × Nat × Nat) :=
  [(0, 4, t.defer.length), (4, 4, t.deferLost)]
  ++ (((List.range t.defer.length).zip t.defer).map (fun p =>
    let o := 16 + 32 * p.1
    let e := p.2
    [(o, 8, e.seq), (o + 8, 8, e.slba), (o + 16, 4, e.nlb), (o + 20, 4, e.nsid), (o + 24, 5, e.pos), (o + 29, 1, e.cause)])).flatten

/-- TFn.STAT.STATE. -/
def TState.code : TState → Nat
  | .free => 0
  | .active => 1
  | .quiescing => 2
  | .quiesced => 3
  | .resetting => 4
  | .removing => 5

/-- Connected queues of a tenant, the admin queue included. -/
def ioqUsed (s : State) (t : Nat) : Nat := (s.conns.filter (fun q => q.2.fn = some t)).length

/-- Log page 0xC1 with Log Specific Identifier 0x0000 (R233). -/
def statusFields (s : State) (t : Nat) : List (Nat × Nat × Nat) :=
  let x := tenant s t
  [(0, 2, t), (2, 1, x.state.code), (3, 1, x.par.maxClass), (4, 4, x.ver), (8, 2, x.par.ioqGrant), (10, 2, ioqUsed s t),
   (12, 2, (tenantNs s t).length), (16, 2, openUsed s t), (18, 2, activeUsed s t), (24, 8, x.viol), (32, 4, x.resets)]
  ++ (tenFields (trec s t)).map (fun f => (512 + f.1, f.2.1, f.2.2))

/-- Log page 0xBF (R743). -/
def changedFields (n : Ns) : List (Nat × Nat × Nat) :=
  if n.changedOver then [(0, 2, 0xFFFF)]
  else (0, 2, n.changed.length) :: ((List.range n.changed.length).zip n.changed).map (fun p => (8 + 8 * p.1, 8, p.2))

/-- Summary word k of DIR.INT_SUMMARY (R67). -/
def intSummary (s : State) (k : Nat) : Nat :=
  ((List.range 32).map (fun b => if (pageAt (32 * k + b)).isSome && pageInt s ((32 * k + b) * 0x1000) then 2 ^ b else 0)).sum

/-- Log page 0xE0: INT_SUMMARY0 to INT_SUMMARY23 (R97). -/
def intFields (s : State) : List (Nat × Nat × Nat) := (List.range 24).map (fun k => (4 * k, 4, intSummary s k))

/-- A page that a function's request names, or the status it ends with. -/
def logPage (q : Capsule) (f : Nat) (s : State) : Status ⊕ Page :=
  let clear := !logRae q
  if !logHas f (logLid q) then .inl stInvalidLogPage
  else match logLid q with
  | 0x02 => .inr ⟨513, healthFields s f, true, fun s => if clear then modCtrl s f (fun c => { c with notice := true }) else s⟩
  | 0x03 => .inr ⟨512, slotFields s, true, id⟩
  | 0x81 =>
    let st := (tenant s f).sanitize
    .inr ⟨512, (if st % 8 = 2 then [] else [(0, 2, 0xFFFF)]) ++ [(2, 2, st)], true, id⟩
  | 0xE0 => .inr ⟨96, intFields s, false, fun s => if clear then { s with mgmt := { s.mgmt with aenArmed := true } } else s⟩
  | 0xC0 => .inr ⟨2064, deferFields (tenant s f), false, fun s =>
      if clear then modTenant s f (fun t => { t with defer := [], deferLost := 0, deferArmed := true }) else s⟩
  | 0xC1 =>
    if logLsi q = 0 then
      (if logLsp q / 2 ≠ 0 then .inl stInvalidField
       else .inr ⟨16384, statusFields s f, false, fun s => if logLsp q % 2 = 1 then trecClear s f else s⟩)
    else if logLsi q = 1 && logLsp q = 0 then .inr ⟨1048576, devFields s.recd, false, id⟩
    else .inl stInvalidField
  | 0xBF =>
    (match (nsSlot s f q.nsid).bind (fun k => (nsAt s k).map (fun n => (k, n))) with
    | some (k, n) =>
      if n.zoned then .inr ⟨4096, changedFields n, false, fun s =>
        if clear then modNs s k (fun n => { n with changed := [], changedOver := false, noticeArmed := true }) else s⟩
      else .inl stInvalidField
    | none => .inr ⟨4096, [], false, id⟩)
  | _ => .inr ⟨4096, [], true, id⟩

/-- A command that names a namespace fails one of checks 4, 5 and 8 to 10 (R161): it does not exist, is not ready, its key
slot is not bound, a deferred error is pending, a crypto-erase runs. -/
def nsChecks (s : State) (f nsid : Nat) : Option (Status × Nat) :=
  match (nsSlot s f nsid).bind (fun k => (nsAt s k).map (fun n => (k, n))) with
  | none => some (stInvalidNamespace, 0)
  | some (k, n) =>
    if !n.recovered then some (stNotReady, 0)
    else if (mget s.nsKeys k).isNone then some (stKeyNotBound, 0)
    else if n.defer then some (stDeferredWrite, n.deferNewest % 2 ^ 32)
    else n.erase.map (fun e => (if e = .sanitize then stSanitizeInProgress else stFormatInProgress, 0))

/-- What a refusal does besides completing: a violation is reported (R163), and a Deferred Write Error clears the flag of
the namespace (R176). -/
def nsSide (f nsid : Nat) (st : Status) (s : State) : State :=
  if st = stInvalidNamespace then nsViolation s f nsid
  else if st = stDeferredWrite then
    match nsSlot s f nsid with
    | some k => modNs s k (fun n => { n with defer := false })
    | none => s
  else s

/-- A refusal of a command that names a namespace. -/
def noNs (f nsid : Nat) (x : Status × Nat) : Verdict := .no x.1 x.2 (nsSide f nsid x.1)

/-- Get Log Page. -/
def getLog (q : Capsule) (s : State) : State :=
  admin q { quiet := true, masks := logMasks } (fun f s =>
    match logPage q f s with
    | .inl st => no st
    | .inr p =>
      if logLid q = 0xBF then
        match sendPage q p s, nsChecks s f q.nsid with
        | .yes _, some x => noNs f q.nsid x
        | v, _ => v
      else sendPage q p s) s

/-! ### Identify (R158, R159, R203, R241, R294, R592, R700) -/

/-- Identify Controller. -/
def identifyCtrl (s : State) (f : Nat) : List (Nat × Nat × Nat) :=
  let mf := f = fnMF
  [(77, 1, 9), (78, 2, cntlidOf f), (258, 1, 3), (259, 1, 3), (260, 1, if mf then 0x14 else 0), (262, 1, 63),
   (263, 1, if mf then 2 else 0), (266, 2, wcTemp s), (268, 2, ccTemp s), (516, 4, if f < 512 then (tenant s f).par.maxNs else 0),
   (522, 2, 0), (1792, 4, 516), (1796, 4, 1), (1803, 1, 1)]
  ++ (if f < 512 then [textField 768 256 0 (subNqn f)] else [])
  ++ (if mf then [(270, 2, 1), (319, 1, 1), (2048, 2, 12500), (2080, 2, 900), (2083, 1, 2), (2088, 4, 1000), (2112, 2, 35),
    (2115, 1, 2), (2120, 4, 25000)] else [(2048, 2, 12500)])

/-- Identify Namespace. -/
def identifyNs (n : Ns) : List (Nat × Nat × Nat) :=
  [(0, 8, n.capacity), (8, 8, n.capacity), (25, 1, 0), (26, 1, 0), (28, 1, 0), (29, 1, 0), (33, 1, 9), (128, 4, 12 * 65536)]

/-- Identify Namespace of the Zoned Namespace Command Set. -/
def identifyZns (s : State) (n : Ns) : List (Nat × Nat × Nat) :=
  let p := (tenant s n.tenant).par
  [(0, 2, 0), (2, 2, 1), (4, 4, p.activeZones - 1), (8, 4, p.openZones - 1), (12, 4, 0), (16, 4, 0), (2816, 8, zoneSize n), (2824, 1, 0)]

/-- NSIDs of a tenant above a number, in order. -/
def nsidsAbove (s : State) (t lo : Nat) (csi : Option Nat) : List Nat :=
  (((tenantNs s t).filter (fun q => lo < q.2.nsid && (match csi with
    | some 0 => !q.2.zoned
    | some 2 => q.2.zoned
    | some _ => false
    | none => true))).map (fun q => q.2.nsid)).mergeSort (fun a b => decide (a ≤ b))

/-- A list of identifiers of 4 bytes each. -/
def idList (l : List Nat) : List (Nat × Nat × Nat) := ((List.range l.length).zip l).map (fun p => (4 * p.1, 4, p.2))

/-- The structure an Identify names: its fields and whether the rest is open; a namespace it must name is `ns`. -/
def identifyData (q : Capsule) (s : State) (f : Nat) (ns : Option Ns) : Option (List (Nat × Nat × Nat) × Bool) :=
  let csi := bitsOf q.dw11 31 24
  match bitsOf q.dw10 7 0 with
  | 0x00 => ns.map (fun n => (identifyNs n, true))
  | 0x01 => some (identifyCtrl s f, true)
  | 0x02 => some (idList (nsidsAbove s f q.nsid none), false)
  | 0x03 => ns.map (fun n => ([(0, 1, 4), (1, 1, 1), (4, 1, if n.zoned then 2 else 0)], true))
  | 0x05 => ns.map (fun n => (if n.zoned && csi = 2 then identifyZns s n else [], true))
  | 0x06 => some (if csi = 2 then [(0, 1, 7)] else [], true)
  | 0x07 => some (idList (nsidsAbove s f q.nsid (some csi)), false)
  | 0x1C => some ([(0, 8, 1), (8, 8, 5)], true)
  | _ => none

/-- CNS values that name a namespace. -/
def cnsNames (cns : Nat) : Bool := cns = 0 || cns = 3 || cns = 5

/-- IDENTIFY: a CNS that names a namespace has the checks on it (R161). -/
def identify (q : Capsule) (s : State) : State :=
  admin q { disc := true, quiet := true, masks := [0xFFFF00FF, 0xFF00FFFF, 0, 0, 0x7F, 0] } (fun f s =>
    let cns := bitsOf q.dw10 7 0
    if !([0x00, 0x01, 0x02, 0x03, 0x05, 0x06, 0x07, 0x1C].contains cns) then no stInvalidField
    else if q.len < 4096 then no stSglLength
    else
      match (if cnsNames cns then nsChecks s f q.nsid else none),
          identifyData q s f (if f < 512 then (nsSlot s f q.nsid).bind (nsAt s) else none) with
      | some x, _ => noNs f q.nsid x
      | none, some (fs, isOpen) =>
        .yes (postOk s q.conn q.cid 0 (if isOpen then overlay 4096 (1024 + cns) fs else zeroOverlay 4096 fs))
      | none, none => noNs f q.nsid (stInvalidNamespace, 0)) s

/-! ### Format NVM and Sanitize (R159, R161, R484, R485, R502, R503) -/

/-- Status of a crypto-erase in progress (check 10). -/
def eraseStatus (e : EraseKind) : Status := if e = .sanitize then stSanitizeInProgress else stFormatInProgress

/-- Checks 2 to 11 on a Format NVM. -/
def formatChk (q : Capsule) (f : Nat) (s : State) : Option (Status × Nat) :=
  let ses := bitsOf q.dw10 11 9
  if !(ses = 0 || ses = 2) || q.dw10 - ses * 512 ≠ 0 then some (stInvalidField, 0)
  else match (nsSlot s f q.nsid).bind (fun k => (nsAt s k).map (fun n => (k, n))) with
  | none => some (stInvalidNamespace, 0)
  | some (k, n) =>
    if !n.recovered then some (stNotReady, 0)
    else if isQuiesced s f then some (stTenantQuiesced, 0)
    else if (migOf s f).logs && (migOf s f).names n.nsid then some (stMigrationActive, 0)
    else if (mget s.nsKeys k).isNone then some (stKeyNotBound, 0)
    else if n.defer then some (stDeferredWrite, n.deferNewest % 2 ^ 32)
    else match n.erase with
    | some e => some (eraseStatus e, 0)
    | none => if (migOf s f).state = .handedOff && (migOf s f).names n.nsid then some (stWriteProtected, 0) else none

/-- FORMAT_NVM: the crypto-erase starts and the command completes when it has ended. -/
def formatNvm (q : Capsule) (s : State) : State :=
  admin q { mf := false, quiet := true, masks := [0x3FFF, 0, 0, 0, 0, 0] } (fun f s =>
    match formatChk q f s, nsSlot s f q.nsid with
    | some x, _ => noNs f q.nsid x
    | none, some k =>
      let s2 := eraseStart s k .format
      .yes { s2 with adminWaits := s2.adminWaits ++ [(q.conn, q.cid, .format k)] }
    | none, none => noNs f q.nsid (stInvalidNamespace, 0)) s

/-- Checks 2 to 11 on a Sanitize. -/
def sanitizeChk (q : Capsule) (act f : Nat) (s : State) : Option (Status × Nat) :=
  if bitsOf q.dw10 2 0 ≠ act then some (stInvalidField, 0)
  else if isQuiesced s f then some (stTenantQuiesced, 0)
  else if (migOf s f).logs then some (stMigrationActive, 0)
  else match (tenantNs s f).findSome? (fun p => p.2.erase) with
  | some e => some (eraseStatus e, 0)
  | none => if (migOf s f).state = .handedOff then some (stWriteProtected, 0) else none

/-- A Sanitize whose checks hold executes. -/
def sanitizeAs (q : Capsule) (act : Nat) (run : Nat → State → State) (s : State) : State :=
  admin q { mf := false, quiet := true, masks := [0x7FF, 0xFFFFFFFF, 0, 0, 0, 0] } (fun f s =>
    match sanitizeChk q act f s with
    | some x => .no x.1 x.2 id
    | none => .yes (run f s)) s

/-- SANITIZE_CRYPTO_ERASE: every bound namespace of the tenant is crypto-erased. -/
def sanitizeErase (q : Capsule) (s : State) : State :=
  sanitizeAs q 4 (fun f s =>
    let ks := ((tenantNs s f).map Prod.fst).filter (fun k => (mget s.nsKeys k).isSome)
    let s1 := ks.foldl (fun s k => eraseStart s k .sanitize) s
    postSt (modTenant s1 f (fun t => { t with sanitize := if ks.isEmpty then 1 else 2 })) q.conn q.cid stOk) s

/-- SANITIZE_EXIT_FAILURE: a crypto-erase never fails, so there is no failure mode to leave. -/
def sanitizeExit (q : Capsule) (s : State) : State := sanitizeAs q 1 (fun _ s => postSt s q.conn q.cid stOk) s

/-! ### Power states, resets, the fault log (R593, R677, R683) -/

/-- POWER_STATE. -/
def powerState (q : Capsule) (s : State) : State :=
  admin q (mfOnly [0xFFFFFFFF, 0, 0, 0, 0, 0]) (fun _ s =>
    if 3 ≤ q.dw10 then no stInvalidField
    else if s.mode = .service then .yes (postSt s q.conn q.cid stSequenceError)
    else .yes (postSt (setF s .pwr 0 F.PWR_MODE_CTRL_PS q.dw10) q.conn q.cid stOk)) s

/-- An entry of the fault log as 64 bytes (R674). -/
def faultBytes (e : FaultEntry) : List Nat :=
  leBytes 4 e.seq ++ leBytes 4 e.pcyc ++ leBytes 5 e.pos ++ leBytes 1 e.type ++ leBytes 2 e.page ++ leBytes 4 e.info ++
    leBytes 4 e.addrLo ++ leBytes 4 e.addrHi ++ leBytes 2 e.rep ++ leBytes 3 e.span ++ List.replicate 31 0

/-- FAULT_READ's data. -/
def faultData (s : State) (first count : Nat) : List Nat :=
  let l := s.flog.log
  let head := leBytes 4 l.length ++ leBytes 4 ((l.head?.map (·.seq)).getD 0) ++ leBytes 4 ((l.getLast?.map (·.seq)).getD 0) ++
    leBytes 4 s.flog.dropped ++ List.replicate 48 0
  let es := (l.drop first).take count
  head ++ (es.map faultBytes).flatten ++ List.replicate (64 * (count - es.length)) 0

/-- FAULT_READ and FAULT_READ_CLEAR, by CLEAR in dword 12. -/
def faultRead (q : Capsule) (clear : Bool) (s : State) : State :=
  let first := bitsOf q.dw10 12 0
  let count := bitsOf q.dw11 13 0
  vendor { q with dw12 := q.dw12 / 2 * 2 } [0x1FFF, 0x3FFF, 0, 0, 0, 0]
    (fun n _ => n = 11 && (count = 0 || 8192 < first + count)) (fun s =>
    if q.len < 64 + 64 * count then no stSglLength
    else
      let s1 := postOk s q.conn q.cid 0 (faultData s first count)
      .yes (if clear then { s1 with flog := { s1.flog with log := [], dropped := 0 } } else s1)) s

/-- FAULT_LOG_WRITE: MRJ writes the next queued entry to the log; a full log drops it (R675, R676). -/
def faultLogWrite (s : State) : State :=
  match s.flog.queue with
  | e :: t =>
    let s1 := { s with flog := { s.flog with queue := t } }
    if s.flog.log.length < 8192 then
      { s1 with flog := { s1.flog with log := s1.flog.log ++ [{ e with seq := s1.flog.nextSeq }], nextSeq := s1.flog.nextSeq + 1 } }
    else
      raise (bump { s1 with flog := { s1.flog with dropped := min 0xFFFFFFFF (s1.flog.dropped + 1) } } .dir 0 F.DIR_FAULT_OVF)
        .dir 0 F.DIR_INT_RAW_FAULT_DROP
  | [] => s

/-- DEVICE_RESET, by FORCE in dword 10; while a Firmware Commit is in progress it is refused (R683). -/
def deviceReset (q : Capsule) (force : Bool) (s : State) : State :=
  vendor q [1, 0, 0, 0, 0, 0] noField (fun s =>
    if s.fwHold.isSome then .yes (postSt s q.conn q.cid stSequenceError)
    else
      let s1 := postSt s q.conn q.cid stOk
      .yes (if force then partReset 7 1 0 0 s1 else orderlyStop 7 0 s1)) s

/-- A DEVICE_RESET that arrives during an activation does not wait for its turn: R683 names its status (log 167). -/
def deviceResetTurn (q : Capsule) (i : Instr) (force : Bool) (s : State) : State :=
  if s.fwHold.isSome then capsuleIn q (deviceReset q force) s else inTurn q i false (deviceReset q force) s

/-- METER_READ is in the metering operations; a tenant's records as the ring holds them. -/
def meterRing (s : State) (t : Nat) : List MtrRec := mgetD s.meter.rings t []

end Sys2Proof.Machine
end

