-- ==== Sys2Proof/Machine/Admin.lean ====
section
/-! DEFINITION. The meanings of the log page, Identify, Format, Sanitize, power state, fault log and device reset commands
(04_commands_and_ordering.md; 16_power_modes.md R593; 19_faults_and_resets.md R675, R677, R683). -/

namespace Sys2Proof.Machine

def execGetLogRegInterrupts (q : Capsule) (s : State) : Res := done (inTurn q (.getLogRegInterrupts q) false (getLog q) s)
def execGetLogPage (q : Capsule) (s : State) : Res := done (inTurn q (.getLogPage q) false (getLog q) s)
def execGetLogDeferredErrors (q : Capsule) (s : State) : Res := done (inTurn q (.getLogDeferredErrors q) false (getLog q) s)
def execGetLogTenantStatus (q : Capsule) (s : State) : Res := done (inTurn q (.getLogTenantStatus q) false (getLog q) s)
def execGetLogDeviceRecorder (q : Capsule) (s : State) : Res := done (inTurn q (.getLogDeviceRecorder q) false (getLog q) s)
def execGetLogChangedZoneList (q : Capsule) (s : State) : Res := done (inTurn q (.getLogChangedZoneList q) false (getLog q) s)
def execIdentify (q : Capsule) (s : State) : Res := done (inTurn q (.identify q) false (identify q) s)
def execFormatNvm (q : Capsule) (s : State) : Res := done (inTurn q (.formatNvm q) false (formatNvm q) s)
def execSanitizeCryptoErase (q : Capsule) (s : State) : Res := done (inTurn q (.sanitizeCryptoErase q) false (sanitizeErase q) s)
def execSanitizeExitFailure (q : Capsule) (s : State) : Res := done (inTurn q (.sanitizeExitFailure q) false (sanitizeExit q) s)
def execPowerState (q : Capsule) (s : State) : Res := done (inTurn q (.powerState q) false (powerState q) s)
def execFaultRead (q : Capsule) (s : State) : Res := done (inTurn q (.faultRead q) false (faultRead q false) s)
def execFaultReadClear (q : Capsule) (s : State) : Res := done (inTurn q (.faultReadClear q) false (faultRead q true) s)
def execDeviceReset (q : Capsule) (s : State) : Res := done (deviceResetTurn q (.deviceReset q) false s)
def execDeviceResetForce (q : Capsule) (s : State) : Res := done (deviceResetTurn q (.deviceResetForce q) true s)
def execFaultLogWrite (s : State) : Res := done (faultLogWrite s)

end Sys2Proof.Machine
end

