-- ==== Sys2Proof/Machine/Io.lean ====
section
/-! DEFINITION. The I/O commands of a tenant and Abort: how a capsule becomes a command in the part
(04_commands_and_ordering.md R160–R184; 06_zones_and_placement.md R277, R278), and the refill of budgets
(11_cirrus_latency.md R448–R451). -/

namespace Sys2Proof.Machine

/-! ### Submission -/

/-- First sector of a command: dwords 10 and 11. -/
def Capsule.slba (q : Capsule) : Nat := q.dw10 + q.dw11 * 2 ^ 32

/-- Sectors of a command: dword 12 [15:0], 0-based. -/
def Capsule.nlb (q : Capsule) : Nat := bitsOf q.dw12 15 0 + 1

/-- The directive's class, lifetime and group, or those of a command without it: a Read runs in its namespace's class
(R277, R278). -/
def hintsOf (q : Capsule) (op : IoOp) (nsCls : Nat) : Nat × Nat × Nat :=
  let d := bitsOf q.dw13 31 16
  if op.hinted && bitsOf q.dw12 23 20 = 15 then
    (if bitsOf d 7 6 = 0 then nsCls else min (bitsOf d 7 6 - 1) nsCls, bitsOf d 5 4, bitsOf d 3 0)
  else (nsCls, 1, 0)

/-- The data a command brings, as offset and value. -/
def offsets (l : List Nat) : List (Nat × Nat) := (List.range l.length).zip l

/-- A command on an I/O queue of a tenant enters the part: it waits in its submission queue until it is taken. A
controller being reset takes none (R185), and from the start of the power-loss sequence CFE takes none (R355). -/
def submitIo (q : Capsule) (op : IoOp) (slba nlb : Nat) (fua : Bool) (data : List Nat) (ranges : List (Nat × Nat))
    (s0 : State) : State :=
  let s := serveMode s0
  match connOf s q.conn with
  | none => s
  | some cn =>
    match cn.fn with
    | none => s
    | some f =>
      if !cn.ready || cn.qid = 0 || 512 ≤ f || (ctrl s f).resetting || s.plRun.isSome ||
          !(s.mode = .run || s.mode = .guard) then s
      else
        let slot := nsSlot s f q.nsid
        let h := hintsOf q op (match slot.bind (nsAt s) with
          | some n => n.cls
          | none => 0)
        let c : Cmd := {
          conn := q.conn, cid := q.cid, fn := f, nsid := q.nsid, nsk := slot, op := op, slba := slba, nlb := nlb, fua := fua,
          cls := h.1, life := h.2.1, group := h.2.2, reserved := q.reserved, len := q.len, keyed := q.keyed,
          unknown := q.unknown, icd := q.icd, dwords := [q.dw10, q.dw11, q.dw12, q.dw13, q.dw14, q.dw15], ranges := ranges,
          arrived := s.now, data := offsets data }
        pump (touch { s with cmds := mset s.cmds s.nextCmd c, nextCmd := s.nextCmd + 1 } f)

/-- FUA is dword 12 [30]; DEAC of Write Zeroes is dword 12 [25]. -/
def Capsule.fua (q : Capsule) : Bool := bitsOf q.dw12 30 30 = 1

/-- READ. -/
def readCmd (q : Capsule) (s : State) : State := submitIo q .read q.slba q.nlb false [] [] s

/-- WRITE, with one number per sector of data. -/
def writeCmd (q : Capsule) (data : List Nat) (s : State) : State := submitIo q .write q.slba q.nlb q.fua data [] s

/-- WRITE_ZEROES. -/
def writeZeroes (q : Capsule) (s : State) : State :=
  submitIo q (.writeZeroes (bitsOf q.dw12 25 25 = 1)) q.slba q.nlb q.fua [] [] s

/-- DATASET_MANAGEMENT, with its ranges: first sector and length. Dword 10 [7:0] is their count, 0-based. -/
def datasetManagement (q : Capsule) (ranges : List (Nat × Nat)) (s : State) : State :=
  submitIo q .dsm 0 0 false [] (ranges.take (bitsOf q.dw10 7 0 + 1)) s

/-- FLUSH. -/
def flushCmd (q : Capsule) (s : State) : State := submitIo q .flush 0 0 false [] [] s

/-- ZONE_APPEND: dwords 10 and 11 hold ZSLBA. -/
def zoneAppend (q : Capsule) (data : List Nat) (s : State) : State := submitIo q .append q.slba q.nlb q.fua data [] s

/-- A Zone Management Send of an action; Select All is dword 13 [8]. -/
def zoneSend (a : Nat) (q : Capsule) (s : State) : State :=
  submitIo q (.zmSend a (bitsOf q.dw13 8 8 = 1)) q.slba 0 false [] [] s

/-- REPORT_ZONES. -/
def reportZones (q : Capsule) (s : State) : State := submitIo q .zmRecv q.slba 0 false [] [] s

/-! ### Abort (R182–R184) -/

/-- The Abort's own completion waits for its commit; bit 0 of dword 0 says that the target was not aborted. -/
def abortEntry (q : Capsule) (f : Nat) (notAborted : Bool) (s : State) : State :=
  let s1 := bump s .cfe 0 (if notAborted then F.CFE_ABORTS_NOT_ABORTED else F.CFE_ABORTS_ABORTED)
  { s1 with nextCmd := s1.nextCmd + 1, cmds := mset s1.cmds s1.nextCmd {
      conn := q.conn, cid := q.cid, fn := f, nsid := 0, nsk := none, op := .abort, slba := 0, nlb := 0, fua := false,
      cls := 0, life := 0, group := 0, reserved := false, len := 0, keyed := 0, dwords := [], phase := .ready,
      arrived := s.now, admitted := s.now, dw0 := notAborted.toNat } }

/-- The Abort lookup (R183): SQID in dword 10 [15:0], CID in [31:16]. -/
def abortLookup (q : Capsule) (f : Nat) (s : State) : State :=
  let sqid := bitsOf q.dw10 15 0
  let cid := bitsOf q.dw10 31 16
  if sqid = 0 then
    match (ctrl s f).aers.find? (fun a => a.2 = cid) with
    | some a =>
      abortEntry q f false (postSt (modCtrl s f (fun k => { k with aers := k.aers.filter (· ≠ a) })) a.1 a.2 stAbortRequested)
    | none => abortEntry q f true s
  else
    match (mget (ctrl s f).ioqs sqid).bind (fun id => s.cmds.find? (fun c => c.2.conn = id && c.2.cid = cid)) with
    | some (k, c) =>
      if !c.past then
        abortEntry q f false (pump (postSt (delCmd s k) c.conn c.cid stAbortRequested))
      else abortEntry q f true s
    | none => abortEntry q f true s

/-- The connection's tenant is being quiesced: its Aborts are still served (R220 step 2). -/
def quiescing (s : State) (id : Nat) : Bool :=
  match adminFn s id with
  | some f => decide (f < 512) && decide ((tenant s f).state = .quiescing)
  | none => false

/-- ABORT: a fifth outstanding Abort is refused. -/
def abortCmd (q : Capsule) (s : State) : State :=
  admin q { quiet := quiescing s q.conn, masks := [0xFFFFFFFF, 0, 0, 0, 0, 0] } (fun f s =>
    if 4 ≤ (s.cmds.filter (fun c => c.2.fn = f && c.2.op = .abort)).length then no stAbortLimit
    else .yes (abortLookup q f s)) s

/-! ### Refill (R448, R451) -/

/-- BUCKET_REFILL: buckets have gained with time, and waiting commands are taken. -/
def bucketRefill (s : State) : State := pump s

/-! ### Meanings -/

/-- Transit SRAM words corrected while a command moves its data (R527). -/
def sramCorr (n : Nat) (s : State) : State := bumpBy s .bas 0 F.BAS_ECC_CORR n

/-- `bad` are lines of MCC whose parity fails from now on (R581), `corr` the corrected transit SRAM words. -/
def execRead (q : Capsule) (bad : List Nat) (corr : Nat) (s : State) : Res := done (capsuleIn q (readCmd q) (addBad .mcc bad (sramCorr corr s)))
def execWrite (q : Capsule) (data : List Nat) (corr : Nat) (s : State) : Res := done (capsuleIn q (writeCmd q data) (sramCorr corr s))
def execWriteZeroes (q : Capsule) (s : State) : Res := done (capsuleIn q (writeZeroes q) s)
def execDatasetManagement (q : Capsule) (ranges : List (Nat × Nat)) (s : State) : Res := done (capsuleIn q (datasetManagement q ranges) s)
def execFlush (q : Capsule) (s : State) : Res := done (capsuleIn q (flushCmd q) s)
def execZoneAppend (q : Capsule) (data : List Nat) (s : State) : Res := done (capsuleIn q (zoneAppend q data) s)
def execZoneOpen (q : Capsule) (s : State) : Res := done (capsuleIn q (zoneSend 3 q) s)
def execZoneClose (q : Capsule) (s : State) : Res := done (capsuleIn q (zoneSend 1 q) s)
def execZoneFinish (q : Capsule) (s : State) : Res := done (capsuleIn q (zoneSend 2 q) s)
def execZoneReset (q : Capsule) (s : State) : Res := done (capsuleIn q (zoneSend 4 q) s)
def execZoneOffline (q : Capsule) (s : State) : Res := done (capsuleIn q (zoneSend 5 q) s)
def execReportZones (q : Capsule) (s : State) : Res := done (capsuleIn q (reportZones q) s)
def execAbort (q : Capsule) (s : State) : Res := done (inTurn q (.abort q) true (abortCmd q) s)
def execBucketRefill (s : State) : Res := done (bucketRefill s)

end Sys2Proof.Machine
end

