-- ==== Sys2Proof/Machine/Commit.lean ====
section
/-! DEFINITION. The commit of completion entries (04_commands_and_ordering.md R174, R183; 11_cirrus_latency.md R435,
R452; 03_ethernet_transport.md R139; 14_memories_buffers_dram.md R536). -/

namespace Sys2Proof.Machine

/-- Data a completion returns: a successful Read its sectors, a failed Read undefined content for its whole range (R174),
Report Zones its report. -/
def cqeData (s : State) (c : Cmd) : List Nat × State :=
  match c.op with
  | .read =>
    if c.st = stOk then ((List.range c.nlb).map (fun o => mgetD c.data o 0), s)
    else ((List.range c.nlb).map (fun o => Config.freeSector (s.free + o)), { s with free := s.free + c.nlb })
  | .zmRecv => (c.data.map Prod.snd, s)
  | _ => ([], s)

/-- Commands whose deadline can be missed: Read, and Write, Zone Append and programming Write Zeroes, without FUA and DEAC
(R452). -/
def canMiss (s : State) (c : Cmd) : Bool :=
  c.op = .read || (programs (cmdZoned s c) c.op && !c.fua && !(c.op = .writeZeroes true))

/-- The miss counter of a class. -/
def missField (cls : Nat) : Fld :=
  match cls with
  | 0 => F.QENG_MISS_BULK_COUNT
  | 1 => F.QENG_MISS_STANDARD_COUNT
  | _ => F.QENG_MISS_STRICT_COUNT

/-- What Cirrus, REC and MTR are told of a committed command (R452, R650, R657). -/
def account (s : State) (c : Cmd) : State :=
  if c.op = .abort then s
  else
    let us := (s.now - c.admitted) / 1000
    let missed := canMiss s c && decide (c.deadline < s.now)
    let s1 := if missed then recMiss (bump s .qeng 0 (missField c.cls)) c.fn c.cls us else s
    let s2 := if c.op = .read then recLatency s1 c.fn c.cls us else s1
    meterIo s2 c.fn c.cls (cmdBytes s c / 4096) missed

/-- Bytes of data that a completion returns: 4,096 per sector of a Read, else one per number. -/
def Cmd.dataBytes (c : Cmd) (data : List Nat) : Nat := if c.op = .read then data.length * 4096 else data.length

/-- The entry goes out with its data. A TLS connection that has no record numbers left for them ends without it (R139), and
the command is one of those of R124. -/
def sendEntry (s : State) (c : Cmd) (data : List Nat) : State :=
  let s1 := postN s c.conn c.cid c.st c.dw0 c.dw1 data (c.dataBytes data)
  if (connOf s c.conn).any (fun k => !tlsRoom k (c.dataBytes data + 24)) then countDiscards s1 1 else s1

/-- COMPLETION_COMMIT: the completion entry of a command whose result is ready is committed. Its credits return, and
commands that waited for them are taken. Nothing is posted once the power-loss sequence runs (R355). -/
def completionCommit (conn cid : Nat) (s : State) : State :=
  if s.plRun.isSome then s
  else match s.cmds.find? (fun q => q.2.conn = conn && q.2.cid = cid && q.2.phase = .ready) with
  | some (k, c) =>
    let d := cqeData s c
    pump (account (sendEntry (delCmd d.2 k) c d.1) c)
  | none => s

def execCompletionCommit (conn cid : Nat) (s : State) : Res := done (completionCommit conn cid s)

end Sys2Proof.Machine
end

