-- ==== Sys2Proof/Machine/FwOps.lean ====
section
/-! DEFINITION. Firmware download, commit and activation, debug tokens, provisioning on request, and the continuous health
test (20_boot_and_firmware.md R701–R709; 12_sorrel_keys_cipher.md R460). -/

namespace Sys2Proof.Machine

/-! ### Download (R701) -/

/-- FIRMWARE_IMAGE_DOWNLOAD: NUMD in dword 10, OFST in dword 11, in dwords. -/
def fwDownload (q : Capsule) (data : List Nat) (s : State) : State :=
  admin q (mfOnly [0xFFFFFFFF, 0xFFFFFFFF, 0, 0, 0, 0]) (fun _ s =>
    let n := (q.dw10 + 1) * 4
    let held := if q.dw11 = 0 then [] else s.dlBuf
    if n % 4096 ≠ 0 || q.dw11 % 1024 ≠ 0 || q.dw11 * 4 ≠ held.length || 8388608 < held.length + n || 2097152 < n then
      no stInvalidField
    else if q.len < n then no stSglLength
    else
      let b := held ++ fitBytes n data
      .yes (postOk (setF { s with dlBuf := b } .fwp 0 F.FWP_DL_STAT_BYTES b.length) q.conn q.cid 0 [])) s

/-! ### Commit (R702) -/

/-- A commit completes: its status is recorded. -/
def fwDone (s : State) (q : Capsule) (st : Status) : State := postSt (fwResult s st) q.conn q.cid st

/-- The running slot. -/
def fwRunning (s : State) : Nat := getF s .fwp 0 F.FWP_SLOT_STAT_RUNNING

/-- The slot that FS names: 0 the one that is not running, 1 slot A, 2 slot B. -/
def fwSlot (s : State) (q : Capsule) : Option Nat :=
  match bitsOf q.dw10 2 0 with
  | 0 => some (1 - fwRunning s)
  | 1 => some 0
  | 2 => some 1
  | _ => none

/-- FWP.SVN.MIN. -/
def svnMin (s : State) : Nat := getF s .fwp 0 F.FWP_SVN_MIN

/-- The commit's action runs when dword 10 names it; a commit with bad fields records its status too (R711). -/
def fwCommit (q : Capsule) (ca : Nat) (run : State → State) (s : State) : State :=
  admin q (mfOnly []) (fun _ s =>
    if bitsOf q.dw10 5 3 ≠ ca || (badDword q [0x3F, 0, 0, 0, 0, 0]).isSome then
      .no stInvalidField 0 (fun s => fwResult s stInvalidField)
    else .yes (run s)) s

/-- The package in the buffer is checked. -/
def bufCheck (s : State) (kinds : List Nat) : Option Nat := pkgReason kinds (svnMin s) s.dlBuf

/-- A package passed its checks. -/
def fwPassed (s : State) : State := setF s .fwp 0 F.FWP_RESULT_REASON 0

/-- A slot becomes NEXT. -/
def fwNext (s : State) (n : Nat) (trial : Bool) : State :=
  setF (setF s .fwp 0 F.FWP_SLOT_STAT_NEXT n) .fwp 0 F.FWP_SLOT_STAT_TRIAL trial.toNat

/-- A firmware package of the buffer goes into a slot; `trial` makes the slot NEXT. Its valid mark is cleared first. -/
def fwStore (q : Capsule) (w : SlotEnd) (trial : Bool) (s : State) : State :=
  match fwSlot s q with
  | none => fwDone s q stInvalidSlot
  | some n =>
    if n = fwRunning s then fwDone s q stInvalidSlot
    else match bufCheck s [1] with
    | some r => fwDone (pkgRefused s 3 r) q stInvalidImage
    | none =>
      let s1 := slotClear (fwPassed s) n
      match w with
      | .cut => s1
      | .mismatch => fwDone s1 q stInvalidImage
      | .matched =>
        let s2 := slotWrite s1 n s1.dlBuf
        fwDone (if trial then fwNext s2 n true else s2) q stOk

/-- FW_COMMIT_REPLACE: a board profile package is sealed for the next start-up, only in SERVICE. -/
def fwReplace (q : Capsule) (p : Profile) (w : SlotEnd) (s : State) : State :=
  fwCommit q 0 (fun s =>
    if pkgKind s.dlBuf = 2 then
      if s.mode ≠ .service then fwDone s q stActProhibited
      else match bufCheck s [2] with
        | some r => fwDone (pkgRefused s 3 r) q stInvalidImage
        | none => fwDone { fwPassed s with sealedProfile := some p } q stOk
    else fwStore q w false s) s

/-- FW_COMMIT_REPLACE_TRIAL. -/
def fwReplaceTrial (q : Capsule) (w : SlotEnd) (s : State) : State := fwCommit q 1 (fwStore q w true) s

/-- FW_COMMIT_SELECT_NEXT. -/
def fwSelectNext (q : Capsule) (s : State) : State :=
  fwCommit q 2 (fun s =>
    match fwSlot s q with
    | none => fwDone s q stInvalidSlot
    | some n =>
      if slotValid s n then fwDone (fwNext s n (decide (n ≠ fwRunning s))) q stOk
      else fwDone s q stInvalidImage) s

/-- FW_COMMIT_ACTIVATE: the slot's package is checked again, then the hold of R188 begins; it ends after `us`, at most
80 ms, with the copy good or not; `ue` is the byte offset of a word of the code SRAM found uncorrectable as the cores start the
image (a corrected word has no effect, R696). -/
def fwActivate (q : Capsule) (us : Nat) (copyOk : Bool) (ue : Option Nat) (s : State) : State :=
  fwCommit q 3 (fun s =>
    match fwSlot s q with
    | none => fwDone s q stInvalidSlot
    | some n =>
      if n = fwRunning s then fwDone s q stInvalidSlot
      else if !slotValid s n then fwDone s q stInvalidImage
      else
        let b := mgetD s.slots n []
        match pkgReason [1] (svnMin s) b with
        | some r => fwDone (pkgRefused s n r) q stInvalidImage
        | none =>
          setF { fwPassed s with
              arb := { s.arb with holdFrom := s.nextCmd, holdTo := s.nextCmd },
              fwHold := some ⟨n, copyOk, pkgSvn b, imageBytes b, ue, q.conn, q.cid, s.now, s.now + min 80000 us * 1000⟩ }
            .cfe 0 F.CFE_STAT_HOLDING 1) s

/-! ### Debug tokens (R705, R706) -/

/-- A new challenge. -/
def newChallenge (s : State) : State :=
  let a := takeFree s
  let b := takeFree a.2
  let x := (Config.freeRandom a.1).toNat
  let y := (Config.freeRandom b.1).toNat
  let s1 := setF (setF b.2 .dbg 0 F.DBG_CHAL0_BYTES x) .dbg 0 F.DBG_CHAL1_BYTES (x / 2 ^ 32)
  setF (setF s1 .dbg 0 F.DBG_CHAL2_BYTES y) .dbg 0 F.DBG_CHAL3_BYTES (y / 2 ^ 32)

/-- The current challenge, CHAL0 first. -/
def challenge (s : State) : List Nat :=
  leBytes 4 (getF s .dbg 0 F.DBG_CHAL0_BYTES) ++ leBytes 4 (getF s .dbg 0 F.DBG_CHAL1_BYTES) ++
  leBytes 4 (getF s .dbg 0 F.DBG_CHAL2_BYTES) ++ leBytes 4 (getF s .dbg 0 F.DBG_CHAL3_BYTES)

/-- A token is accepted (R706). -/
def debugOk (s : State) (t : List Nat) : Bool :=
  pkgField t 0 4 = 0x4B544244 && pkgField t 0x08 16 = Config.serial % 2 ^ 128 && pkgBytes t 0x18 16 = challenge s &&
  pkgField t 0x28 1 ≤ 3 && ofLe (sha384 (pkgBytes t 0x30 97)) = Config.keyDigest 1 (pkgField t 0x28 1) &&
  ecdsaVerify (pkgBytes t 0x30 97) (pkgBytes t 0xA0 96) (pkgBytes t 0 0xA0)

/-- Sorrel zeroes its key store, every key slot and its working keys; the sealed records in MRAM stay. A TLS connection keeps
its transport slot, which holds zeros. -/
def zeroKeys (s : State) : State :=
  setF { s with nsKeys := [], mfEnroll := none, tslots := s.tslots.map (fun q => (q.1, 0)), cjobs := [], cctx := [],
                tenants := s.tenants.map (fun q => (q.1, { q.2 with enroll := none, psk := [], secrets := [] })),
                migs := s.migs.map (fun q => (q.1, { q.2 with ek := none })),
                cores := s.cores.map (fun q => (q.1, { q.2 with cache := [] })) } .mtr 0 F.MTR_STAT_MK_READY 0

/-- DEBUG_TOKEN. -/
def debugToken (q : Capsule) (data : List Nat) (s : State) : State :=
  vendor q [0, 0, 0, 0, 0, 0] noField (fun s =>
    if s.mode ≠ .service then .yes (postSt s q.conn q.cid stSequenceError)
    else if q.len < 256 then no stSglLength
    else
      let t := fitBytes 256 data
      if debugOk s t then
        let s1 := zeroKeys s
        let s2 := setF (setF s1 .dbg 0 F.DBG_TOKEN_ACCEPTED 1) .dbg 0 F.DBG_TOKEN_SINCE_POR 1
        .yes (postOk (newChallenge (setF s2 .dbg 0 F.DBG_TOKEN_SCOPE (pkgField t 4 1 % 4))) q.conn q.cid 0 [])
      else .yes (postSt (newChallenge (bump s .dbg 0 F.DBG_FAILS_COUNT)) q.conn q.cid stInvalidField)) s

/-! ### Provisioning on request (R708), the continuous health test (R460) -/

/-- The erase counts of a flash die. -/
def dieErases (s : State) (d : Nat) : FMap Nat :=
  (s.blks.filter (fun q => q.1 / 8192 = d && q.2.erases ≠ 0)).map (fun q => (q.1 % 8192, q.2.erases))

/-- The erase counts are kept with the unique IDs. -/
def keepErases (s : State) : FMap (FMap Nat) := s.dieRecs.foldl (fun m q => mset m q.2.unique (dieErases s q.1)) s.eraseBook

/-- PROVISION_RESET. -/
def provisionReset (q : Capsule) (s : State) : State :=
  vendor q [0, 0, 0, 0, 0, 0] noField (fun s =>
    .yes (if s.mode = .service && s.tenants.all (fun t => t.2.state = .free) && s.diesets.isEmpty then
      postOk { s with geometry := false, oos := { cores := s.oos.cores }, eraseBook := keepErases s, blks := [],
                       dieRecs := [] } q.conn q.cid 0 []
    else postSt s q.conn q.cid stSequenceError)) s

/-- HEALTH_TEST_FAIL. -/
def healthFail (s : State) : State := if s.mode = .reset then s else partReset 5 0x2000 0 0 s

end Sys2Proof.Machine
end

