-- ==== Sys2Proof/Machine/Firmware.lean ====
section
/-! DEFINITION. The meanings of the firmware, debug and provisioning commands (20_boot_and_firmware.md R701–R708;
12_sorrel_keys_cipher.md R460). -/

namespace Sys2Proof.Machine

def execFirmwareImageDownload (q : Capsule) (data : List Nat) (s : State) : Res :=
  done (inTurn q (.firmwareImageDownload q data) false (fwDownload q data) s)
def execFwCommitReplace (q : Capsule) (p : Profile) (w : SlotEnd) (s : State) : Res :=
  done (inTurn q (.fwCommitReplace q p w) false (fwReplace q p w) s)
def execFwCommitReplaceTrial (q : Capsule) (w : SlotEnd) (s : State) : Res :=
  done (inTurn q (.fwCommitReplaceTrial q w) false (fwReplaceTrial q w) s)
def execFwCommitSelectNext (q : Capsule) (s : State) : Res :=
  done (inTurn q (.fwCommitSelectNext q) false (fwSelectNext q) s)
def execFwCommitActivate (q : Capsule) (us : Nat) (c : CopyEnd) (s : State) : Res :=
  done (inTurn q (.fwCommitActivate q us c) false (fwActivate q us c.good c.ue) s)
def execDebugToken (q : Capsule) (data : List Nat) (s : State) : Res :=
  done (inTurn q (.debugToken q data) false (debugToken q data) s)
def execProvisionReset (q : Capsule) (s : State) : Res :=
  done (inTurn q (.provisionReset q) false (provisionReset q) s)
def execHealthTestFail (s : State) : Res := done (healthFail s)

end Sys2Proof.Machine
end

