-- ==== Sys2Proof/Machine/FlashOps.lean ====
section
/-! DEFINITION. How flash operations end and what follows: programs and paired word-line groups, program failures, erases,
timeouts, read-after-write samples, diagnostic reads, calibration (09_flash_lanes_thyme.md R371, R379–R388, R396;
07_translation_and_wear.md R310; 08_map_durability.md R346, R347; 10_signal_channel.md R425, R426). -/

namespace Sys2Proof.Machine

/-! ### Programs (R276, R346, R347, R425) -/

/-- The program unit of a position in a row no longer needs its slots. -/
def clearSlots (b : Band) (r pos : Nat) : Band :=
  if (b.parities r).contains pos then b
  else { b with slots := (List.range (4 * b.bits)).foldl (fun m j => mdel m (b.slotOf r pos j)) b.slots }

/-- The staged units whose slots lie in some rows of a position. -/
def unitsAt (s : State) (h : Nat) (b : Band) (rows : List Nat) (pos : Nat) : List Nat :=
  (s.staged.filter (fun q => match q.2.slot with
    | some (h', sl) => h' = h && (b.place sl).2.1 = pos && rows.contains (b.place sl).1
    | none => false)).map Prod.fst

/-- Staged copies that nothing keeps any more are given up; copies of a relocation stay until their commit. -/
def releaseUnits (s : State) (us : List Nat) : State :=
  { s with staged := s.staged.filter (fun q => !(us.contains q.1 && q.2.complete && !q.2.reloc)) }

/-- The word lines of a group that are sampled (R425). -/
def sampleRows (s : State) (b : Band) (pos : Nat) (rows : List Nat) : List Nat :=
  let rate := getF s .sig (tileOfDie (b.die pos)) F.SIG_RAW_CTRL_RAW_RATE
  rows.filter (fun w => w = 0 || (rate ≠ 0 && (w + b.blk pos) % rate = 0))

/-- A sample of a word line begins: one read of each of its plane pages. -/
def sampleStart (s : State) (h : Nat) (b : Band) (pos cls w : Nat) : State :=
  let d := b.die pos
  let s1 := { s with raws := s.raws ++ [⟨h, w, pos, cls, 4 * b.bits, getF s .sig (tileOfDie d) F.SIG_RAW_CTRL_RAW_THR⟩] }
  (List.range (4 * b.bits)).foldl (fun s j => feed s {
    kind := .read, die := d, pua := b.puaOf w pos j, owner := .raw h w pos, cls := cls, deadline := 0, susp := 1 ≤ cls,
    cws := [w % 4], bg := 28 ≤ b.stream }) s1

/-- A paired word-line group whose last word line has been programmed is complete: its units are durable, samples begin,
and without one the staged copies are given up. -/
def groupEnd (s : State) (h r pos : Nat) : State :=
  match bandAt s h with
  | some b =>
    let rows := groupRows s b r
    if rows.all (fun w => b.done.contains (unitCode w pos)) then
      let us := unitsAt s h b rows pos
      let cls := us.foldl (fun c u => match stAt s u with
        | some x => x.secs.foldl (fun c p => max c p.2.sec.cls) c
        | none => c) 0
      let s0 := rows.foldl (fun s w => if (b.parities w).contains pos then dropAcc s h (b.accCode w pos) else s) s
      let s1 := { s0 with staged := s0.staged.map (fun q => if us.contains q.1 then (q.1, { q.2 with complete := true }) else q) }
      let ws := sampleRows s1 b pos rows
      if ws.isEmpty then releaseUnits s1 us else ws.foldl (fun s w => sampleStart s h b pos cls w) s1
    else s
  | none => s

/-- A program ended OK. -/
def programOk (s : State) (h r pos : Nat) : State :=
  match bandAt s h with
  | some b =>
    let s1 := { s with flash := (unitPages s b r pos).foldl (fun m p => mset m p.1 p.2) s.flash }
    let s2 := modBand s1 h (fun b => clearSlots { b with done := unitCode r pos :: b.done } r pos)
    groupEnd (sendParity s2 h r) h r pos
  | none => s

/-- Queued programs of a block that will not be programmed are withdrawn. -/
def withdraw (s : State) (die blk : Nat) : State :=
  let gone (o : FlashOp) : Bool := o.die = die && !o.isRead && puaBlk o.pua = blk
  modDie { s with feeds := s.feeds.filter (fun o => !gone o) } die (fun x => { x with
    queue := x.queue.filter (fun o => !gone o), descs := x.descs.filter (fun o => !gone o),
    opPlace := x.opPlace.filter (fun o => !gone o) })

/-- A member's block takes no more programs: the current stripe row is completed, the band closes, the staged units aimed
at the block from the failing group on are placed anew, and the band is queued for refresh (R310, R388). -/
def bandFail (s : State) (h r pos : Nat) : State :=
  match bandAt s h with
  | some b =>
    let die := b.die pos
    let blk := b.blk pos
    let row := (b.next - 1) / max 1 b.per
    let first := (groupRows s b r).headD r
    let rows := (List.range b.rows).filter (first ≤ ·)
    let lost := (rows.filter (fun w => w ≤ row && !b.done.contains (unitCode w pos))).map (unitCode · pos)
    let s1 := withdraw (modBand s h (fun b => { b with failed := b.failed ++ lost })) die blk
    let s2 := b.members.length.fold (fun p _ s => fillUnit s h row p) s1
    let us := (unitsAt s2 h b rows pos).filter (fun u => match stAt s2 u with
      | some x => !x.complete
      | none => false)
    let s3 := queueRefresh (placeAnew (closeBand s2 h) us) h
    (rows.filter (· ≤ row)).foldl (fun s w => sendParity s h w) s3
  | none => s

/-- The pages of a program unit hold nothing that can be read. -/
def spoilUnit (s : State) (h r pos : Nat) : State :=
  match bandAt s h with
  | some b => { s with flash := (List.range (4 * b.bits)).foldl (fun m j =>
      mset m (b.puaOf r pos j) [.garbled, .garbled, .garbled, .garbled]) s.flash }
  | none => s

/-- Units of a program unit of which no staged copy is left: what the map holds there is lost (R310). -/
def loseUnstaged (s : State) (b : Band) (r pos : Nat) : State :=
  let pages := (List.range (4 * b.bits)).filterMap (fun j => match mget b.slots (b.slotOf r pos j) with
    | some (.unit u) => if (stAt s u).isNone then some (b.puaOf r pos j) else none
    | _ => none)
  s.nss.foldl (fun s q =>
    loseEntries s q.1 ((q.2.map.filter (fun e => match e.2 with
      | .at p _ => pages.contains p
      | _ => false)).map Prod.fst) 3) s

/-- A program failed: its block is retired. -/
def programFailed (s : State) (h r pos : Nat) : State :=
  match bandAt s h with
  | some b => retireBlock (bandFail (spoilUnit (loseUnstaged s b r pos) h r pos) h r pos) (b.die pos) (b.blk pos)
  | none => s

/-- The result of a program reaches the hub. -/
def progResult (s : State) (h r pos : Nat) (ok : Bool) : State := if ok then programOk s h r pos else programFailed s h r pos

/-- PROGRAM_COMPLETE: the program of a flash die ends with status OK or PROG_FAIL. -/
def programComplete (d : Nat) (ok : Bool) (s : State) : State :=
  match (dieAt s d).cur with
  | some o =>
    (match o.owner with
    | .prog h r pos =>
      let s1 := endCur s d
      let l := laneOfDie d
      let s2 := if ok then s1 else blockError (bump s1 .lan l F.LAN_FAILS_PROGRAM) .lan l 1 1 (o.pua % 2 ^ 32) (o.pua / 2 ^ 32)
      nextOp (if resultsWait s d then holdResult s2 d (.prog h r pos ok) else pump (progResult s2 h r pos ok)) d
    | _ => s)
  | none => s

/-! ### Erases (R307, R337) -/

/-- Pages of a block are erased. -/
def erasePages (s : State) (die blk : Nat) : State :=
  { s with flash := s.flash.filter (fun q => !(puaDie q.1 = die && puaBlk q.1 = blk)) }

/-- An erase ended OK: the block's count rises and is journalled, and programs that waited for it go on. -/
def eraseOk (s : State) (die blk : Nat) : State :=
  let n := (blkOf s die blk).erases + 1
  let s1 := modBlk (erasePages s die blk) die blk (fun x => { x with
    erases := n, reads := 0, suspect := 0, dirty := false, asked := false, relBand := 0, waitRec := 0,
    state := if x.state = .queued then .free else x.state })
  let s2 := jStage (recErase s1 n) [.erase die blk n]
  match bandOfBlk s2 die blk with
  | some h => sendBand s2 h
  | none => s2

/-- An erase failed: the block is retired; a band that had taken it closes, and its units there are placed anew. -/
def eraseFailed (s : State) (die blk : Nat) : State :=
  let s1 := (match bandOfBlk s die blk with
    | some h => (match bandAt s h with
      | some b => bandFail s h 0 (b.members.findIdx (fun m => m.2.1 = die && m.2.2 = blk))
      | none => s)
    | none => s)
  retireBlock s1 die blk

/-- The result of an erase reaches the hub. -/
def eraseResult (s : State) (die blk : Nat) (ok : Bool) : State := if ok then eraseOk s die blk else eraseFailed s die blk

/-- ERASE_COMPLETE: the erase of a flash die ends with status OK or ERASE_FAIL. -/
def eraseComplete (d : Nat) (ok : Bool) (s : State) : State :=
  match (dieAt s d).cur with
  | some o =>
    (match o.owner with
    | .erase die blk =>
      let s1 := endCur s d
      let l := laneOfDie d
      let p := mkPua d 0 blk 0
      let s2 := if ok then s1 else blockError (bump s1 .lan l F.LAN_FAILS_ERASE) .lan l 2 2 (p % 2 ^ 32) (p / 2 ^ 32)
      nextOp (if resultsWait s d then holdResult s2 d (.erase die blk ok) else pump (eraseResult s2 die blk ok)) d
    | _ => s)
  | none => s

/-! ### Reads (R320, R379) -/

/-- READ_COMPLETE: the read of a flash die is ready and its codeword goes to whoever asked. -/
def readComplete (d : Nat) (s : State) : State :=
  match (dieAt s d).cur with
  | some o =>
    if !o.isRead then s
    else
      let s1 := countRead (busOut (endCur s d) d (readCycles s d o)) o.pua
      let s2 := (match o.owner with
        | .climb g => descReadDone s1 g
        | .raw h w pos => { s1 with raws := s1.raws.map (fun x =>
            if x.band = h && x.row = w && x.mem = pos then { x with left := x.left - 1 } else x) }
        | .diag => { s1 with lanes := mset s1.lanes (laneOfDie d) { mgetD s1.lanes (laneOfDie d) {} with diagRead := true } }
        | _ => s1)
      nextOp s2 d
  | none => s

/-! ### Read-after-write samples (R425, R426) -/

/-- A word line's sample has ended, with the highest count of differing bits and whether every codeword hard-decoded. -/
def sampleResult (h w pos diff : Nat) (decoded : Bool) (s : State) : State :=
  match s.raws.find? (fun x => x.band = h && x.row = w && x.mem = pos && x.left = 0), bandAt s h with
  | some x, some b =>
    let die := b.die pos
    let t := tileOfDie die
    let rows := groupRows s b w
    let us := unitsAt s h b rows pos
    let s1 := bump { s with raws := s.raws.filter (· ≠ x) } .sig t F.SIG_RAW_SAMPLES_COUNT
    if x.thr < diff || !decoded then
      let p := b.puaOf w pos 0
      let s2 := raise (blockError (bump s1 .sig t F.SIG_RAW_FAILS_COUNT) .sig t 2 (min 0xFFFF diff) (p % 2 ^ 32) (p / 2 ^ 32))
        .sig t F.SIG_INT_RAW_RAW_FAIL
      pump (placeAnew (modBlk s2 die (b.blk pos) (fun k => { k with suspect := k.suspect + 1 })) us)
    else if s1.raws.any (fun y => y.band = h && y.mem = pos && rows.contains y.row) then s1
    else pump (releaseUnits s1 us)
  | _, _ => s

/-- RAW_SAMPLE_DONE: the result reaches the hub, at once or, while the link retrains, after it (R34, R425). -/
def rawSampleDone (h w pos diff : Nat) (decoded : Bool) (s : State) : State :=
  match bandAt s h with
  | some b =>
    if resultsWait s (b.die pos) then holdResult s (b.die pos) (.sample h w pos diff decoded) else sampleResult h w pos diff decoded s
  | none => s

/-! ### Timeouts and stuck LUNs (R381) -/

/-- Maximum time of an operation. -/
def opMax (s : State) (o : FlashOp) : Nat :=
  match o.kind with
  | .read => tRead s o.die
  | .program => tProg s o.die
  | .slcProgram => tSlc s o.die
  | .erase => tErase s o.die

/-- An operation was ended without its result: a read counts as not decoded, a program as failed, an erase is repeated. -/
def opLost (s : State) (o : FlashOp) : State :=
  match o.owner with
  | .climb g => descReadLost s g
  | .prog h r pos => programFailed s h r pos
  | .erase _ _ => feed s { o with since := 0, ran := 0, nsusp := 0, entered := s.now }
  | .raw h w pos => { s with raws := s.raws.map (fun x =>
      if x.band = h && x.row = w && x.mem = pos then { x with left := x.left - 1 } else x) }
  | .diag => diagEnd s (laneOfDie o.die) 8 0

/-- The same, with what the hub learns of it held while the link retrains (R34). -/
def opEnds (s : State) (o : FlashOp) : State := if resultsWait s o.die then holdResult s o.die (.lost o) else opLost s o

/-- Transfer rate of a lane in MT/s (R401). -/
def laneMts (s : State) (l : Nat) : Nat :=
  match (mgetD s.lanes l ({} : Lane)).rate with
  | 1 => 1600
  | 2 => 2400
  | 3 => 3200
  | _ => 3600

/-- Time that a program's data takes on the bus before its last confirm cycle, which the timeout does not count (R381). -/
def opXfer (s : State) (o : FlashOp) : Nat :=
  if o.isRead || o.kind = .erase then 0
  else 4 * dieBits s o.die * (16384 + getF s .til (tileOfDie o.die) F.TIL_GEOM0_SPARE) * 1000 / laneMts s (laneOfDie o.die)

/-- The operation or the SUSPEND of a flash die has exceeded its time. -/
def timedOut (s : State) (d : Nat) : Bool :=
  let x := dieAt s d
  match x.cur with
  | some o =>
    decide (2 * opMax s o + opXfer s o + 2 * tRes s d * o.nsusp < o.ran + (s.now - o.since)) ||
      (x.suspSent && decide (x.susAt + 2 * tSusp s d < s.now))
  | none => false

/-- OPERATION_TIMEOUT: the lane sends RESET_LUN and the operation ends TIMEOUT; a suspended one does not survive it. -/
def operationTimeout (d : Nat) (s : State) : State :=
  match (dieAt s d).cur with
  | some o =>
    if timedOut s d && (dieAt s d).resetAt.isNone then
      let l := laneOfDie d
      let sus := (dieAt s d).sus
      let s1 := modDie (blockError (bump s .lan l F.LAN_TIMEOUTS_COUNT) .lan l 3 3 (o.pua % 2 ^ 32) (o.pua / 2 ^ 32)) d
        (fun x => { x with cur := none, sus := none, suspSent := false, resetAt := some s.now, gatherAt := none })
      pump ((o :: sus.toList).foldl opEnds (emit (busOut s1 d [0xFA]) (.lane l "reset" d)))
    else s
  | none => s

/-- RESET_LUN_READY: the LUN is ready and the flash die takes its next operation. -/
def resetLunReady (d : Nat) (s : State) : State :=
  if (dieAt s d).resetAt.isSome then nextOp (modDie s d (fun x => { x with resetAt := none, st := .idle })) d else s

/-- LUN_STUCK: 10 ms after RESET_LUN the LUN is not ready, and the flash die leaves service. -/
def lunStuck (d : Nat) (s : State) : State :=
  match (dieAt s d).resetAt with
  | some t =>
    if t + 10000000 ≤ s.now then
      let l := laneOfDie d
      pump (dieLeaves (raise (blockError s .lan l 4 6 (d * 2 ^ 26 % 2 ^ 32) (d * 2 ^ 26 / 2 ^ 32)) .lan l F.LAN_INT_RAW_DIE_FAULT) d)
    else s
  | none => s

/-! ### Diagnostic reads (R396, R402) -/

/-- A write of LANnn.DIAG_CTRL.GO: the read of one codeword begins, or ends at once with its reason. -/
def diagGo (s : State) (l : Nat) : State :=
  if getF s .lan l F.LAN_DIAG_STAT_BUSY = 1 then s
  else
    let pua := getF s .lan l F.LAN_DIAG_PUA_LO_PUA_LO + getF s .lan l F.LAN_DIAG_PUA_HI_PUA_HI * 2 ^ 32
    let d := puaDie pua
    let busy := setF s .lan l F.LAN_DIAG_STAT_BUSY 1
    if laneOfDie d ≠ l then diagEnd busy l 6 0
    else if (dieAt s d).st = .absent then diagEnd busy l 5 0
    else if dieOut s d then diagEnd busy l 4 0
    else feed { busy with lanes := mset busy.lanes l { mgetD busy.lanes l {} with diag := some s.now, diagRead := false } }
      { kind := .read, die := d, pua := pua, owner := .diag, cls := 0, deadline := s.now + clsTarget s 0,
        thr := (let t := getF s .lan l F.LAN_DIAG_CTRL_THR; if t ≤ 5 then t else 0), cws := [getF s .lan l F.LAN_DIAG_CTRL_SUB] }

/-- DIAG_READ_DONE: the codeword's hard decode has ended; a read that has not come within 100 ms ends without it. -/
def diagReadDone (l : Nat) (r : DiagResult) (s : State) : State :=
  let x := mgetD s.lanes l {}
  match x.diag with
  | none => s
  | some t =>
    if x.diagRead then
      if r.zeros ≤ getF s .sig (l / 16) F.SIG_DET_CTRL_ERASED_THR then diagEnd s l 2 0
      else match r.corrected with
      | some n => diagEnd s l 0 n
      | none => diagEnd s l 1 0
    else if t + 100000000 ≤ s.now then
      let keep (o : FlashOp) : Bool := !(o.owner = .diag && laneOfDie o.die = l)
      diagEnd { s with feeds := s.feeds.filter keep,
                       dies := s.dies.map (fun q => (q.1, { q.2 with queue := q.2.queue.filter keep })) } l 7 0
    else s

/-! ### Calibration (R371) -/

/-- A lane is in service. -/
def laneInService (s : State) (l : Nat) : Bool :=
  l < 64 && (mgetD s.lanes l {}).trained && !s.oos.lanes.contains l && !s.oos.tiles.contains (l / 16)

/-- CE_n populated on a lane. -/
def cePop (s : State) (l : Nat) : List Nat := (List.range 8).filter (fun c => getF s .lan l F.LAN_CE_POP_CE / 2 ^ c % 2 = 1)

/-- ZQ_CAL_SHORT: every 128 ms a lane calibrates each populated CE_n. -/
def zqCalShort (l : Nat) (s : State) : State :=
  let x := mgetD s.lanes l {}
  if laneInService s l && decide (x.zqAt + 128000000 ≤ s.now) then
    (cePop s l).foldl (fun s c => emit (emit s (.bus l [0xD9])) (.lane l "ZQ_SHORT" c))
      { s with lanes := mset s.lanes l { x with zqAt := s.now } }
  else s

/-- READ_DQ_TRAIN: the tile's temperature, in units of 1/128 °C, has moved 8 °C since a CE_n was trained. -/
def readDqTrain (l ce : Nat) (temp : Int) (s : State) : State :=
  let x := mgetD s.lanes l {}
  let moved := (match mget x.trainedAtC ce with
    | some t => decide (1024 ≤ (temp - t).natAbs)
    | none => true)
  if laneInService s l && (cePop s l).contains ce && moved then
    emit { s with lanes := mset s.lanes l { x with trainedAtC := mset x.trainedAtC ce temp } } (.lane l "READ_DQ_TRAIN" ce)
  else s

/-! ### Results that waited for a retrain (R34) -/

/-- A climb is at a step from which its waiting result goes on. -/
def rearmClimb (s : State) (id lo hi : Nat) : State :=
  modClimb s id (fun c => if lo ≤ c.step && c.step ≤ hi then { c with decoding := true } else c)

/-- A result reaches the hub. -/
def deliverResult (s : State) : TileRes → State
  | .hard id conv zeros => hardResult id conv zeros (rearmClimb s id 1 3)
  | .soft id conv counts => softResult id conv counts (rearmClimb s id 4 6)
  | .prog h r pos ok => progResult s h r pos ok
  | .erase die blk ok => eraseResult s die blk ok
  | .sample h w pos diff decoded => sampleResult h w pos diff decoded s
  | .lost o => opLost s o

/-- The results that waited in a tile's staging SRAM reach the hub in order, and Cirrus sends on what waited for the link. -/
def deliverResults (s : State) (t : Nat) : State :=
  let s1 := pump ((mgetD s.tileRes t []).foldl deliverResult { s with tileRes := mdel s.tileRes t })
  ((s1.dies.filter (fun q => tileOfDie q.1 = t)).map Prod.fst).foldl fillPlaces s1

end Sys2Proof.Machine
end

