-- ==== Sys2Proof/Machine/ThymeOps.lean ====
section
/-! DEFINITION. The Thyme sequencers: which context runs, how a microword is fetched and executed, and where control goes
(09_flash_lanes_thyme.md R389–R394). -/

namespace Sys2Proof.Machine

/-! ### Fields of a microword (R390) -/

/-- Bits `hi` down to `lo` of a microword. -/
def uw (w : BitVec 128) (hi lo : Nat) : Nat := bitsOf w.toNat hi lo

/-! ### Contexts (R389) -/

/-- The context of a flash die. -/
def thymeOf (s : State) (d : Nat) : Thyme := mgetD s.thyme d {}

/-- Replace a context. -/
def setThyme (s : State) (d : Nat) (x : Thyme) : State := { s with thyme := mset s.thyme d x }

/-- Kind of the operation in the order of the ROM's routines. -/
def FlashKind.code : FlashKind → Nat
  | .read => 0
  | .program => 1
  | .slcProgram => 2
  | .erase => 3

/-- A flash die whose operation has begun has its context started at the routine of its kind. -/
def thymeStart (s : State) (d : Nat) : State :=
  match (dieAt s d).cur with
  | some o =>
    let x := thymeOf s d
    if x.running || x.ready || x.waiting then s
    else setThyme s d { x with pc := Config.thymeEntry o.kind.code % 32768, stack := [], ready := true, readyAt := s.now, cls := o.cls }
  | none => s

/-- Contexts of a lane in the order of CELUN, beginning after the one last run. -/
def laneOrder (s : State) (l : Nat) : List Nat :=
  let last := (mgetD s.lanes l {}).lastCtx
  (List.range 32).map (fun i => l * 32 + (last + 1 + i) % 32)

/-- The context that has the bus. -/
def runningCtx (s : State) (l : Nat) : Option Nat := (laneOrder s l).find? (fun d => (thymeOf s d).running)

/-- The ready context that runs next: the highest class, among equals the next by CELUN. -/
def nextCtx (s : State) (l : Nat) : Option Nat :=
  ((laneOrder s l).filter (fun d => (thymeOf s d).ready)).foldl (fun best d => match best with
    | none => some d
    | some b => if (thymeOf s b).cls < (thymeOf s d).cls then some d else some b) none

/-- BUSWAIT: a ready context of higher class, or of equal class waiting 2 µs or more. -/
def busWait (s : State) (l d : Nat) : Bool :=
  (laneOrder s l).any (fun e => e ≠ d && (thymeOf s e).ready &&
    ((thymeOf s d).cls < (thymeOf s e).cls ||
      ((thymeOf s e).cls = (thymeOf s d).cls && decide ((thymeOf s e).readyAt + 2000 ≤ s.now))))

/-- FAULT: step 2 of the power-loss sequence, or the lane, tile or flash die out of service (R393). -/
def thymeFault (s : State) (d : Nat) : Bool :=
  dieOut s d || (match s.plRun with
    | some p => decide (2 ≤ p.step)
    | none => false)

/-! ### Fetch (R389, R394) -/

/-- The word at an address: from the patch RAM, or from the ROM unless an enabled match register replaces it. -/
def fetchWord (s : State) (a : Nat) : BitVec 128 :=
  if a / 16384 % 2 = 1 then mgetD s.patch (a % 512) 0
  else match s.matchRegs.find? (fun m => m.2.1 = a % 16384) with
    | some m => mgetD s.patch (m.2.2 % 512) 0
    | none => Config.thymeRom (a % 16384)

/-! ### Conditions (R392) -/

/-- An erase or a program is suspended on the flash die. -/
def susKind (s : State) (d : Nat) (k : FlashKind) : Bool :=
  match (dieAt s d).sus with
  | some o => o.kind = k
  | none => false

/-- The value of a condition. -/
def condOf (s : State) (l d : Nat) (x : Thyme) (e : ThymeEnv) (c : Nat) : Bool :=
  match c with
  | 0x01 => x.status / 64 % 2 = 1
  | 0x02 => x.status / 32 % 2 = 1
  | 0x03 => x.status % 2 = 1
  | 0x04 => x.status / 2 % 2 = 1
  | 0x05 => decide (x.timer ≤ s.now)
  | 0x06 => lget x.g 0 = 0
  | 0x07 => e.xferDone
  | 0x08 => mayPreempt s d
  | 0x09 => thymeFault s d
  | 0x0A => susKind s d .erase
  | 0x0B => susKind s d .program || susKind s d .slcProgram
  | 0x0C => e.slc
  | 0x0D => e.otherSet
  | 0x0E => e.lastItem
  | 0x0F => busWait s l d
  | 0x10 => e.flags % 2 = 1
  | 0x11 => e.flags / 2 % 2 = 1
  | 0x12 => e.flags / 4 % 2 = 1
  | 0x13 => e.flags / 8 % 2 = 1
  | _ => false

/-! ### Actions (R390) -/

/-- What a word does beside choosing the next address: bus, timer, ALU, event. A word that waits acts once. -/
def thymeActs (s : State) (l : Nat) (x : Thyme) (e : ThymeEnv) (w : BitVec 128) : State × Thyme :=
  let s1 := if uw w 87 84 = 0 then s else emit s (.lane l "bus" (uw w 87 76))
  let s2 := if uw w 29 26 = 0 then s1 else emit s1 (.lane l "event" (uw w 29 26))
  let st := if uw w 87 84 = 7 then e.status % 256 else x.status
  let t := if uw w 68 53 = 0 then x.timer else s.now + uw w 68 53 * (if uw w 69 69 = 1 then 1000 else 1)
  let dst := uw w 48 46
  let imm := uw w 45 30
  let g := lget x.g dst
  let v := (match uw w 52 49 with
    | 1 => imm
    | 2 => (g + imm) % 65536
    | 3 => (g + 65535) % 65536
    | 4 => g &&& imm
    | 5 => g ||| imm
    | 6 => e.field % 65536
    | 7 => st
    | _ => g)
  (s2, { x with status := st, timer := t, g := lset x.g dst v })

/-! ### Ends -/

/-- The routine ends and posts its status. -/
def thymePost (s : State) (l d : Nat) (x : Thyme) (code : Nat) : State :=
  emit (setThyme s d { x with running := false, ready := false, waiting := false, stack := [] }) (.lane l "status" code)

/-- The operation ends ABORTED under R391. -/
def thymeAbort (s : State) (l d : Nat) (x : Thyme) : State :=
  let s1 := thymePost s l d x 7
  match (dieAt s1 d).cur with
  | some o =>
    let s2 := blockError s1 .lan l 6 7 (o.pua % 2 ^ 32) (o.pua / 2 ^ 32)
    let s3 := endCur s2 d
    nextOp (match o.owner with
      | .diag => diagEnd s3 l 9 0
      | .prog h r pos => pump (bandFail (spoilUnit s3 h r pos) h r pos)
      | _ => opLost s3 o) d
  | none => s1

/-- A call: the return address is pushed on a stack of 4 entries. -/
def thymeCall (s : State) (l d : Nat) (x : Thyme) (ret target : Nat) : State :=
  if 4 ≤ x.stack.length then thymeAbort s l d x
  else setThyme s d { x with stack := ret :: x.stack, pc := target, waiting := false }

/-! ### Next address (R391, R393) -/

/-- The address that FLOW selects, for the words that select one: none ends the routine or faults. -/
inductive FlowTo
  | addr (a : Nat)
  | call (ret target : Nat)
  | pop
  | wait
  | post
  | bad

/-- What FLOW says. -/
def flowOf (s : State) (l d : Nat) (x : Thyme) (e : ThymeEnv) (w : BitVec 128) : FlowTo :=
  let c (hi : Nat) : Nat := (condOf s l d x e (uw w hi (hi - 4))).toNat
  let nx := uw w 127 113
  match uw w 112 110 with
  | 0 => .addr nx
  | 1 => .addr (nx ||| (c 109 * 8 + c 104 * 4 + c 99 * 2 + c 94))
  | 2 => .call nx (uw w 44 30)
  | 3 => .pop
  | 4 => if c 94 = 1 then .addr nx else .wait
  | 5 => .post
  | _ => .bad

/-- The context goes where FLOW says; a context that waits gives up the bus. -/
def flowGo (s : State) (l d : Nat) (x : Thyme) (w : BitVec 128) : FlowTo → State
  | .addr a => setThyme s d { x with pc := a, waiting := false }
  | .call r t => thymeCall s l d x r t
  | .pop => (match x.stack with
    | r :: t => setThyme s d { x with pc := r, stack := t, waiting := false }
    | [] => thymeAbort s l d x)
  | .wait => setThyme s d { x with waiting := true, running := false, ready := false }
  | .post => thymePost s l d x (uw w 25 22)
  | .bad => thymeAbort s l d x

/-- The context gives up the bus and stays ready. -/
def thymeYield (s : State) (d : Nat) : State :=
  let x := thymeOf s d
  if x.running then setThyme s d { x with running := false, ready := true, readyAt := s.now } else s

/-- The address a safe point's call returns to: where FLOW would have gone, or the waiting word itself. -/
def flowRet (x : Thyme) (f : FlowTo) : Nat :=
  match f with
  | .addr a => a
  | .call _ t => t
  | .pop => x.stack.headD 0
  | _ => x.pc

/-- After the word: a safe point looks at FAULT, PREEMPT and BUSWAIT first (R393). -/
def thymeNext (s : State) (l d : Nat) (x : Thyme) (e : ThymeEnv) (w : BitVec 128) : State :=
  let f := flowOf s l d x e w
  let safe := uw w 89 89 = 1
  let progErase := (match (dieAt s d).cur with
    | some o => !o.isRead
    | none => false)
  if safe && thymeFault s d then thymeCall s l d x (flowRet x f) 4
  else if safe && mayPreempt s d && progErase then thymeCall s l d x (flowRet x f) 8
  else if safe && busWait s l d then thymeYield (flowGo s l d x w f) d
  else flowGo s l d x w f

/-- A waiting context whose condition has come, or that stands at a safe point, is ready again. -/
def thymeWake (s : State) (l d : Nat) (e : ThymeEnv) : State :=
  let x := thymeOf s d
  let w := fetchWord s x.pc
  if x.waiting && !x.ready && !x.running && (condOf s l d x e (uw w 94 90) || uw w 89 89 = 1) then
    setThyme s d { x with ready := true, readyAt := s.now }
  else s

/-- The bus goes to the next ready context when none has it. -/
def thymeGrant (s : State) (l : Nat) : State :=
  match runningCtx s l with
  | some _ => s
  | none => (match nextCtx s l with
    | some d =>
      let s1 := setThyme s d { thymeOf s d with running := true, ready := false }
      { s1 with lanes := mset s1.lanes l { mgetD s1.lanes l {} with lastCtx := d % 32 } }
    | none => s)

/-- A lane's contexts before a microword: those of operations that have begun are started, those that waited are woken, and
the bus goes to the next of them if none has it (R389). -/
def laneGranted (s : State) (l : Nat) (e : ThymeEnv) : State :=
  let s1 := (laneOrder s l).foldl thymeStart s
  thymeGrant ((laneOrder s1 l).foldl (fun s d => thymeWake s l d e) s1) l

/-- The context of a flash die executes one microword. -/
def thymeExec (s : State) (l d : Nat) (e : ThymeEnv) : State :=
  let x := thymeOf s d
  let w := fetchWord s x.pc
  let r := if x.waiting then (s, x) else thymeActs s l x e w
  thymeNext (setThyme r.1 d r.2) l d r.2 e w

/-- What a lane does once the bus has been granted. -/
def laneExec (s : State) (l : Nat) (e : ThymeEnv) : State :=
  match runningCtx s l with
  | some d => thymeExec s l d e
  | none => s

/-- THYME_MICROWORD: a lane's sequencer executes one microword of the context that has the bus. -/
def thymeMicroword (l : Nat) (e : ThymeEnv) (s : State) : State := laneExec (laneGranted s l e) l e

end Sys2Proof.Machine
end

