-- ==== Sys2Proof/Machine/Flash.lean ====
section
/-! DEFINITION. The commands of the flash lanes, Cirrus and the signal channel. -/

namespace Sys2Proof.Machine

def execOperationQueued (die : Nat) (s : State) : Res := done (operationQueued die s)
def execGatherExpiry (die : Nat) (s : State) : Res := done (gatherExpiry die s)
def execBulkEscalation (die : Nat) (s : State) : Res := done (bulkEscalation die s)
def execBgWindowEnd (die : Nat) (s : State) : Res := done (bgWindowEnd die s)
def execProgramDeadlinePassed (die : Nat) (s : State) : Res := done (programDeadline die s)
def execLaneDescriptor (die : Nat) (s : State) : Res := done (laneDescriptor die s)
def execReadComplete (die : Nat) (s : State) : Res := done (readComplete die s)
def execProgramComplete (die : Nat) (ok : Bool) (s : State) : Res := done (programComplete die ok s)
def execEraseComplete (die : Nat) (ok : Bool) (s : State) : Res := done (eraseComplete die ok s)
def execSuspendAccepted (die : Nat) (s : State) : Res := done (suspendAccepted die s)
def execRunMinExpiry (die : Nat) (s : State) : Res := done (runMinExpiry die s)
def execSuspendHoldExpiry (die : Nat) (s : State) : Res := done (suspendHoldExpiry die s)
def execOperationTimeout (die : Nat) (s : State) : Res := done (operationTimeout die s)
def execResetLunReady (die : Nat) (s : State) : Res := done (resetLunReady die s)
def execLunStuck (die : Nat) (s : State) : Res := done (lunStuck die s)
def execZqCalShort (lane : Nat) (s : State) : Res := done (zqCalShort lane s)
def execReadDqTrain (lane ce : Nat) (temp : Int) (s : State) : Res := done (readDqTrain lane ce temp s)
def execThymeMicroword (lane : Nat) (e : ThymeEnv) (s : State) : Res := done (thymeMicroword lane e s)
def execDiagReadDone (lane : Nat) (r : DiagResult) (s : State) : Res := done (diagReadDone lane r s)
def execHardDecodeDone (climb : Nat) (converged : Bool) (zeros : Nat) (s : State) : Res :=
  done (hardDecodeDone climb converged zeros s)
def execSoftPassDone (climb : Nat) (converged : Bool) (counts : List (Nat × Nat)) (s : State) : Res :=
  done (softPassDone climb converged counts s)
def execRawSampleDone (band row mem diff : Nat) (decoded : Bool) (s : State) : Res :=
  done (rawSampleDone band row mem diff decoded s)

end Sys2Proof.Machine
end

