-- ==== Sys2Proof/Machine/Journal.lean ====
section
/-! DEFINITION. The commands of the journal: its flush timer and the end of a flush, checkpoints, reservation marks
(08_map_durability.md R338–R345, R352). -/

namespace Sys2Proof.Machine

/-- JOURNAL_FLUSH_TIMER: 64 µs after the oldest staged record arrived, what is staged is flushed. -/
def flushTimer (s : State) : State :=
  match s.jr.oldest with
  | some t => if t + 64000 ≤ s.now then jFlush s else s
  | none => s

/-- SEGMENT_CHECKPOINT: firmware checkpoints a map segment of a key slot whose turn it is, or with no segment named the
tables; then it settles bands and advances the tail, and changes held by the ring go on. -/
def segmentCheckpoint (seg : Option (Nat × Nat)) (s : State) : State :=
  let s1 := match seg with
    | some (k, g) => if segTurn s k g then ckptSeg s k g else s
    | none => ckptTables s
  let s2 := settleBands s1
  pump (releaseWaits (tailAdvance s2 (s2.jr.ring.length + 1)))

/-- The new mark is durable. -/
def Counter.durable (c : Counter) : Counter :=
  match c.wanted with
  | some m => { c with mark := m, wanted := none, waits := false }
  | none => c

/-- MARK_DURABLE: the mark that MRJ was writing is durable, and assignments that waited for it go on. -/
def markDurable (m : MarkOf) (s : State) : State :=
  let s1 := (match m with
    | .wseq k => modNs s k (fun n => { n with wseq := n.wseq.durable })
    | .nonce k => modNs s k (fun n => { n with nonce := n.nonce.durable })
    | .band => { s with bandCtr := s.bandCtr.durable }
    | .deferSeq t => modTenant s t (fun t => { t with deferSeq := t.deferSeq.durable })
    | .sealing => { s with sealCtr := s.sealCtr.durable })
  pump (runActs s1 s1.jr.acts)

def execJournalFlushTimer (s : State) : Res := done (flushTimer s)
def execJournalFlushDone (s : State) : Res := done (flushDone s)
def execSegmentCheckpoint (seg : Option (Nat × Nat)) (s : State) : Res := done (segmentCheckpoint seg s)
def execMarkDurable (m : MarkOf) (s : State) : Res := done (markDurable m s)

end Sys2Proof.Machine
end

