-- ==== Sys2Proof/Machine/Keys.lean ====
section
/-! DEFINITION. The meanings of the commands of Sorrel and the cipher cores (12_sorrel_keys_cipher.md). -/

namespace Sys2Proof.Machine

def execCryptoEraseCommit (k : Nat) (s : State) : Res := done (eraseCommit k s)
def execCryptoEraseDone (k : Nat) (s : State) : Res := done (eraseEnd k s)
def execCipherJobArrival (r : JobReq) (s : State) : Res := done (cipherArrival r s)
def execCipherJobDone (core : Nat) (intact : Bool) (s : State) : Res := done (cipherDone core intact s)
def execSpdmGetVersion (a : SpdmAsk) (s : State) : Res :=
  done (inTurn a.cap (.spdmGetVersion a) false (spdmVersion a.cap a.req) s)
def execSpdmGetCapabilities (a : SpdmAsk) (s : State) : Res :=
  done (inTurn a.cap (.spdmGetCapabilities a) false (spdmCapabilities a.cap a.req) s)
def execSpdmNegotiateAlgorithms (a : SpdmAsk) (s : State) : Res :=
  done (inTurn a.cap (.spdmNegotiateAlgorithms a) false (spdmAlgorithms a.cap a.req) s)
def execSpdmGetDigests (a : SpdmAsk) (s : State) : Res :=
  done (inTurn a.cap (.spdmGetDigests a) false (spdmDigests a.cap a.req) s)
def execSpdmGetCertificate (q : Capsule) (head rest : List Nat) (s : State) : Res :=
  done (inTurn q (.spdmGetCertificate q head rest) false (spdmCertificate q (head ++ rest)) s)
def execSpdmChallenge (q : Capsule) (req : List Nat) (s : State) : Res :=
  done (inTurn q (.spdmChallenge q req) false (spdmChallenge q req) s)
def execSpdmGetMeasurements (q : Capsule) (head rest : List Nat) (s : State) : Res :=
  done (inTurn q (.spdmGetMeasurements q head rest) false (spdmMeasurements q (head ++ rest)) s)
def execSpdmUnsupportedRequest (q : Capsule) (req : List Nat) (s : State) : Res :=
  done (inTurn q (.spdmUnsupportedRequest q req) false (spdmUnsupported q req) s)
def execSecurityReceive (q : Capsule) (s : State) : Res :=
  done (inTurn q (.securityReceive q) false (securityReceive q) s)
def execEnroll (q : Capsule) (ctr form : Nat) (xy : List Nat) (s : State) : Res :=
  done (inTurn q (.enroll q ctr form xy) false (enroll q ctr (form :: xy)) s)
def execBind (q : Capsule) (h : KaHdr) (nsid : Nat) (s : State) : Res :=
  done (inTurn q (.bind q h nsid) false (bind q h nsid) s)
def execStatus (q : Capsule) (h : KaHdr) (s : State) : Res :=
  done (inTurn q (.status q h) false (keyStatus q h) s)

end Sys2Proof.Machine
end

