-- ==== Sys2Proof/Machine/MemOps.lean ====
section
/-! DEFINITION. Transit SRAM, Basil, DRAM with its errors and rank sparing, and the sealed memories
(14_memories_buffers_dram.md). -/

namespace Sys2Proof.Machine

/-- BASIL_RELEASE: a unit that waited for a freed buffer goes on. -/
def basilRelease (pool off shares : Nat) (s : State) : State := pump (releaseBuffer s (bufAt pool off) shares)

/-! ### Lost contents (R528, R547) -/

/-- The parity accumulation of a group of a row is lost: the band closes at the end of the current stripe row, and is queued for
refresh. -/
def closeAfterRow (s : State) (h code : Nat) : State :=
  modBand s h (fun b =>
    let b1 := { b with refresh := true, accs := mmod b.accs code (fun a => { a with bad := true }) }
    if b.closed then b1 else { b1 with rows := min b.rows ((b.freeSlot - 1) / max 1 b.per + 1) })

/-- Read data is lost: the read of the sector is issued again once; a second time it fails. -/
def readLost (s : State) (conn cid off : Nat) : State :=
  match s.cmds.find? (fun q => q.2.conn = conn && q.2.cid = cid && q.2.op = .read &&
      ((mget q.2.data off).isSome || (mget q.2.plain off).isSome)) with
  | some (k, c) =>
    if s.dram.again.contains (k, off) then
      readFail (modCmd s k (fun c => { c with phase := .dispatched, data := mdel c.data off })) k off stUnrecovered
    else
      let s1 := modCmd { s with dram := { s.dram with again := (k, off) :: s.dram.again } } k (fun c => { c with
        phase := .dispatched, data := mdel c.data off, plain := mdel c.plain off, left := c.left ++ [off] })
      match c.nsk.bind (nsAt s), mget c.places off with
      | some n, some p => readAt s1 k c n off p
      | _, _ => s1
  | none => s

/-- Staged sectors are lost: they leave their staged units. -/
def unstage (s : State) (k : Nat) (hit : Sector → Bool) : State :=
  let gone (q : Nat × StUnit) : Bool := q.2.nsk = k && !q.2.reloc && q.2.zoned && q.2.secs.any (fun p => hit p.2.sec)
  let s1 := (s.staged.filter gone).foldl (fun s q => match q.2.slot with
    | some (h, sl) => modBand s h (fun b => { b with slots := if (mget b.slots sl).isSome then mset b.slots sl .filler else b.slots })
    | none => s) s
  { s1 with staged := (s1.staged.filter (fun q => !gone q)).map (fun q =>
      if q.2.nsk = k && !q.2.reloc && !q.2.zoned then
        (q.1, { q.2 with cws := q.2.cws.map (fun x => x.bind (fun x => if hit x.sec then none else some x)) })
      else q) }

/-- Acknowledged staged sectors are lost: POISON with CAUSE 0x01, and the report (R175). -/
def loseAcked (s : State) (k : Nat) (sectors : List Nat) : State :=
  match nsAt s k with
  | some n => loseEntries (unstage s k (fun x => sectors.contains x.lsa)) k (sectors.map (entIdx n)) 1
  | none => s

/-- A write that is not acknowledged fails with Data Transfer Error. Conventional entries keep their old values; the sectors
assigned in a zone are marked POISON (R258). -/
def failWrite (s : State) (conn cid : Nat) : State :=
  match s.cmds.find? (fun q => q.2.conn = conn && q.2.cid = cid && q.2.op.writes && q.2.phase ≠ .ready) with
  | some (k, c) =>
    let hit (x : Sector) : Bool := some x.nsk = c.nsk && c.wseq ≤ x.wseq && x.wseq < c.wseq + c.nlb
    let s1 := (match c.phase, c.nsk, c.nsk.bind (nsAt s) with
      | .dispatched, some slot, some n =>
        if n.zoned then
          loseEntries (unstage s slot hit) slot ((List.range c.nlb).map (fun o => entIdx n (c.slba + o))) 1
        else
          let us := s.staged.filter (fun q => c.units.contains q.1)
          let s0 := us.foldl (fun s q => match q.2.slot with
            | some (h, sl) => q.2.secs.foldl (fun s p =>
              let l := p.2.sec.lsa
              let here : Option MapEnt := (bandAt s h).map (fun b => .at (b.slotPua sl) p.1)
              match nsAt s slot, q.2.olds.find? (fun o => o.1 = l) with
              | some n, some o => if hit p.2.sec && entOf n l = here then setEnt s slot l o.2 else s
              | _, _ => s) s
            | none => s) s
          unstage s0 slot hit
      | _, _, _ => s)
    finishCmd s1 k stDataTransfer 0 0
  | none => s

/-! ### Transit SRAM (R528, R559) -/

/-- TRANSIT_SRAM_UE at a byte offset. -/
def sramUe (off : Nat) (c : SramContent) (s : State) : State :=
  let s1 := raise (blockError (bump s .bas 0 F.BAS_ECC_UNC) .bas 0 1 0 (off % 2 ^ 32) 0) .bas 0 F.BAS_INT_RAW_UNC
  match c with
  | .capsule conn => connsLost s1 [conn]
  | .readData conn cid o => pump (readLost s1 conn cid o)
  | .parity h code => closeAfterRow s1 h code
  | .tables => { s1 with doom := some (s1.doom.getD (pageNo .bas 0, off % 2 ^ 32, 0)) }

/-! ### DRAM ranks (R539, R543–R549) -/

/-- Ranks per DIMM. -/
def ranksPer (s : State) : Nat := max 1 (getF s .drx 0 F.DRX_CONFIG_RANKS)

/-- The field of a rank in a DRCn register: rank 0 in the low half. -/
def rankFld (r : Nat) (r0 r1 : Fld) : Fld := if r % 2 = 0 then r0 else r1

/-- State of a rank: 0 absent, 1 in service, 2 spare, 3 being copied, 4 retired. -/
def rankState (s : State) (r : Nat) : Nat := getF s .drc (r / 2) (rankFld r F.DRC_RANK_STAT_RANK0 F.DRC_RANK_STAT_RANK1)

/-- Set the state of a rank. -/
def setRank (s : State) (r v : Nat) : State := setF s .drc (r / 2) (rankFld r F.DRC_RANK_STAT_RANK0 F.DRC_RANK_STAT_RANK1) v

/-- The spare and the rank it replaces. -/
def spareRank (s : State) : Nat := getF s .drx 0 F.DRX_SPARE_SPARE_CH * 2 + getF s .drx 0 F.DRX_SPARE_SPARE_RANK
def failedRank (s : State) : Nat := getF s .drx 0 F.DRX_SPARE_FAILED_CH * 2 + getF s .drx 0 F.DRX_SPARE_FAILED_RANK

/-- Position of a rank in the interleave. -/
def rankPos (s : State) (r : Nat) : Nat :=
  let q := if r = spareRank s then failedRank s else r
  ((List.range 16).filter (fun x => x < q && x ≠ spareRank s && rankState s x ≠ 0)).length

/-- In-service byte address of a rank-local address. -/
def insvcAddr (s : State) (r a : Nat) : Nat :=
  (a / 4096 * getF s .drx 0 F.DRX_CONFIG_RANKS_INSVC + rankPos s r) * 4096 + a % 4096

/-- Bytes of a rank. -/
def rankBytes (s : State) : Nat := 16 * 2 ^ getF s .drx 0 F.DRX_CONFIG_DIMM * 2 ^ 30 / ranksPer s

/-- Pieces the copy has passed: 2 bytes per ns (R545). -/
def copyPieces (s : State) : Nat :=
  match getF s .drx 0 F.DRX_SPARE_STATE with
  | 1 => min (rankBytes s / 4096) (2 * (s.now - s.dram.copyAt) / 4096)
  | _ => getF s .drx 0 F.DRX_COPY_PTR_PIECES

/-- A rank in service fails: the spare takes its place if it is ready. One that failed with no spare has failed once (R548). -/
def rankFail (s : State) (r : Nat) : State :=
  if rankState s r ≠ 1 || s.dram.noSpare.contains r then s
  else if getF s .drx 0 F.DRX_SPARE_STATE = 0 then
    let s1 := setRank s r 3
    let s2 := setF (setF (setF (setF s1 .drx 0 F.DRX_SPARE_STATE 1) .drx 0 F.DRX_SPARE_FAILED_CH (r / 2)) .drx 0
      F.DRX_SPARE_FAILED_RANK (r % 2)) .drx 0 F.DRX_COPY_PTR_PIECES 0
    raise { s2 with dram := { s2.dram with copyAt := s.now, retired := some (r, mgetD s.dram.serials (r / 2) 0) } } .drx 0
      F.DRX_INT_RAW_SPARE_START
  else raise (blockError { s with dram := { s.dram with noSpare := r :: s.dram.noSpare } } .drx 0 1 r 0 0) .drx 0
    F.DRX_INT_RAW_NO_SPARE

/-- SPARE_COPY_DONE. -/
def copyDone (s : State) : State :=
  if getF s .drx 0 F.DRX_SPARE_STATE = 1 && decide (rankBytes s ≤ 2 * (s.now - s.dram.copyAt)) then
    let s1 := setF (setRank (setRank s (failedRank s) 4) (spareRank s) 1) .drx 0 F.DRX_COPY_PTR_PIECES (rankBytes s / 4096)
    raise (setF s1 .drx 0 F.DRX_SPARE_STATE 2) .drx 0 F.DRX_INT_RAW_SPARE_DONE
  else s

/-- CE_WIN_H in ns. -/
def ceWindow (s : State) : Nat := max 1 (getF s .drx 0 F.DRX_SPARE_CTRL_CE_WIN_H) * 3600000000000

/-- Corrected errors of a rank within the window (R544, R565). -/
def ceCount (s : State) (r : Nat) : Nat := ((mgetD s.dram.ce r []).filter (fun t => s.now < t + ceWindow s)).length

/-- A rank whose corrected errors within the window exceed CE_THR crosses the threshold and fails, once until they are back at
it (R544). -/
def ceJudge (s : State) (r : Nat) : State :=
  if ceCount s r ≤ getF s .drx 0 F.DRX_SPARE_CTRL_CE_THR then { s with dram := { s.dram with above := s.dram.above.filter (· ≠ r) } }
  else if s.dram.above.contains r then s
  else rankFail (raise (blockError { s with dram := { s.dram with above := r :: s.dram.above } } .drc (r / 2) 2 (r % 2) 0 0) .drc (r / 2)
    F.DRC_INT_RAW_CE_THR) r

/-- DRAM_CORRECTED_ERROR. -/
def dramCe (r : Nat) (s : State) : State :=
  if rankState s r = 0 || rankState s r = 4 then s
  else
    let s1 := bump s .drc (r / 2) (rankFld r F.DRC_CE_RANK0 F.DRC_CE_RANK1)
    let times := (mgetD s1.dram.ce r []).filter (fun t => s.now < t + ceWindow s)
    ceJudge { s1 with dram := { s1.dram with ce := mset s1.dram.ce r (s.now :: times), above := s1.dram.above.filter (fun x =>
      x ≠ r || getF s .drx 0 F.DRX_SPARE_CTRL_CE_THR < times.length) } } r

/-- A write of SPARE_CTRL: every rank in service is judged by its new threshold and window, and FORCE fails the rank it
names. -/
def spareCtrl (force : Bool) (s : State) : State :=
  let s1 := ((List.range 16).filter (fun r => rankState s r = 1)).foldl ceJudge s
  if force then rankFail s1 (getF s .drx 0 F.DRX_SPARE_CTRL_FORCE_CH * 2 + getF s .drx 0 F.DRX_SPARE_CTRL_FORCE_RANK) else s1

/-- Row of the table of R547, counted from 1. -/
def DramContent.row : DramContent → Nat
  | .mapSegment => 1
  | .table => 2
  | .acked _ _ => 3
  | .unacked _ _ => 4
  | .stagingWrite _ _ => 5
  | .readData _ _ _ => 6
  | .migBitmap _ _ _ _ => 7
  | .migRing _ _ => 8
  | .firmware => 9
  | .parity _ _ => 10

/-- Count of DRX.LOST for a row (R562). -/
def DramContent.count : DramContent → Fld
  | .mapSegment => F.DRX_LOST_MAP
  | .table => F.DRX_LOST_TABLE
  | .firmware => F.DRX_LOST_TABLE
  | .acked _ _ => F.DRX_LOST_STAGED
  | .unacked _ _ => F.DRX_LOST_STAGED
  | .stagingWrite _ _ => F.DRX_LOST_STAGED
  | .readData _ _ _ => F.DRX_LOST_STAGED
  | _ => F.DRX_LOST_OTHER

/-- Units of a bitmap line: 512 bits. -/
def bitsLine (b : MigBits) (u : Nat) : MigBits := (List.range 512).foldl (fun b i => b.set (u + i)) b

/-- Change a copy of a migration's log. -/
def modLog (s : State) (t : Nat) (snap : Bool) (f : MigLog → MigLog) : State :=
  modMig s t (fun m => if snap then { m with snap := f m.snap } else { m with live := f m.live })

/-- What becomes of the content of a lost line (R547). -/
def lostLine (c : DramContent) (addr : Nat) (s : State) : State :=
  match c with
  | .mapSegment => s
  | .table => s
  | .acked k l => loseAcked s k l
  | .unacked conn cid => pump (failWrite s conn cid)
  | .stagingWrite conn cid => pump (failWrite s conn cid)
  | .readData conn cid o => pump (readLost s conn cid o)
  | .migBitmap t nsid u snap =>
    modLog s t snap (fun l => { l with bits := mset l.bits nsid (bitsLine (mgetD l.bits nsid {}) (u / 512 * 512)) })
  | .migRing t snap => modLog s t snap (fun l => { l with ovf := true })
  | .firmware => { s with doom := some (s.doom.getD (pageNo .drx 0, addr % 2 ^ 32, addr / 2 ^ 32)) }
  | .parity h code => closeAfterRow s h code

/-- A rank that accesses reach at a rank-local address: one in service, and during a copy the spare for the pieces copied and
the failing rank for the others (R546). -/
def reached (s : State) (r a : Nat) : Bool :=
  match rankState s r with
  | 1 => true
  | 2 => getF s .drx 0 F.DRX_SPARE_STATE = 1 && decide (a / 4096 < copyPieces s)
  | 3 => decide (copyPieces s ≤ a / 4096)
  | _ => false

/-- DRAM_UE at a rank-local address. `replaced` says that a write replaces the line in the same cycle (R550). -/
def dramUe (r a : Nat) (c : DramContent) (replaced : Bool) (s : State) : State :=
  if !reached s r a then s
  else
    let s1 := raise (blockError (bump s .drc (r / 2) (rankFld r F.DRC_UE_RANK0 F.DRC_UE_RANK1)) .drc (r / 2) 1 (r % 2)
      (a % 2 ^ 32) (a / 2 ^ 32)) .drc (r / 2) F.DRC_INT_RAW_UE
    let addr := insvcAddr s r a
    let m := mccLost addr s1
    let s2 := if m.1 || replaced then m.2
      else lostLine c addr (raise (blockError (bump m.2 .drx 0 c.count) .drx 0 2 c.row (addr % 2 ^ 32) (addr / 2 ^ 32)) .drx 0
        F.DRX_INT_RAW_LOST)
    rankFail s2 r

/-- Period of R541 in ns. -/
def retrainPeriod (s : State) : Nat := max 8 (getF s .drx 0 F.DRX_RETRAIN_PERIOD_MS) * 1000000

/-- DRAM_RETRAIN of a channel: its pause of the present period begins, of a length in ns. -/
def dramRetrain (ch : Fin 8) (ns : Nat) (s : State) : State :=
  let p := retrainPeriod s
  let at1 := ch.val * p / 8
  let n := (s.now - at1) / p + 1
  if getF s .drx 0 F.DRX_RETRAIN_ENABLE = 1 && (s.mode = .run || s.mode = .guard || s.mode = .service) && at1 ≤ s.now &&
      mgetD s.dram.pauses ch.val 0 < n then
    setF (bump { s with dram := { s.dram with pauses := mset s.dram.pauses ch.val n } } .drc ch.val F.DRC_RETRAIN_STAT_COUNT)
      .drc ch.val F.DRC_RETRAIN_STAT_LAST_NS (min 1500 ns)
  else s

/-! ### Sealed memories (R551–R556) -/

/-- Data size of a sealed memory. -/
def sealedSize (m : Nat) : Nat :=
  match m with
  | 0 => 0x08000000
  | 1 => 0x200000
  | 2 => 0x400000
  | _ => 0x2000

/-- First byte of a test window. -/
def windowBase (m : Nat) : Nat := if m = 0 then 0x07F00000 else sealedSize m

/-- The count of corrected bytes of a memory. -/
def ceFld (m : Nat) : Fld :=
  [F.SEA_CE0_COUNT, F.SEA_CE1_COUNT, F.SEA_CE2_COUNT, F.SEA_CE3_COUNT, F.SEA_CE4_COUNT, F.SEA_CE5_COUNT].getD m F.SEA_CE6_COUNT

/-- A byte is corrected. -/
def sealedCe (s : State) (m off : Nat) : State :=
  raise (blockError (bump s .sea 0 (ceFld m)) .sea 0 1 m off 0) .sea 0 F.SEA_INT_RAW_CE

/-- SEALED_UE. -/
def sealedUe (m : Fin 7) (off : Nat) (s : State) : State := partReset 4 m.val off 0 s

/-- A byte of a test window. -/
def winAt (s : State) (m o : Nat) : TestByte := mgetD s.windows (m * 64 + o) {}

/-- Replace a byte of a test window. -/
def setWin (s : State) (m o : Nat) (b : TestByte) : State := { s with windows := mput s.windows (m * 64 + o) {} b }

/-- What a read of a sealed byte leads to. -/
def sealedRead (m off : Nat) (r : ReadFinds) (s : State) : State :=
  match r with
  | .good => s
  | .corrected => sealedCe s m off
  | .uncorrectable => partReset 4 m off 0 s

/-- What the check bits of a test window byte tell (R556). -/
def TestByte.finds (b : TestByte) : ReadFinds :=
  match b.flips with
  | 0 => .good
  | 1 => .corrected
  | _ => .uncorrectable

/-- Read a byte of a test window: a single error is written back corrected. -/
def windowRead (s : State) (m o : Nat) : State :=
  let b := winAt s m o
  sealedRead m (windowBase m + o) b.finds (setWin s m o { b with flips := if b.flips = 1 then 0 else b.flips })

/-- SCRUB_READ: the patrol reads the next byte of a memory, and finds in it what `r` says; in MRAM the next byte is that of
SCRUB_STAT.POS. -/
def scrubRead (m : Fin 7) (off0 : Nat) (r : ReadFinds) (s : State) : State :=
  if getF s .sea 0 F.SEA_SCRUB_CTRL_PERIOD_H = 0 then s
  else
    let off := if m.val = 0 then getF s .sea 0 F.SEA_SCRUB_STAT_POS else off0
    let s1 := if m.val = 0 then setF s .sea 0 F.SEA_SCRUB_STAT_POS ((off + 1) % 0x08000000) else s
    if windowBase m.val ≤ off && off < windowBase m.val + 64 then windowRead s1 m.val (off - windowBase m.val)
    else sealedRead m.val off r s1

/-- A memory index of SEA: values above 6 act as 0. -/
def memIndex (v : Nat) : Nat := if 6 < v then 0 else v

/-- The byte that TEST_ADDR selects. -/
def testSel (s : State) : Nat × Nat :=
  (memIndex (getF s .sea 0 F.SEA_TEST_ADDR_TARGET), getF s .sea 0 F.SEA_TEST_ADDR_OFFSET)

/-- Check bits that FLIP inverts: at most two. -/
def flipCount (s : State) : Nat :=
  min 2 ((List.range 5).filter (fun i => getF s .sea 0 F.SEA_FLIP_BITS / 2 ^ i % 2 = 1)).length

/-- A write of TEST_DATA stores the selected byte; an armed FLIP of that memory takes effect on it. -/
def testWrite (v : Nat) (s : State) : State :=
  let x := testSel s
  if getF s .sea 0 F.SEA_FLIP_ARMED = 1 && memIndex (getF s .sea 0 F.SEA_FLIP_TARGET) = x.1 then
    raise (setF (setWin s x.1 x.2 ⟨v % 256, flipCount s⟩) .sea 0 F.SEA_FLIP_ARMED 0) .sea 0 F.SEA_INT_RAW_FLIP_DONE
  else setWin s x.1 x.2 ⟨v % 256, 0⟩

/-- A read of TEST_DATA returns the selected byte after decoding. -/
def testRead (s : State) : Nat × State :=
  let x := testSel s
  ((winAt s x.1 x.2).byte, windowRead s x.1 x.2)

end Sys2Proof.Machine
end

