-- ==== Sys2Proof/Machine/Memory.lean ====
section
/-! DEFINITION. The meanings of the commands of the memories and caches that are no register access
(14_memories_buffers_dram.md, 15_caches.md). -/

namespace Sys2Proof.Machine

def execDramRetrain (ch : Fin 8) (ns : Nat) (s : State) : Res := done (dramRetrain ch ns s)
def execDramUe (rank : Fin 16) (a : Nat) (c : DramContent) (replaced : Bool) (s : State) : Res :=
  done (dramUe rank.val a c replaced s)
def execDramCorrectedError (rank : Fin 16) (s : State) : Res := done (dramCe rank.val s)
def execSpareCopyDone (s : State) : Res := done (copyDone s)
def execTransitSramUe (off : Nat) (c : SramContent) (s : State) : Res := done (sramUe off c s)
def execBasilAllocate (client : Client) (size pool holders : Nat) (s : State) : Res :=
  done (basilRequest ⟨client, size, holders⟩ pool s)
def execBasilShare (pool off n : Nat) (s : State) : Res := done (basilShare pool off n s)
def execBasilRelease (pool off shares : Nat) (s : State) : Res := done (basilRelease pool off shares s)
def execSealedUe (m : Fin 7) (off : Nat) (s : State) : Res := done (sealedUe m off s)
def execScrubRead (m : Fin 7) (off : Nat) (r : ReadFinds) (s : State) : Res := done (scrubRead m off r s)
def execMaintDone (i : CacheId) (s : State) : Res := done (maintDone i s)
def execCacheDrainDone (i : CacheId) (bad : List Nat) (s : State) : Res := done (cacheDrained i (addBad i bad s))

end Sys2Proof.Machine
end

