-- ==== Sys2Proof/Machine/MigOps.lean ====
section
/-! DEFINITION. Moving a live tenant: the written-unit log, export, import, the key handoff, abort
(13_tenant_migration.md R501–R525). -/

namespace Sys2Proof.Machine

/-! ### Front of a migration operation (R509, R510) -/

/-- A migration operation of a tenant in one of some states; elsewhere it answers BAD_STATE, on MF BAD_OP. -/
def migSend (q : Capsule) (op : Nat) (h : KaHdr) (body : List Nat) (ok : MigState → Bool) (run : Nat → State → KaRes) (s : State) :
    State :=
  kaSend q op h body (fun f s =>
    if f = fnMF then kaAns s 9
    else if !ok (migOf s f).state then kaAns s 0xB
    else run f s) s

/-- The states of a source whose log is kept. -/
def MigState.logging (m : MigState) : Bool := m = .copying || m = .frozen

/-- The migrating namespace that an operation names: NO_NS where the tenant has none, BAD_STATE where it does not migrate. -/
def migTarget (s : State) (t nsid : Nat) : Nat ⊕ (Nat × Ns) :=
  match s.nss.find? (fun q => q.2.tenant = t && q.2.nsid = nsid) with
  | some q => if (migOf s t).names nsid then .inr q else .inl 0xB
  | none => .inl 6

/-- Every NSID of a mask names a namespace of the tenant. -/
def maskNamed (s : State) (t mask : Nat) : Bool :=
  (List.range 16).all (fun i => mask / 2 ^ i % 2 = 0 || (nsSlot s t (i + 1)).isSome)

/-- NSIDs of a mask. -/
def maskIds (mask : Nat) : List Nat := ((List.range 16).filter (fun i => mask / 2 ^ i % 2 = 1)).map (· + 1)

/-! ### The written-unit log (R504–R508) -/

/-- Units of 16 KiB of a namespace. -/
def unitCount (n : Ns) : Nat := n.capacity / 4

/-- A log with every bit set, an empty ring and OVF set (R507). -/
def fullLog (mask : Nat) : MigLog := ⟨(maskIds mask).map (fun i => (i, ({ full := true } : MigBits))), [], true⟩

/-- MIG_BEGIN. -/
def migBegin (q : Capsule) (h : KaHdr) (mask : Nat) (s : State) : State :=
  migSend q 0x10 h (leBytes 2 mask ++ [0, 0]) (· = .idle) (fun t s =>
    if !maskNamed s t mask then kaAns s 6
    else if (tenant s t).par.mapMib < mapHeld s t + logMib s t mask then kaAns s 0xA
    else kaAns (modMig s t (fun _ => { state := .copying, mask := mask, live := fullLog mask })) 0) s

/-- Bits set of a namespace. -/
def bitsSet (s : State) (t nsid : Nat) (l : MigLog) : Nat :=
  match mget l.bits nsid with
  | some b => if b.full then (match (nsSlot s t nsid).bind (nsAt s) with
      | some n => unitCount n
      | none => 0) else b.units.length
  | none => 0

/-- MIG_SWAP: the live copies become the snapshot, and cleared ones take their place. -/
def migSwap (q : Capsule) (h : KaHdr) (s : State) : State :=
  migSend q 0x11 h [] MigState.logging (fun t s =>
    let l := (migOf s t).live
    kaBytesAns (modMig s t (fun m => { m with snap := l, live := {} }))
      (((List.range 16).map (fun i => leBytes 8 (bitsSet s t (i + 1) l))).flatten ++ leBytes 4 l.ring.length ++
        [l.ovf.toNat, 0, 0, 0])) s

/-! ### Export (R512–R514) -/

/-- State of one sector for a record, with its content: `bad` lists the sectors that end the ladder uncorrectable. -/
def exportSector (s : State) (k : Nat) (n : Ns) (bad : List Nat) (lsa : Nat) : Nat × Option Sector :=
  if n.capacity ≤ lsa then (0, none)
  else match lookup s k n lsa with
  | .zeros => (0, none)
  | .fail st => (if st = stDeferredLoss then 2 else 3, none)
  | .staged x => (1, some x)
  | .flash pua sub =>
    if bad.contains lsa then (3, none)
    else match codewordAt s pua sub with
      | some x => (1, some x)
      | none => (3, none)

/-- The record of a unit. -/
def exportUnit (s : State) (k : Nat) (n : Ns) (bad : List Nat) (u : Nat) : MigRec :=
  let l := (List.range 4).map (fun i => exportSector s k n bad (u * 4 + i))
  ⟨l.map Prod.fst, n.nsid, u, l.filterMap Prod.snd⟩

/-- A record as its bytes (R514). -/
def MigRec.toBytes (r : MigRec) : List Nat :=
  [r.states.getD 0 0 + r.states.getD 1 0 * 4 + r.states.getD 2 0 * 16 + r.states.getD 3 0 * 64, 0] ++ leBytes 2 r.nsid ++
    leBytes 8 r.unit ++ [0, 0, 0, 0] ++ (r.secs.map Sector.toBytes).flatten

/-- Length of a record in bytes. -/
def MigRec.bytes (r : MigRec) : Nat := 16 + 4144 * r.secs.length

/-- Visit units in ascending order, at most the first argument, until one passes the last or its record does not fit. -/
def exportFrom (s : State) (k : Nat) (n : Ns) (bad : List Nat) (takes : Nat → Bool) (last maxb : Nat) :
    Nat → Nat → Nat → List MigRec → Nat × List MigRec
  | 0, u, _, acc => (u, acc)
  | f + 1, u, size, acc =>
    if last < u then (u, acc)
    else if unitCount n ≤ u then (last + 1, acc)
    else if takes u then
      let r := exportUnit s k n bad u
      if maxb < size + r.bytes then (u, acc)
      else exportFrom s k n bad takes last maxb f (u + 1) (size + r.bytes) (acc ++ [r])
    else exportFrom s k n bad takes last maxb f (u + 1) size acc

/-- MIG_EXPORT. `visits` is the number of units visited when 5 ms have passed; its response is being prepared until the
next nanosecond (R512, R525). -/
def migExport (q : Capsule) (h : KaHdr) (nsid flags first last maxb visits : Nat) (bad : List Nat) (s : State) : State :=
  migSend q 0x12 h (leBytes 4 nsid ++ leBytes 4 flags ++ leBytes 8 first ++ leBytes 8 last ++ leBytes 4 maxb) MigState.logging (fun t s =>
    match migTarget s t nsid with
    | .inl r => kaAns s r
    | .inr (k, n) =>
      let b := mgetD (migOf s t).snap.bits nsid {}
      let r := exportFrom s k n bad (fun u => flags % 2 = 1 || b.full || b.units.contains u) last (min maxb 2097088)
        visits first 16 []
      { s := s, result := 0, ready := true, wait := 1,
        body := leBytes 8 r.1 ++ leBytes 4 r.2.length ++ [0, 0, 0, 0] ++ (r.2.map MigRec.toBytes).flatten }) s

/-- MIG_EVENTS: the snapshot ring. -/
def migEvents (q : Capsule) (h : KaHdr) (s : State) : State :=
  migSend q 0x13 h [] MigState.logging (fun t s =>
    let l := (migOf s t).snap.ring
    kaBytesAns s (leBytes 4 l.length ++ List.replicate 12 0 ++
      (l.map (fun e => leBytes 2 e.nsid ++ [e.event, 0] ++ leBytes 4 e.zone ++ leBytes 4 e.epoch ++ [0, 0, 0, 0])).flatten)) s

/-- A zone descriptor of 16 bytes (R513). -/
def migDescriptor (n : Ns) (z : Nat) : List Nat :=
  let x := zoneOf n z
  [x.state.code, 0, 0, 0] ++ leBytes 4 x.epoch ++ leBytes 4 x.wp ++ [0, 0, 0, 0]

/-- MIG_ZONES: zones FIRST onwards, those beyond the namespace left out. -/
def migZones (q : Capsule) (h : KaHdr) (nsid first count : Nat) (s : State) : State :=
  migSend q 0x14 h (leBytes 4 nsid ++ leBytes 4 first ++ leBytes 4 count) MigState.logging (fun t s =>
    match migTarget s t nsid with
    | .inl r => kaAns s r
    | .inr (_, n) =>
      let zs := if n.zoned then ((List.range (min count 65536)).map (first + ·)).filter (· < zoneCount n) else []
      kaBytesAns s (zs.map (migDescriptor n)).flatten) s

/-! ### Freeze and key handoff (R519–R522) -/

/-- MIG_FREEZE: writes to the migrating namespaces are refused from here, and those admitted before complete. -/
def migFreeze (q : Capsule) (h : KaHdr) (s : State) : State :=
  migSend q 0x15 h [] (· = .copying) (fun t s =>
    let w := ((migNs s t).map (fun x => nsCmds s x.1)).flatten.eraseDups
    ⟨modMig s t (fun m => { m with state := .frozen, draining := true, waitFor := w }), 0, [], false, 0⟩) s

/-- MIG_FREEZE_DONE. -/
def migFreezeDone (t : Nat) (s : State) : State :=
  let m := migOf s t
  if m.state = .frozen && m.draining && cmdsGone s m.waitFor then
    readyResp (modMig s t (fun m => { m with draining := false, waitFor := [] })) t
  else s

/-- The fields of a transfer token (R520): serial number, tenant, NSMASK, EPK, SIG, the certificate chain. -/
def tokSerial (x : List Nat) : Nat := pkgNum x 0 16
def tokTenant (x : List Nat) : Nat := pkgNum x 16 2
def tokMask (x : List Nat) : Nat := pkgNum x 18 2
def tokEpk (x : List Nat) : List Nat := (x.drop 24).take 97
def tokSig (x : List Nat) : List Nat := (x.drop 124).take 96
def tokChain (x : List Nat) : List Nat := (x.drop 220).take (pkgNum x 20 4)

/-- What SIG of an import signs (R515). -/
def importSigned (serial t mask : Nat) (epk : List Nat) : List Nat := leBytes 16 serial ++ leBytes 2 t ++ leBytes 2 mask ++ epk

/-- The destination has proved its identity (R520). -/
def tokenOk (m : Mig) (x : List Nat) : Bool :=
  match Config.certifies (tokChain x) with
  | some c => c.1 = tokSerial x && tokSerial x ≠ Config.serial % 2 ^ 128 &&
      ecdsaVerify c.2 (tokSig x) (importSigned (tokSerial x) (tokTenant x) (tokMask x) (tokEpk x)) && tokMask x = m.mask
  | none => false

/-- The plaintext of the key package for a destination (R521). -/
def pkgText (s : State) (t serial tenant : Nat) : List Nat :=
  let l := migNs s t
  leBytes 16 Config.serial ++ leBytes 16 serial ++ leBytes 2 tenant ++ leBytes 2 l.length ++
    (l.map (fun q => (⟨q.2.nsid, mgetD s.keyGen q.1 0, mgetD s.nsKeys q.1 0, q.2.nonce.next, q.2.wseq.next, q.2.zoned,
      if q.2.zoned then q.2.zsize else 0⟩ : PkgEntry).toBytes)).flatten

/-- MIG_KEY_EXPORT with the bytes of the transfer token. While the freeze still drains the counters are not final, and it
answers BAD_STATE. An EPK that is no point proves nothing. -/
def migKeyExport (q : Capsule) (h : KaHdr) (x : List Nat) (s : State) : State :=
  migSend q 0x16 h x (fun m => m = .frozen || m = .handedOff) (fun t s =>
    let m := migOf s t
    if m.draining then kaAns s 0xB
    else if !tokenOk m x || (ecPoint (tokEpk x)).isNone then kaAns s 0xC
    else if m.state = .handedOff && m.peer ≠ some (tokEpk x) then kaAns s 0xB
    else
      let d := freshScalar s
      let v := drawBits d.2
      kaBytesAns (modMig v.2 t (fun m => { m with state := .handedOff, peer := some (tokEpk x), live := {}, snap := {} }))
        (makePkg d.1 (v.1 % 2 ^ 96) (tokEpk x) (pkgText s t (tokSerial x) (tokTenant x)))) s

/-! ### Abort (R524, R525) -/

/-- A MIG_EXPORT response that is still being prepared answers BAD_STATE, and so does that of another migration operation
(log 145). -/
def abortExport (s : State) (t : Nat) : State :=
  { s with secs := mmod s.secs (t * 2 + 1) (fun r =>
      if 0x10 ≤ r.op && r.op < 0x20 && (!r.ready || s.now < r.due) then
        { r with result := 0xB, body := [], ready := true, due := s.now }
      else r) }

/-- A migration ends: the source releases its log; the destination releases what it imported and destroys EK. -/
def migEnd (s : State) (t : Nat) : State :=
  let s1 := abortExport s t
  let s2 := if (migOf s t).state = .importing then
      (migNs s1 t).foldl (fun s q =>
        let r := discardUnits s (fun u => u.nsk = q.1)
        let cut := jCount r
        modNs { r with ckpts := mdelRange r.ckpts (q.1 * 131072) 131072 } q.1 (fun n => { n with map := [], dirty := [], eraseCut := cut })) s1
    else s1
  { recDel s2 (ekRec t) with migs := mdel s2.migs t }

/-- A migration that may be aborted. -/
def MigState.abortable (m : MigState) : Bool := m.logging || m = .importing

/-- MIG_ABORT as a key agreement operation. -/
def migAbort (q : Capsule) (h : KaHdr) (s : State) : State :=
  migSend q 0x17 h [] MigState.abortable (fun t s => kaAns (migEnd s t) 0) s

/-- MIG_ABORT as an MF vendor command. -/
def migAbortCmd (q : Capsule) (s : State) : State :=
  onTenant q [tenantMask, 0, 0, 0, 0, 0] (fun t n s => n = 10 && !(migOf s t).state.abortable)
    (fun t s => .yes (postSt (migEnd s t) q.conn q.cid stOk)) s

/-! ### Import (R515–R518, R523) -/

/-- An importing namespace has nothing mapped and an unbound slot. -/
def importable (s : State) (t nsid : Nat) : Bool :=
  match nsSlot s t nsid with
  | some k => slotState s k = 1 && (match nsAt s k with
    | some n => n.map.all (fun e => match e.2 with
      | .at _ _ => false
      | _ => true)
    | none => false)
  | none => false

/-- IMPORT_BEGIN. -/
def importBegin (q : Capsule) (h : KaHdr) (mask : Nat) (s : State) : State :=
  migSend q 0x18 h (leBytes 2 mask ++ [0, 0]) (· = .idle) (fun t s =>
    if !maskNamed s t mask then kaAns s 6
    else if !(maskIds mask).all (importable s t) || getF s .dbg 0 F.DBG_TOKEN_SINCE_POR = 1 then kaAns s 0xB
    else
      let r := freshScalar s
      let g := dikSign (recPut r.2 (ekRec t) (.ek r.1)) (importSigned Config.serial t mask (ecPublic r.1))
      kaBytesAns (modMig g.2 t (fun _ => { state := .importing, mask := mask, ek := some r.1, commitAt := jCount s }))
        (ecPublic r.1 ++ [0, 0, 0] ++ g.1)) s

/-- Records as they stand in IMPORT_DATA, up to one that is cut short (R514). -/
def parseRecs : Nat → List Nat → List ImpRec
  | 0, _ => []
  | f + 1, l =>
    if l.length < 16 then []
    else
      let st := (List.range 4).map (fun i => l.getD 0 0 / 4 ^ i % 4)
      let n := (st.filter (· = 1)).length
      let cws := chunks 4144 n (l.drop 16)
      if (l.drop 16).length < 4144 * n then []
      else ⟨⟨st, pkgNum l 2 2, pkgNum l 4 8, cws.map Sector.ofBytes⟩, cws.all crcVerifies, cws.any (fun c => 64 ≤ flagsOf c % 256)⟩ ::
        parseRecs f (l.drop (16 + 4144 * n))

/-- A record fails (R516). -/
def recordBad (n : Ns) (x : ImpRec) : Bool :=
  let at1 := (List.range 4).filter (fun i => x.r.states.getD i 0 = 1)
  n.capacity ≤ x.r.unit * 4 || at1.length ≠ x.r.secs.length ||
    (!at1.isEmpty && (!x.crcOk || x.flagged)) ||
    (at1.zip x.r.secs).any (fun p => p.2.lsa ≠ x.r.unit * 4 + p.1 || p.2.conv = n.zoned ||
      p.2.zsize ≠ (if n.zoned then n.zsize else 0))

/-- Epoch of a zoned sector. -/
def Sector.epoch (x : Sector) : Nat := x.nonce / 2 ^ 32

/-- A unit loses its state before an imported record replaces it: its entries and staged copies. -/
def clearUnit (s : State) (k : Nat) (n : Ns) (u : Nat) : State :=
  let s1 := modNs s k (fun m => { m.soil (jCount s) (if n.zoned then u else u * 4) 4 with map := if n.zoned then mdel m.map u else mdelRange m.map (u * 4) 4 })
  { s1 with staged := s1.staged.filterMap (fun q =>
      if q.2.nsk = k && q.2.slot.isNone && !q.2.reloc then
        if n.zoned then (if q.2.unit = u then none else some q)
        else
          let c := q.2.cws.map (fun x => x.bind (fun x => if x.sec.lsa / 4 = u then none else some x))
          if c.all (·.isNone) then none else some (q.1, { q.2 with cws := c })
      else some q) }

/-- A zoned sector of a later epoch first resets its zone to that epoch. -/
def raiseEpoch (s : State) (k z e : Nat) : State :=
  match nsAt s k with
  | some n => if (zoneOf n z).epoch < e then setZone (dropZone s k n z) k z { state := .empty, wp := 0, epoch := e } else s
  | none => s

/-- The data sectors of a record are staged and placed by their hints (R279): a zoned unit whole, in the stream of its first
sector, and each conventional sector in its own stream. They count as not acknowledged, so a power loss before the commit
drops them (R525). -/
def placeImport (s : State) (k : Nat) (n : Ns) (u : Nat) (l : List (Nat × Sector)) : State :=
  let streamFor (x : Sector) : Nat := (dsAt s n.dieSet).elim 0 (fun d => streamOf d x.cls x.life x.group)
  if !n.zoned then l.foldl (fun s p => (stageSector s k n (streamFor p.2) { p.2 with nsk := k }).1) s
  else match l with
  | [] => s
  | (_, x) :: _ =>
    let stream := streamFor x
    let cws := (List.range 4).map (fun i => (l.find? (fun p => p.1 = i)).map (fun p => (⟨{ p.2 with nsk := k }, false, none⟩ : StSec)))
    let r := newUnit s { nsk := k, dieSet := n.dieSet, stream := stream, zoned := n.zoned, unit := if n.zoned then u else 0, cws := cws }
    placeUnit r.1 r.2

/-- Apply one record that does not fail. In a zoned namespace the unit has one entry: it is lost when a sector is lost, and
else unreadable when one is unreadable. -/
def applyRecord (s : State) (k : Nat) (n : Ns) (x : ImpRec) : State :=
  let u := x.r.unit
  let z := u * 4 / zoneSize n
  let l := ((List.range 4).filter (fun i => x.r.states.getD i 0 = 1)).zip x.r.secs
  if n.zoned then
    let s1 := l.foldl (fun s p => raiseEpoch s k z p.2.epoch) s
    let e := (match nsAt s1 k with
      | some m => (zoneOf m z).epoch
      | none => 0)
    let keep := l.filter (fun p => e ≤ p.2.epoch)
    if !l.isEmpty && keep.isEmpty then s1
    else
      let s2 := clearUnit s1 k n u
      if x.r.states.contains 2 then setEnt s2 k u (some .lost)
      else if x.r.states.contains 3 then setEnt s2 k u (some .unreadable)
      else placeImport s2 k n u keep
  else
    let s2 := placeImport (clearUnit s k n u) k n u l
    (List.range 4).foldl (fun s i => match x.r.states.getD i 0 with
      | 2 => setEnt s k (u * 4 + i) (some .lost)
      | 3 => setEnt s k (u * 4 + i) (some .unreadable)
      | _ => s) s2

/-- Apply records in order up to the first that fails: how many were applied. -/
def applyRecords (k : Nat) (n : Ns) : List ImpRec → Nat → State → Nat × Bool × State
  | [], i, s => (i, true, s)
  | x :: t, i, s => if recordBad n x then (i, false, s) else applyRecords k n t (i + 1) (applyRecord s k n x)

/-- IMPORT_DATA with the bytes of its records. -/
def importData (q : Capsule) (h : KaHdr) (nsid : Nat) (recs : List Nat) (s : State) : State :=
  migSend q 0x19 h (leBytes 4 nsid ++ [0, 0, 0, 0] ++ recs) (· = .importing) (fun t s =>
    match migTarget s t nsid with
    | .inl r => kaAns s r
    | .inr (k, n) =>
      let r := applyRecords k n (parseRecs (recs.length / 16) recs) 0 s
      ⟨pump r.2.2, if r.2.1 then 0 else 0xD, leBytes 4 r.1, true, 0⟩) s

/-- The state that a code of the ZNS Command Set stands for; an opened state is set as Closed (R517). -/
def zoneOfCode : Nat → Option ZState
  | 1 => some .empty
  | 2 => some .closed
  | 3 => some .closed
  | 4 => some .closed
  | 0xD => some .readOnly
  | 0xE => some .full
  | 0xF => some .offline
  | _ => none

/-- Set zones from descriptors in zone order up to the first that fails. -/
def setZones (k : Nat) (n : Ns) : List MigZone → Nat → State → Bool × State
  | [], _, s => (true, s)
  | d :: t, z, s =>
    match zoneOfCode d.code with
    | none => (false, s)
    | some st =>
      if zoneSize n < d.wp || zoneCount n ≤ z || !n.zoned then (false, s)
      else
        let old := (match nsAt s k with
          | some m => (zoneOf m z).epoch
          | none => 0)
        setZones k n t (z + 1) (if d.epoch < old then s else setZone s k z { state := st, wp := d.wp, epoch := d.epoch })

/-- A zone descriptor from its 16 bytes (R513). -/
def zoneDesc (l : List Nat) : MigZone := ⟨l.getD 0 0, pkgNum l 4 4, pkgNum l 8 4⟩

/-- IMPORT_ZONE with the bytes of its descriptors. -/
def importZone (q : Capsule) (h : KaHdr) (nsid first count : Nat) (ds : List Nat) (s : State) : State :=
  migSend q 0x1A h (leBytes 4 nsid ++ leBytes 4 first ++ leBytes 4 count ++ ds) (· = .importing) (fun t s =>
    match migTarget s t nsid with
    | .inl r => kaAns s r
    | .inr (k, n) =>
      let r := setZones k n ((chunks 16 (min count (ds.length / 16)) ds).map zoneDesc) first s
      kaAns r.2 (if r.1 then 0 else 0xD)) s

/-- A commit begins: the imported units that are not complete are programmed with their paired word-line groups. -/
def beginCommit (s : State) (t : Nat) (pkg : Option (List Nat)) : State :=
  let ks := (migNs s t).map Prod.fst
  let us := (s.staged.filter (fun q => ks.contains q.2.nsk && !q.2.complete && !q.2.reloc && !q.2.stale)).map Prod.fst
  modMig (forceUnits s us) t (fun m => { m with committing := true, commitUnits := us, pkgIn := pkg })

/-- IMPORT_COMMIT. -/
def importCommit (q : Capsule) (h : KaHdr) (s : State) : State :=
  migSend q 0x1B h [] (· = .importing) (fun t s => ⟨beginCommit s t none, 0, [], false, 0⟩) s

/-- IMPORT_KEY with the bytes of the key package. -/
def importKey (q : Capsule) (h : KaHdr) (p : List Nat) (s : State) : State :=
  migSend q 0x1C h p (· = .importing) (fun t s => ⟨beginCommit s t (some p), 0, [], false, 0⟩) s

end Sys2Proof.Machine
end

