-- ==== Sys2Proof/Machine/Migration.lean ====
section
/-! DEFINITION. The meanings of the commands that move a tenant (13_tenant_migration.md). -/

namespace Sys2Proof.Machine

def execMigBegin (q : Capsule) (h : KaHdr) (mask : Nat) (s : State) : Res :=
  done (inTurn q (.migBegin q h mask) false (migBegin q h mask) s)
def execMigSwap (q : Capsule) (h : KaHdr) (s : State) : Res :=
  done (inTurn q (.migSwap q h) false (migSwap q h) s)
def execMigExport (q : Capsule) (h : KaHdr) (nsid flags first last maxb visits : Nat) (bad : List Nat) (s : State) : Res :=
  done (inTurn q (.migExport q h nsid flags first last maxb visits bad) false (migExport q h nsid flags first last maxb visits bad) s)
def execMigEvents (q : Capsule) (h : KaHdr) (s : State) : Res :=
  done (inTurn q (.migEvents q h) false (migEvents q h) s)
def execMigZones (q : Capsule) (h : KaHdr) (nsid first count : Nat) (s : State) : Res :=
  done (inTurn q (.migZones q h nsid first count) false (migZones q h nsid first count) s)
def execMigFreeze (q : Capsule) (h : KaHdr) (s : State) : Res :=
  done (inTurn q (.migFreeze q h) false (migFreeze q h) s)
def execMigFreezeDone (t : Nat) (s : State) : Res := done (migFreezeDone t s)
def execMigKeyExport (q : Capsule) (h : KaHdr) (x : List Nat) (s : State) : Res :=
  done (inTurn q (.migKeyExport q h x) false (migKeyExport q h x) s)
def execMigAbort (q : Capsule) (h : KaHdr) (s : State) : Res :=
  done (inTurn q (.migAbort q h) false (migAbort q h) s)
def execMigAbortCmd (q : Capsule) (s : State) : Res :=
  done (inTurn q (.migAbortCmd q) false (migAbortCmd q) s)
def execImportBegin (q : Capsule) (h : KaHdr) (mask : Nat) (s : State) : Res :=
  done (inTurn q (.importBegin q h mask) false (importBegin q h mask) s)
def execImportData (q : Capsule) (h : KaHdr) (nsid : Nat) (recs : List Nat) (s : State) : Res :=
  done (inTurn q (.importData q h nsid recs) false (importData q h nsid recs) s)
def execImportZone (q : Capsule) (h : KaHdr) (nsid : Nat) (z : ZoneSpan) (ds : List Nat) (s : State) : Res :=
  done (inTurn q (.importZone q h nsid z ds) false (importZone q h nsid z.first z.count ds) s)
def execImportCommit (q : Capsule) (h : KaHdr) (s : State) : Res :=
  done (inTurn q (.importCommit q h) false (importCommit q h) s)
def execImportKey (q : Capsule) (h : KaHdr) (p : List Nat) (s : State) : Res :=
  done (inTurn q (.importKey q h p) false (importKey q h p) s)

end Sys2Proof.Machine
end

