-- ==== Sys2Proof/Machine/Nimbus.lean ====
section
/-! DEFINITION. The Nimbus links: frames, sequence numbers and replay, hunting, link events and retrains
(01_part_and_chiplets.md R25–R40). Link states other than UP carry no frame (R34). -/

namespace Sys2Proof.Machine

/-! ### Frames (R25, R26) -/

/-- The sync word (R25). -/
def nimSync : Nat := 0x5A3C96E1

/-- One step of the bit-serial CRC-32 of IEEE 802.3, bits taken least significant first. -/
def crc32Step (c : Nat) : Nat := if c % 2 = 1 then Nat.xor (c / 2) 0xEDB88320 else c / 2

/-- CRC-32 of IEEE 802.3 over bytes, from a running value (R25; log 20). -/
def crc32From : List Nat → Nat → Nat
  | [], c => c
  | b :: t, c =>
    let x := Nat.xor c (b % 256)
    crc32From t (crc32Step (crc32Step (crc32Step (crc32Step (crc32Step (crc32Step (crc32Step (crc32Step x))))))))

/-- CRC-32 of a byte list. -/
def crc32 (l : List Nat) : Nat := Nat.xor (crc32From l 0xFFFFFFFF) 0xFFFFFFFF

/-- The 64-bit header word (R26). -/
def nimHdr (type seq ack : Nat) (m : NimMsg) : Nat :=
  seq % 256 + ack % 256 * 2 ^ 8 + type % 16 * 2 ^ 16 + m.vc % 16 * 2 ^ 20 + m.payload.length % 256 * 2 ^ 24
    + m.lane % 16 * 2 ^ 32 + m.tag % 4096 * 2 ^ 36 + m.som.toNat * 2 ^ 48 + m.eom.toNat * 2 ^ 49

/-- The 256 bytes of a frame (R25): sync word, header, payload padded with 0x00 to 240 bytes, CRC. -/
def nimFrame (type seq ack : Nat) (m : NimMsg) : List Nat :=
  let body := leBytes 8 (nimHdr type seq ack m) ++ (m.payload.take 240)
    ++ List.replicate (240 - m.payload.length) 0
  leBytes 4 nimSync ++ body ++ leBytes 4 (crc32 body)

/-- An empty message: what idle, replay-request and retrain-request frames carry. -/
def nimNone : NimMsg := ⟨false, false, 0, 0, 0, []⟩

/-- The sync word stands at the start of the bytes. -/
def nimHasSync (b : List Nat) : Bool := ofLe (b.take 4) = nimSync

/-- The CRC of a received frame is right (R25). -/
def nimCrcOk (b : List Nat) : Bool := crc32 ((b.drop 4).take 248) = ofLe ((b.drop 252).take 4)

/-- The message of a received frame. -/
def nimMsgOf (b : List Nat) : NimMsg :=
  let h := ofLe ((b.drop 4).take 8)
  ⟨bitsOf h 48 48 = 1, bitsOf h 49 49 = 1, bitsOf h 47 36, bitsOf h 35 32, bitsOf h 23 20,
    ((b.drop 12).take 240).take (bitsOf h 31 24)⟩

/-! ### Links -/

/-- A link. -/
def nim (s : State) (n : Nat) : NimLink := mgetD s.nims n {}

/-- Replace a link. -/
def setNim (s : State) (n : Nat) (l : NimLink) : State := { s with nims := mset s.nims n l }

/-- One direction of a link. -/
def NimLink.dir (l : NimLink) : NimWay → NimDir
  | .toTile => l.toTile
  | .toHub => l.toHub

/-- Replace one direction. -/
def NimLink.setDir (l : NimLink) (w : NimWay) (d : NimDir) : NimLink :=
  match w with
  | .toTile => { l with toTile := d }
  | .toHub => { l with toHub := d }

/-- Change one direction of a link of the state. -/
def modNimDir (s : State) (n : Nat) (w : NimWay) (f : NimDir → NimDir) : State :=
  setNim s n ((nim s n).setDir w (f ((nim s n).dir w)))

/-- The half of a count register that belongs to the receiver of a direction (R38). -/
def nimHalf (tile hub : Fld) : NimWay → Fld
  | .toTile => tile
  | .toHub => hub

/-- The valid ACK of a frame sent in a direction: the last data frame received in order on the opposite direction (R26,
R27). With none received yet it is 255, the number before the first (DESIGN CHOICE, log 147). -/
def nimAck (l : NimLink) (w : NimWay) : Nat := ((l.dir w.flip).rxNext + 255) % 256

/-- A frame that consumes no sequence number leaves in a direction: TYPE 1 idle, 2 replay request, 3 retrain request
(R25, R27). It is not kept. -/
def nimSend (s : State) (n : Nat) (w : NimWay) (type seq : Nat) : State :=
  emit s (.nimFrame n w (nimFrame type seq (nimAck (nim s n) w) nimNone))

/-- The same with a SEQ that the spec leaves open: a free value. -/
def nimSendFree (s : State) (n : Nat) (w : NimWay) (type : Nat) : State :=
  nimSend { s with free := s.free + 1 } n w type ((Config.freeWord s.free).toNat % 256)

/-- Start a retrain: both ends stop, INT_RAW.RETRAIN is set, and the 1 ms window starts afresh when it ends (R33–R36). A
link that retrains, is down or has failed starts none. What a receiver has asked for it goes on asking for (R32, R33). -/
def nimStart (s : State) (n : Nat) : State :=
  let l := nim s n
  if l.state = .up then
    let stop (d : NimDir) : NimDir := { d with hunting := false, seen := none, confirm := false }
    raise (setNim s n { l with state := .retrain, events := [], fails := 0, toTile := stop l.toTile, toHub := stop l.toHub })
      .nim n F.NIM_INT_RAW_RETRAIN
  else s

/-- A retrain that one end starts: that end sends a retrain request (R34, step 1). -/
def nimRetrain (s : State) (n : Nat) (w : NimWay) : State :=
  if (nim s n).state = .up then nimSendFree (nimStart s n) n w 3 else s

/-- One link event at the receiver of a direction (R33): when more than RETRAIN_THR fall within 1 ms, the link retrains,
and that receiver's end sends the request. Events during a retrain do not count here. -/
def nimEvent (s : State) (n : Nat) (w : NimWay) : State :=
  let l := nim s n
  if l.state = .up then
    let ev := s.now :: l.events.filter (fun t => s.now ≤ t + 1000000)
    let s1 := setNim s n { l with events := ev }
    if getF s .nim n F.NIM_LINK_CTRL_RETRAIN_THR < ev.length then nimRetrain s1 n w.flip else s1
  else s

/-- A replay request is counted in the half of the receiver that asks, which will ask again after 1 µs (R32, R38). -/
def nimCountAsk (s : State) (n : Nat) (w : NimWay) : State :=
  modNimDir (bump s .nim n (nimHalf F.NIM_REPLAY_TILE_RX F.NIM_REPLAY_HUB_RX w)) n w
    (fun d => { d with request := some (s.now + 1000) })

/-- A receiver sends a replay request for the frame after the last one delivered in order (R30–R32); its SEQ names that
frame (DESIGN CHOICE, log 147). -/
def nimAsk (s : State) (n : Nat) (w : NimWay) : State :=
  nimSend (nimCountAsk s n w) n w.flip 2 ((nim s n).dir w).rxNext

/-- A receiver loses sync: it is counted in its half, and a receiver of an UP link enters hunting (R30, R33, R38). -/
def nimSyncLoss (s : State) (n : Nat) (w : NimWay) : State :=
  let s1 := raise (bump s .nim n (nimHalf F.NIM_SYNC_LOSS_TILE_RX F.NIM_SYNC_LOSS_HUB_RX w)) .nim n F.NIM_INT_RAW_SYNC_LOSS
  if (nim s n).state = .up then
    nimEvent (modNimDir s1 n w (fun d => { d with hunting := true, seen := none, confirm := false })) n w
  else s1

/-- A frame fails its CRC: counted, discarded, and alignment is to be confirmed before replay is asked (R31). -/
def nimCrcFail (s : State) (n : Nat) (w : NimWay) : State :=
  let s1 := raise (bump s .nim n (nimHalf F.NIM_CRC_FAIL_TILE_RX F.NIM_CRC_FAIL_HUB_RX w)) .nim n F.NIM_INT_RAW_CRC_FAIL
  if (nim s n).state = .up then nimEvent (modNimDir s1 n w (fun d => { d with confirm := true })) n w else s1

/-- A transmitter drops from its retry buffer every frame up to the acknowledged sequence number (R26, R28). -/
def nimAcked (d : NimDir) (ack : Nat) : NimDir :=
  if d.retry.any (fun p => p.1 = ack) then
    { d with retry := (d.retry.dropWhile (fun p => p.1 ≠ ack)).drop 1
             resend := d.resend.filter (fun p => ((d.retry.dropWhile (fun q => q.1 ≠ ack)).drop 1).any (fun q => q.1 = p.1)) }
  else d

/-- A transmitter resends, in order, every data frame of its retry buffer from a sequence number on (R32). -/
def nimResend (d : NimDir) (seq : Nat) : NimDir := { d with resend := d.retry.dropWhile (fun p => p.1 ≠ seq) }

/-- A data frame reaches a receiver: the next one in order is delivered; any other is discarded (R29). -/
def nimData (s : State) (n : Nat) (w : NimWay) (seq : Nat) (m : NimMsg) : State :=
  if seq = ((nim s n).dir w).rxNext then
    emit (modNimDir s n w (fun d => { d with rxNext := (d.rxNext + 1) % 256, request := none })) (.nimDeliver n w m)
  else s

/-- A frame whose sync word and CRC are right (R26–R32). Its ACK frees the retry buffer of the opposite direction; the
SEQ of a replay request names the frame wanted (DESIGN CHOICE, log 147); a reserved TYPE has no further effect. -/
def nimGood (s : State) (n : Nat) (w : NimWay) (b : List Nat) : State :=
  let h := ofLe ((b.drop 4).take 8)
  let s1 := modNimDir s n w.flip (fun d => nimAcked d (bitsOf h 15 8))
  match bitsOf h 19 16 with
  | 0 => nimData s1 n w (bitsOf h 7 0) (nimMsgOf b)
  | 2 => modNimDir s1 n w.flip (fun d => nimResend d (bitsOf h 7 0))
  | 3 => nimStart s1 n
  | _ => s1

/-- NIMBUS_FRAME_RECEIVED (R29–R31): 256 bytes arrive at a receiver, starting at byte position `phase` of its stream
modulo 256. A hunting receiver leaves hunting at the second of two sync words 256 bytes apart. -/
def nimFrameIn (n : Nat) (w : NimWay) (phase : Nat) (b : List Nat) (s : State) : State :=
  let l := nim s n
  let d := l.dir w
  match l.state with
  | .up =>
    if d.hunting then
      if nimHasSync b then
        if d.seen = some phase then
          nimAsk (modNimDir s n w (fun d => { d with hunting := false, seen := none, phase := phase })) n w
        else modNimDir s n w (fun d => { d with seen := some phase })
      else modNimDir s n w (fun d => { d with seen := none })
    else if nimHasSync b ∧ phase = d.phase then
      let s1 := if d.confirm then nimAsk (modNimDir s n w (fun d => { d with confirm := false })) n w else s
      if nimCrcOk b then nimGood s1 n w b else nimCrcFail s1 n w
    else nimSyncLoss s n w
  | .retrain =>
    if nimHasSync b then (if nimCrcOk b then s else nimCrcFail s n w) else nimSyncLoss s n w
  | _ => s

/-- REPLAY_REQUEST (R32): the transmitter of a direction resends every data frame from the named number on. -/
def replayRequest (n : Nat) (w : NimWay) (seq : Nat) (s : State) : State :=
  if (nim s n).state = .up then modNimDir s n w (fun d => nimResend d seq) else s

/-- REPLAY_REQUEST_TIMEOUT (R32): the requested frame has not arrived within 1 µs; the receiver asks again. A repeat is
counted and is a link event (R33, R38). While the link retrains a repeat is counted only: it is no event, and no frame
crosses the link (R33, R34). -/
def replayTimeout (n : Nat) (w : NimWay) (s : State) : State :=
  match ((nim s n).dir w).request with
  | some t =>
    if t ≤ s.now then
      match (nim s n).state with
      | .up => nimEvent (nimAsk s n w) n w
      | .retrain => nimCountAsk s n w
      | _ => s
    else s
  | none => s

/-- NIMBUS_TX_FRAME (R27, R28): a frame slot of a direction passes. A frame to be resent goes first, then the next data
frame while fewer than 64 are unacknowledged, else an idle frame. Every frame carries a valid ACK. `offer` is a data
frame that a block hands over at this slot. The SEQ of an idle frame is a free value. -/
def nimTx (n : Nat) (w : NimWay) (offer : Option NimMsg) (s : State) : State :=
  let s0 := modNimDir s n w (fun d => { d with waiting := d.waiting ++ offer.toList })
  let l := nim s0 n
  let d := l.dir w
  if l.state = .up then
    match d.resend with
    | (q, m) :: t => emit (modNimDir s0 n w (fun d => { d with resend := t })) (.nimFrame n w (nimFrame 0 q (nimAck l w) m))
    | [] =>
      match d.waiting with
      | m :: t =>
        if d.retry.length < 64 then
          emit (modNimDir s0 n w (fun d =>
              { d with waiting := t, retry := d.retry ++ [(d.nextSeq, m)], nextSeq := (d.nextSeq + 1) % 256 }))
            (.nimFrame n w (nimFrame 0 d.nextSeq (nimAck l w) m))
        else nimSendFree s0 n w 1
      | [] => nimSendFree s0 n w 1
  else s0

/-- A link comes UP after a retrain: both receivers find alignment anew, at the byte positions given, and ask for replay;
both retry buffers are as they were (R30, R34 step 3). -/
def nimUp (s : State) (n tilePhase hubPhase : Nat) : State :=
  let l := nim s n
  let found (d : NimDir) (p : Nat) : NimDir := { d with hunting := false, seen := none, confirm := false, phase := p, resend := [] }
  nimAsk (nimAsk (setNim s n { l with
    state := .up, events := [], fails := 0, toTile := found l.toTile tilePhase, toHub := found l.toHub hubPhase }) n .toTile)
    n .toHub

/-- TRAINING_ATTEMPT_END (R34, R35): success counts DONE and brings the link UP, its receivers ask for replay, and the
results that waited in the tile staging SRAM cross; failure counts FAILED, and the third in a row declares the link failed
and takes the tile out of service. -/
def trainingEnd (n : Nat) (r : Option Phases) (s : State) : State :=
  let l := nim s n
  if l.state = .retrain then
    match r with
    | some p => deliverResults (nimUp (bump s .nim n F.NIM_RETRAIN_DONE) n p.tile p.hub) n
    | none =>
      let s1 := bump s .nim n F.NIM_RETRAIN_FAILED
      if l.fails + 1 < 3 then setNim s1 n { l with fails := l.fails + 1 }
      else
        tileOut (dropResults (raise (setNim s1 n { l with state := .failed, fails := 3 }) .nim n F.NIM_INT_RAW_LINK_FAIL) n) n
  else s

/-! ### Meanings -/

def execNimbusFrameReceived (n : Fin 4) (w : NimWay) (phase : Nat) (b : List Nat) (s : State) :
    Res := done (nimFrameIn n w phase b s)

def execReplayRequest (n : Fin 4) (w : NimWay) (seq : Nat) (s : State) : Res :=
  done (replayRequest n w seq s)

def execReplayRequestTimeout (n : Fin 4) (w : NimWay) (s : State) : Res :=
  done (replayTimeout n w s)

def execNimbusTxFrame (n : Fin 4) (w : NimWay) (offer : Option NimMsg) (s : State) :
    Res := done (nimTx n w offer s)

def execTrainingAttemptEnd (n : Fin 4) (r : Option Phases) (s : State) : Res :=
  done (trainingEnd n r s)

end Sys2Proof.Machine
end

