-- ==== Sys2Proof/Machine/Recorder.lean ====
section
/-! DEFINITION. Time, the event recorder and usage metering: what seconds and minutes bring, and METER_READ
(18_recorder_and_metering.md R643–R664). -/

namespace Sys2Proof.Machine

/-- The part's fast domains run, so that REC and MTR work. -/
def recRuns (s : State) : Bool := s.mode = .run || s.mode = .guard || s.mode = .service

/-- A second of POS: metering samples, the period closes when due, REC copies its state to MRAM. In DOZE and HOLD, where REC and
MTR stand still, POS goes to MRAM all the same, so that no value of it is repeated (R643), and the second counts in the minute
that is noted (R657, R661; log 175). -/
def posSecond (s : State) : State :=
  let s1 := { s with pos := min 0xFFFFFFFFFF (s.pos + 1), aon := { s.aon with posAt := s.aon.posAt + 1000000000 } }
  if recRuns s1 then
    let s2 := ageBands (meterSecond s1)
    let groups := ((List.range 32).filter (chOn s2)).map (chGroup s2)
    recCopy (if s2.pos % (60 * max 1 (getF s2 .recd 0 F.REC_CFG_PERIOD_MIN)) = 0 then periodClose s2 groups else s2)
  else
    let s2 := { s1 with recd := { s1.recd with savedPos := s1.pos, savedPcyc := s1.pcyc } }
    if s.mode = .doze || s.mode = .hold then meterSecond s2 else s2

/-- POS_TICK: 32,768 AON ticks have passed since the last. -/
def posTick (s : State) : State := if s.aon.posAt + 1000000000 ≤ s.now then posSecond s else s

/-- MINUTE_BOUNDARY: wall time has crossed the end of the minute now counted. In DOZE and HOLD it is noted. -/
def minuteBoundary (s : State) : State :=
  match wallNow s with
  | some w =>
    if s.meter.minute + 1 ≤ w / 60 then
      let m := s.meter.minute
      let s1 := if recRuns s then closeMinute s m false
        else if s.mode = .doze || s.mode = .hold then noteMinute s m else s
      { s1 with meter := { s1.meter with minute := m + 1 } }
    else s
  | none => s

/-- FREEZE_TIMEOUT. -/
def freezeTimeout (s : State) : State :=
  match s.recd.frozenAt with
  | some t =>
    if t + max 1 (getF s .recd 0 F.REC_CFG_FREEZE_MAX_S) * 1000000000 ≤ s.now then
      raise (recUnfreeze s) .recd 0 F.REC_INT_RAW_FREEZE_END
    else s
  | none => s

/-- A tenant's part of METER_READ's data (R663). -/
def meterTenant (s : State) (t : Nat) : List Nat :=
  let l := meterRing s t
  leBytes 2 t ++ leBytes 1 l.length ++ [0] ++ leBytes 4 ((l.head?.map (·.seq)).getD 0) ++ leBytes 4 ((l.getLast?.map (·.seq)).getD 0) ++
    [0, 0, 0, 0] ++ (l.map mtrBytes).flatten ++ List.replicate (64 * (60 - l.length)) 0

/-- METER_READ. -/
def meterRead (q : Capsule) (s : State) : State :=
  let first := bitsOf q.dw10 8 0
  let count := bitsOf q.dw11 9 0
  vendor q [0x1FF, 0x3FF, 0, 0, 0, 0] (fun n _ => n = 11 && (count = 0 || 512 < first + count)) (fun s =>
    if q.len < 3856 * count then no stSglLength
    else
      let s1 := postOk s q.conn q.cid 0 (((List.range count).map (fun i => meterTenant s (first + i))).flatten)
      .yes { s1 with meter := { s1.meter with rings := s1.meter.rings.map (fun p =>
          if first ≤ p.1 && p.1 < first + count then (p.1, p.2.map (fun r => { r with read := true })) else p) } }) s

/-! ### Meanings -/

def execPosTick (s : State) : Res := done (posTick s)
def execMinuteBoundary (s : State) : Res := done (minuteBoundary s)
def execFreezeTimeout (s : State) : Res := done (freezeTimeout s)
def execMeterRead (q : Capsule) (s : State) : Res :=
  done (inTurn q (.meterRead q) false (meterRead q) s)

end Sys2Proof.Machine
end

