-- ==== Sys2Proof/Machine/RegView.lean ====
section
/-! DEFINITION. What a register read returns: words that the page directory fixes, words that show the state of a block,
and words as stored (02_register_pages.md R53–R69 and the register tables of every chapter). -/

namespace Sys2Proof.Machine

/-! ### Fields of a register (R12, R18, R60) -/

/-- Fields of the register at an offset; INT_EN and INT_OUT use the positions of INT_RAW. -/
def fieldsAt (k : PageKind) (off : Nat) : List Fld :=
  if off = 0x1C then ((pageFields k).filter (fun f => f.off = 0x18)).map (fun f => { f with off := off, acc := .rw })
  else if off = 0x20 then ((pageFields k).filter (fun f => f.off = 0x18)).map (fun f => { f with off := off, acc := .ro })
  else (fieldsOf k).filter (fun f => f.off = off)

/-- A register is defined at the offset (R72, R53). -/
def regDefined (k : PageKind) (off : Nat) : Bool := (fieldsOf k).any (fun f => f.off = off)

/-- Some bit of the register is neither RO nor RSV (R14). -/
def regWritable (k : PageKind) (off : Nat) : Bool := (fieldsAt k off).any (fun f => f.acc ≠ .ro && f.acc ≠ .rsv)

/-- Bits of a register that a read returns: WO and RSV bits read 0 (R12). -/
def readMask (k : PageKind) (off : Nat) : Nat :=
  (fieldsAt k off).foldl (fun a f => if f.acc = .wo || f.acc = .rsv then a else a ||| maskOf f.hi f.lo) 0

/-! ### Small encodings -/

/-- DIR.PRESENTk (R69). -/
def presentWord (k : Nat) : Nat := ((List.range 32).map (fun b => if (pageAt (32 * k + b)).isSome then 2 ^ b else 0)).sum

/-- Ticks of the always-on count (R604). -/
def aonTicks (s : State) : Nat := (s.now - s.aon.since) * 32768 / 1000000000 % 2 ^ 48

/-- The rail that RAIL_SEL selects. -/
def railSel (s : State) : Nat :=
  let i := getF s .pwr 0 F.PWR_RAIL_SEL_INDEX
  if 16 < i then 0 else i

/-- RAIL_STAT of a rail (R617). -/
def railStat (s : State) (i : Nat) : Nat :=
  let r := railAt s i
  let st := if !r.on then 0 else if !railArmed s r then 3 else if belowPm i r.mv (railWarnPm s i) then 2 else 1
  st * 2 ^ 30 + min 0x3FFF (r.minMv.getD 0) * 65536 + min 0x3FFF r.mv

/-- The channel that CH_SEL selects. -/
def chSel (s : State) : Nat := getF s .thm 0 F.THM_CH_SEL_CH

/-- A reading in 12 bits. -/
def q12 (v : Int) : Nat := (v % 4096).toNat

/-- CH_CFG as it reads: channels 0 to 7 are enabled in their fixed groups (R638). -/
def chCfgWord (s : State) (c : Nat) : Nat :=
  if c < 8 then 0x8000 + bitsOf (chAt s c).cfg 14 14 * 0x4000 + chGroup s c * 256 else (chAt s c).cfg

/-- CH_STAT (R639). -/
def chStatWord (x : ThCh) : Nat := x.health * 2 ^ 30 + x.level * 2 ^ 28 + x.fault * 2 ^ 24 + q12 x.raw * 4096 + q12 x.eff

/-- STAGE code. -/
def ThmStage.code : ThmStage → Nat
  | .normal => 0
  | .notify => 1
  | .enforce => 2
  | .critical => 3

/-- The sampled channel whose effective reading is highest above, or least below, its THROT. -/
def hotCh (s : State) : Nat :=
  let above (c : Nat) : Int := (chAt s c).eff - 4 * chThrot s c
  ((List.range 32).filter (fun c => chOn s c && (chAt s c).health ≠ 3)).foldl
    (fun b c => match b with
      | some d => if above d < above c then some c else some d
      | none => some c) none |>.getD 0

/-- Number of elements of a list that satisfy a test. -/
def countIf {α : Type} (l : List α) (p : α → Bool) : Nat := (l.filter p).length

/-- PWR_GOOD_g is high: flash group g has been good for 1 ms (R724). -/
def pwrGood (s : State) (g : Nat) : Bool :=
  let r := railAt s (9 + g)
  r.on && r.goodAt.any (fun t => decide (t + 1000000 ≤ s.now)) && s.mode ≠ .hold && s.mode ≠ .reset

/-- GPIO.SYS_IN but for WAKE_N, whose level the board gives. -/
def sysIn (s : State) : Nat :=
  ((List.range 4).map (fun g => (pwrGood s g).toNat * 2 ^ (4 + g))).sum + (!s.therm.shdn).toNat * 8 +
    (!s.mgmt.faultLow).toNat * 4 + (!s.mgmt.alertLow).toNat * 2

/-- PORT_STAT (R145). -/
def portStat (e : EthPort) : Nat := e.holdUntil.isSome.toNat * 4 + e.amLock.toNat * 2 + e.linkUp.toNat

/-- LINK_STAT.STATE (R37). -/
def nimState (l : NimLink) : Nat :=
  match l.state with
  | .down => 0
  | .training => 1
  | .up => if l.toTile.hunting || l.toHub.hunting then 3 else 2
  | .retrain => 4
  | .failed => 5

/-- A die's state in DIE_STATEk (R401). -/
def DieSt.code : DieSt → Nat
  | .absent => 0
  | .idle => 1
  | .read => 2
  | .prog => 3
  | .erase => 4
  | .es => 5
  | .esRead => 6
  | .esProg => 7
  | .ps => 8
  | .psRead => 9
  | .bringUp => 0xE
  | .oos => 0xF

/-- Bits of the CELUNs of a lane that satisfy a test. -/
def celunBits (l : Nat) (p : Nat → Bool) : Nat := ((List.range 32).map (fun c => if p (l * 32 + c) then 2 ^ c else 0)).sum

/-- A lane holds a flash die. -/
def lanePop (s : State) (l : Nat) : Bool := (List.range 32).any (fun c => (mget s.dieRecs (l * 32 + c)).isSome)

/-- TILn.LANES (R397). -/
def lanesWord (s : State) (t : Nat) : Nat :=
  ((List.range 16).map (fun k =>
    let l := 16 * t + k
    (lanePop s l).toNat * 2 ^ (16 + k) +
      (lanePop s l && (mgetD s.lanes l ({} : Lane)).trained && !s.oos.lanes.contains l && !s.oos.tiles.contains t).toNat * 2 ^ k)).sum

/-- The position of a journal record (R335). -/
def ringPos (n : Nat) : Nat := (n / ringSize + 1) % 2 * 2 ^ 31 + n % ringSize

/-- SOR.SLOT_STAT of a key slot (R493). -/
def slotStat (s : State) (k : Nat) : Nat :=
  let st := slotState s k
  let owner := match nsAt s k with
    | some n => n.tenant
    | none => ((s.conns.find? (fun q => (q.2.tls.map (·.slot)) = some k)).bind (fun q => q.2.fn)).getD 0 % 512
  st * 2 ^ 29 + (match nsAt s k with
    | some n => n.wp.toNat
    | none => 0) * 2 ^ 28 + (if st = 0 then 0 else owner) * 2 ^ 19 + (if st = 2 then mgetD s.keyGen k 0 % 65536 else 0)

/-- The entry of a base matrix that HMAT_SEL selects (R410, R429). -/
def hmatData (v : Nat) : Nat :=
  let m := bitsOf v 28 24
  let r := bitsOf v 22 16
  let c := bitsOf v 9 0
  if m ≤ 24 ∧ r < 58 + m ∧ c < 576 + m then (Config.hmat m r c).toNat else 0xFF

/-- Zones that are Read Only under R249. -/
def epochRo (s : State) : Nat :=
  (s.nss.map (fun q => countIf q.2.zones (fun z => z.2.state = .readOnly && z.2.epoch = 0xFFFFFFFF))).sum

/-- Sums over the tenants in use. -/
def tenantSum (s : State) (f : Nat → Tenant → Nat) : Nat := ((usedTenants s).map (fun q => f q.1 q.2)).sum

/-- Commands admitted for a tenant and not yet completed (R236). -/
def inflight (s : State) (t : Nat) : Nat :=
  (tenantCmds s t).length + (ctrl s t).aers.length + countIf s.adminWaits (fun w => match connOf s w.1 with
    | some c => c.fn = some t
    | none => false)

/-! ### Words that show a block's state -/

/-- VER.STEP of a chiplet: 0x0001 on its first stepping, 1 more with each later one (R55). -/
def stepOf (chiplet : Nat) : Nat := (Config.stepping chiplet).toNat % 0xFFFF + 1

/-- Header words that the part computes: ID, VER, INT_OUT, block bits of STAT (R54, R55, R60). -/
def headerWord (s : State) (k : PageKind) (i off : Nat) : Option Nat :=
  match off with
  | 0x000 => some (pageType k i * 65536 + pageInst i * 256)
  | 0x004 => some (0x01000000 + stepOf (pageChiplet k i))
  | 0x008 => if k = .mcc then some 0x40001040 else none
  | 0x00C => if k = .mcc then some 0x4000 else none
  | 0x014 => match k with
    | .mtr => some (rd s k i off - rd s k i off % 2 + s.aon.wall.isSome.toNat)
    | .tf => some ((tenant s i).state.code * 2 + (tenant s i).quiesced.toNat)
    | _ => none
  | 0x020 => some (rd s k i 0x18 &&& rd s k i 0x1C)
  | _ => none

/-- Computed words of the pages of the always-on, management and boot blocks. -/
def mgmtWord (s : State) (k : PageKind) (off : Nat) : Option Nat :=
  match k, off with
  | .dir, _ =>
    if 0x100 ≤ off && off ≤ 0x15C then some (intSummary s ((off - 0x100) / 4))
    else if 0x180 ≤ off && off ≤ 0x1DC then some (presentWord ((off - 0x180) / 4)) else none
  | .pwr, 0x10C => some (aonTicks s % 2 ^ 32)
  | .pwr, 0x110 => some s.aon.aonHi
  | .pwr, 0x130 => some (railCfg s (railSel s))
  | .pwr, 0x134 => some (railStat s (railSel s))
  | .thm, 0x104 => some (chCfgWord s (chSel s))
  | .thm, 0x108 => some (chAt s (chSel s)).par
  | .thm, 0x10C => some (chAt s (chSel s)).thr
  | .thm, 0x110 => some (chStatWord (chAt s (chSel s)))
  | .thm, 0x114 => some (s.stage.code * 2 ^ 30 + hotCh s * 65536 + q12 (composite s))
  | .recd, 0x108 => some (s.pos % 2 ^ 32)
  | .recd, 0x10C => some s.aon.posHi
  | .recd, 0x110 => some (s.pcyc % 2 ^ 32)
  | .recd, 0x114 => some (s.recd.next * 65536 + s.recd.ring.length)
  | .recd, 0x11C => some (devWord s (getF s .recd 0 F.REC_RD_SEL_WORD * 4))
  | .mtr, 0x108 => some ((wallNow s).getD 0 % 2 ^ 32)
  | .mtr, 0x10C => some s.meter.wallHi
  | .boot, 0x21C => some s.flog.log.length
  | .boot, 0x228 => some (faultActive s)
  | .gpio, 0x110 => some (sysIn s)
  | _, _ => none

/-- Computed words of the hub's data blocks. -/
def hubWord (s : State) (k : PageKind) (i off : Nat) : Option Nat :=
  match k, off with
  | .eth, 0x104 => some (portStat (eth s i))
  | .eth, 0x120 => some (rd s k i off - rd s k i off % 2 + (decide ((eth s i).wakeKey ≠ 0)).toNat)
  | .tte, 0x104 => some (poolUsed s * 65536 + mfConns s)
  | .tte, 0x108 => some (s.conns.filter (fun q => q.2.tls.isSome)).length
  | .cfe, 0x10C => some (countIf s.nss (fun q => q.2.defer))
  | .qeng, 0x104 => some (((s.ctrls.filter (fun q => q.1 < 512)).map (fun q => q.2.ioqs.length)).sum)
  | .zne, 0x100 => some (tenantSum s (fun t _ => openUsed s t) * 65536 + tenantSum s (fun t _ => activeUsed s t))
  | .zne, 0x104 => some (tenantSum s (fun _ x => x.par.openZones) * 65536 + tenantSum s (fun _ x => x.par.activeZones))
  | .zne, 0x108 => some (s.diesets.length * 65536 + countIf s.bands (fun q => !q.2.closed))
  | .zne, 0x118 => some (epochRo s)
  | .mape, 0x104 => some (tenantSum s (fun _ x => x.par.mapMib))
  | .mape, 0x10C => some (convHeld s % 2 ^ 32)
  | .mape, 0x110 => some (convHeld s / 2 ^ 32 % 256)
  | .mape, 0x124 =>
    let ds := s.diesets.map Prod.snd
    some ((ds.map (fun d => countIf (activeMembers s d) (fun m => d.spare.getD m.1 0 = 0))).sum * 65536 + availSpare s ds)
  | .mape, 0x128 => some (countIf s.diesets (fun q => q.2.full))
  | .mape, _ =>
    if 0x12C ≤ off && off ≤ 0x138 then
      let j := (off - 0x12C) / 4
      some (((s.diesets.filter (fun q => q.2.full && q.1 / 32 = j)).map (fun q => 2 ^ (q.1 % 32))).sum)
    else none
  | .bas, 0x128 => some (tenantSum s (fun _ x => x.par.credits) * 65536 + (s.cmds.map (fun q => q.2.credits)).sum)
  | .bas, _ =>
    if 0x100 ≤ off && off ≤ 0x110 then
      let p := (off - 0x100) / 4
      some ((decide (3 ≤ p)).toNat * 2 ^ 31 + [9, 12, 14, 16, 18].getD p 0 * 2 ^ 26 + poolCount p)
    else if 0x114 ≤ off && off ≤ 0x124 then some (poolFree s ((off - 0x114) / 4)) else none
  | .csx, 0x104 => some (((coresOk s).map (2 ^ ·)).sum * 65536 + s.cctx.length * 256 + min 255 s.cjobs.length)
  | .sor, 0x104 => some (slotStat s (getF s .sor 0 F.SOR_SLOT_SEL_SLOT))
  | .sor, 0x108 =>
    let st := (List.range 1024).map (slotState s)
    some (countIf st (· = 2) * 65536 + countIf st (fun x => x = 1 || x = 3))
  | .sor, 0x10C => some (s.mfEnroll.isSome.toNat * 2 ^ 31 + countIf s.tenants (fun q => q.2.enroll.isSome))
  | .mrj, 0x100 => some (ringPos s.jr.head)
  | .mrj, 0x104 => some (ringPos s.jr.tail)
  | .mrj, 0x10C => some (getF s .mrj 0 F.MRJ_ACK_STAT_PEAK_MIB * 65536 + ceilDiv (ackedSectors s) 256 % 8192)
  | .mrj, 0x110 =>
    some (s.plStat.valid.toNat * 2 ^ 31 + s.plStat.done.toNat * 2 ^ 30 + s.plStat.lastStep * 65536 + min 0xFFFF s.plStat.ms)
  | .mrj, 0x114 => some (s.plStat.kind * 2 ^ 30 + getF s .mrj 0 F.MRJ_RECOV_STAT_MS)
  | .drx, 0x108 => some (copyPieces s)
  | .drx, 0x118 =>
    let port (p : Nat) : Nat := (eth s p).panic.toNat * 2 ^ 15 + rtpLevel (eth s p) / 1024
    some (port 1 * 65536 + port 0)
  | .drc, 0x10C => some (min 0xFFFF (ceCount s (2 * i + 1)) * 65536 + min 0xFFFF (ceCount s (2 * i)))
  | _, _ => none

/-- Computed words of the pages that stand once per tile, lane or tenant. -/
def tileWord (s : State) (k : PageKind) (i off : Nat) : Option Nat :=
  match k, off with
  | .nim, 0x104 => some (nimState (nim s i) * 65536 + (nim s i).toTile.rxNext * 256 + (nim s i).toHub.rxNext)
  | .til, 0x100 => some (Config.romVersion.toNat * 65536 + getF s .til i F.TIL_THY_VER_PATCH_ID)
  | .til, 0x11C => some (lanesWord s i)
  | .sig, 0x110 => some (hmatData (rd s .sig i 0x10C))
  | .sig, 0x140 =>
    some (getF s .sig i F.SIG_SOFT_STAT_PEAK_WAIT_US * 65536 +
      min 255 (countIf s.climbs (fun q => q.2.tile = i && q.2.softAt.isSome && !q.2.decoding)))
  | .lan, 0x100 =>
    let l := mgetD s.lanes i ({} : Lane)
    some (l.trained.toNat * 256 + (if l.trained then l.rate else 0))
  | .lan, 0x118 => some (celunBits i (fun d => (mget s.dieRecs d).isSome && dieOut s d))
  | .lan, _ =>
    if 0x108 ≤ off && off ≤ 0x114 then
      let j := (off - 0x108) / 4
      some (((List.range 8).map (fun c =>
        let d := i * 32 + 8 * j + c
        (if (mget s.dieRecs d).isSome && dieOut s d then 0xF else (dieAt s d).st.code) * 2 ^ (4 * c))).sum)
    else none
  | .tf, 0x100 => some ((tenant s i).ver % 2 ^ 32)
  | .tf, 0x104 => some ((tenant s i).par.ioqGrant * 65536 + ioqUsed s i)
  | .tf, 0x108 => some (activeUsed s i * 65536 + openUsed s i)
  | .tf, 0x10C => some (min 0x3FFFF (inflight s i))
  | _, _ => none

/-- The word of a register: computed, or as stored. -/
def regWord (s : State) (k : PageKind) (i off : Nat) : Nat :=
  if off < 0x100 then (headerWord s k i off).getD (rd s k i off)
  else ((mgmtWord s k off).orElse (fun _ => (hubWord s k i off).orElse (fun _ => tileWord s k i off))).getD (rd s k i off)

end Sys2Proof.Machine
end

