-- ==== Sys2Proof/Machine/RegOps.lean ====
section
/-! DEFINITION. Register accesses: the checks of R72, refusals, the access codes of R12, and what a write or a read of a
register that has a behaviour of its own brings about (02_register_pages.md R50–R94 and the register tables of every
chapter). -/

namespace Sys2Proof.Machine

/-! ### Paths (R61, R62, R91) -/

/-- ERR_INFO.SRC of a path. -/
def Path.src : Path → Nat
  | .mf _ _ => 1
  | .i3c _ => 2
  | .smbus _ => 3
  | .firmware => 4

/-- LOCK.SETTER of a path. -/
def Path.setter : Path → Nat
  | .mf _ _ => 1
  | .i3c _ => 2
  | .smbus _ => 2
  | .firmware => 3

/-- ERR_INFO.DETAIL of a refused access; for firmware the spec leaves it open (log 4). -/
def Path.detail (p : Path) (s : State) : Nat :=
  match p with
  | .mf _ cid => cid % 65536
  | .i3c a => a % 128
  | .smbus a => a % 128
  | .firmware => (Config.freeWord s.free).toNat % 65536

/-- The path is firmware's. -/
def Path.isFw : Path → Bool
  | .firmware => true
  | _ => false

/-- The path is the sideband. -/
def Path.isSb : Path → Bool
  | .i3c _ => true
  | .smbus _ => true
  | _ => false

/-- The registers the sideband reaches (R91). -/
def sbReaches (k : PageKind) (off : Nat) (write : Bool) : Bool :=
  match k with
  | .dir => true
  | .pwr => true
  | .thm => true
  | .mgt => true
  | .gpio => true
  | .recd => !write || off = 0x100
  | .mtr => !write
  | .boot => !write
  | .fwp => !write
  | _ => !write && off < 0x040

/-! ### Sleeping pages (R76, R597, R613) -/

/-- The tile of a page that stands once per tile or lane. -/
def pageTile (k : PageKind) (i : Nat) : Option Nat :=
  match k with
  | .nim => some i
  | .til => some i
  | .sig => some i
  | .lan => some (i / 16)
  | _ => none

/-- The page is answered from its shadow. -/
def pageAsleep (s : State) (k : PageKind) (i : Nat) : Bool :=
  match s.mode with
  | .doze => !(k = .dir || k = .pwr || k = .thm || k = .mgt || k = .gpio || k = .eth)
  | .hold => !(k = .dir || k = .pwr)
  | .service => (match pageTile k i with
    | some t => (nim s t).state = .down
    | none => false)
  | _ => false

/-! ### Checks and refusals (R72–R75) -/

/-- What an access answers: its status, the value read, and the state after it. -/
structure AccAns where
  st : Nat
  val : Nat
  s : State

/-- A write that LOCK refuses (R62, R64). -/
def lockRefuses (s : State) (p : Path) (k : PageKind) (i off v : Nat) : Bool :=
  let l := rd s k i 0x038
  !p.isFw && ((0x100 ≤ off && l / 2 % 2 = 1) || (l % 2 = 1 && (off = 0x1C || (off = 0x10 && v ≠ 2 ^ 31))))

/-- A refused access is reported to its logging page; it changes nothing else and reads 0. -/
def refuseAccess (s : State) (p : Path) (k : PageKind) (i : Nat) (write : Bool) (st addr : Nat) : AccAns :=
  let s1 := if p.isFw then { s with free := s.free + 1 } else s
  ⟨st, 0, report s1 k i p.src (if write then 2 else 1) st (p.detail s) addr 0⟩

/-- The first check of R72 that fails for an access of a page, from check 2 on; `v` is the value of a write. -/
def failedCheck (s : State) (p : Path) (k : PageKind) (i addr : Nat) (v : Option Nat) : Option Nat :=
  let off := addr % 0x1000
  if addr % 4 ≠ 0 then some 2
  else if !regDefined k off then some 3
  else if pageAsleep s k i && (v.isSome || 0x100 ≤ off) then some 4
  else if p.isSb && !sbReaches k off v.isSome then some 5
  else match v with
    | some v => if lockRefuses s p k i off v then some 6 else if !regWritable k off then some 7 else none
    | none => none

/-! ### Storing a write (R12, R57, R62) -/

/-- A field after a write. -/
def putField (f : Fld) (v w : Nat) : Nat :=
  let x := bitsOf v f.hi f.lo
  match f.acc with
  | .rw => putBits w f.hi f.lo x
  | .rw1c => putBits w f.hi f.lo (bitsOf w f.hi f.lo - (bitsOf w f.hi f.lo &&& x))
  | .rw1s => putBits w f.hi f.lo (bitsOf w f.hi f.lo ||| x)
  | _ => w

/-- Store a write under the access codes. -/
def storeWord (s : State) (k : PageKind) (i off v : Nat) : State :=
  wr s k i off ((fieldsAt k off).foldl (fun w f => putField f v w) (rd s k i off))

/-- ERR_CLR clears the captured error and re-arms capture. -/
def errClr (s : State) (k : PageKind) (i : Nat) : State := wr (wr (wr s k i 0x028 0) k i 0x02C 0) k i 0x030 0

/-- A write of CTRL: under LOCK.HEADER only ERR_CLR acts (R64). -/
def storeCtrl (s : State) (p : Path) (k : PageKind) (i v : Nat) : State :=
  let s1 := if v / 2 ^ 31 % 2 = 1 then errClr s k i else s
  if !p.isFw && rd s k i 0x038 % 2 = 1 then s1 else storeWord s1 k i 0x010 v

/-- A write of LOCK: SETTER keeps the path that set the first lock bit. -/
def storeLock (s : State) (p : Path) (k : PageKind) (i v : Nat) : State :=
  let s1 := storeWord s k i 0x038 v
  if rd s k i 0x038 % 4 = 0 && rd s1 k i 0x038 % 4 ≠ 0 then setF s1 k i F.HDR_LOCK_SETTER p.setter else s1

/-! ### GPIO (R603, R739–R742) -/

/-- Levels at the pads: an enabled output drives its own, the board the others. -/
def gpioPads (s : State) : Nat :=
  let en := getF s .gpio 0 F.GPIO_OUT_EN_EN
  (getF s .gpio 0 F.GPIO_OUT_LEVEL &&& en) + (s.gpioExt % 65536 - (s.gpioExt % 65536 &&& en))

/-- The page runs and its pads are not held. -/
def gpioRuns (s : State) : Bool :=
  s.mode ≠ .hold && s.mode ≠ .reset && getF s .pwr 0 F.PWR_PAD_HOLD_GPIO = 0

/-- A sample of the pads that is taken as the previous one: it records no edge. -/
def gpioFirst (s : State) : State := setF s .gpio 0 F.GPIO_IN_LEVEL (gpioPads s)

/-- A sample of the pads: a selected edge sets its INT_RAW bit. -/
def gpioSample (s : State) : State :=
  if gpioRuns s then
    let old := getF s .gpio 0 F.GPIO_IN_LEVEL
    let new := gpioPads s
    let rise := (new - (new &&& old)) &&& getF s .gpio 0 F.GPIO_EDGE_CFG_RISE
    let fall := (old - (new &&& old)) &&& getF s .gpio 0 F.GPIO_EDGE_CFG_FALL
    setF (gpioFirst s) .gpio 0 F.GPIO_INT_RAW_EDGE (getF s .gpio 0 F.GPIO_INT_RAW_EDGE ||| rise ||| fall)
  else s

/-- GPIO_EDGE: the board's levels at the pads change between two samples. -/
def gpioEdge (levels : Nat) (s : State) : State := gpioSample { s with gpioExt := levels % 65536 }

/-- A write of PAD_HOLD releases groups whose block is powered and clocked (R603). -/
def padRelease (s : State) (v : Nat) : State :=
  if s.mode = .doze || s.mode = .hold then s
  else
    let s1 := storeWord s .pwr 0 0x11C v
    if getF s .pwr 0 F.PWR_PAD_HOLD_GPIO = 1 && getF s1 .pwr 0 F.PWR_PAD_HOLD_GPIO = 0 then gpioFirst s1 else s1

/-! ### Supplies, time, temperature (R604, R617, R638, R645, R664) -/

/-- A write of TIMER.SEC starts or stops the always-on timer. -/
def timerSet (s : State) (v : Nat) : State :=
  let sec := v % 2 ^ 24
  let s1 := storeWord s .pwr 0 0x114 v
  { s1 with aon := { s1.aon with timer := if sec = 0 then none else some (s.now + sec * 1000000000) } }

/-- A write of RAIL_CFG belongs to the selected rail. -/
def railCfgSet (s : State) (v : Nat) : State := { s with pwr := { s.pwr with cfgs := mset s.pwr.cfgs (railSel s) (v % 65536) } }

/-- A write of CH_CFG, CH_PARAM or CH_THR belongs to the selected channel; channels 0 to 7 ignore ENABLE, GROUP and the
parameters. -/
def chSet (s : State) (off v : Nat) : State :=
  let c := chSel s
  let x := chAt s c
  match off with
  | 0x104 => setCh s c { x with cfg := if c < 8 then v &&& 0x4000 else v &&& 0xCF00,
                                health := if 8 ≤ c && v / 32768 % 2 = 0 then 3 else x.health }
  | 0x108 => if c < 8 then s else setCh s c { x with par := v }
  | _ => setCh s c { x with thr := v - v % 256 }

/-- The wall minute now counted began at an earlier instant. -/
def minuteBegun (s : State) : Bool :=
  match s.aon.wall with
  | some (_, t0) => !((wallNow s).getD 0 % 60 = 0 && (s.now - t0) % 1000000000 = 0)
  | none => false

/-- The wall time moves: the minute it was in closes, if it has begun (R664). -/
def wallClose (s : State) : State :=
  if minuteBegun s then
    closeMinute ((metered s).foldl (fun s t => modAcc s t (fun a => { a with timeSet := true })) s) s.meter.minute true
  else s

/-- Every tenant's minute from now on: it covers less than a whole minute, and `set` says that wall time was written in
it. -/
def wallFlags (s : State) (set part : Bool) : State :=
  (usedTenants s).foldl (fun s q => modAcc s q.1 (fun a => { a with timeSet := a.timeSet || set, part := a.part || part })) s

/-- A write of WALL_SET_HI commits the wall time (R645). 0 unsets it. -/
def wallSet (s : State) (hi : Nat) : State :=
  let v := hi % 256 * 2 ^ 32 + rd s .mtr 0 0x100
  let same := s.aon.wall.isSome && v / 60 = s.meter.minute
  let s1 := if same then s else wallClose s
  let s2 := { s1 with aon := { s1.aon with wall := if v = 0 then none else some (v, s.now) }, meter := { s1.meter with minute := v / 60 } }
  if same then wallFlags s2 true false else wallFlags s2 (!minuteBegun s) true

/-! ### Ethernet and interfaces (R112, R142, R144) -/

/-- A write of a wake key word; WAKE_KEY1_HI commits the four words. Byte 0 of the key is the lowest byte of its number. -/
def wakeKeySet (s : State) (p off v : Nat) : State :=
  let staged := mset (eth s p).wakeStaged ((off - 0x124) / 4) v
  let key := mgetD staged 0 0 + mgetD staged 1 0 * 2 ^ 32 + mgetD staged 2 0 * 2 ^ 64 + mgetD staged 3 0 * 2 ^ 96
  if off = 0x130 then modEth s p (fun e => { e with wakeStaged := staged, wakeKey := key })
  else modEth s p (fun e => { e with wakeStaged := staged })

/-- A write of PORT_CTRL: ENABLE 0 treats the link as down, and 1 lets a port that holds its lock come up (R103, R144). -/
def portCtrl (s : State) (p v : Nat) : State :=
  let s1 := storeWord s .eth p 0x100 v
  if getF s1 .eth p F.ETH_PORT_CTRL_ENABLE = 0 then linkGoesDown p true s1 else portTryUp p s1

/-- A write of IF_SEL loads the selected entry. -/
def ifLoad (s : State) : State :=
  let e := ifAt s (getF s .tte 0 F.TTE_IF_SEL_INDEX)
  let w (j : Nat) : Nat := e.addr / 2 ^ (32 * (3 - j)) % 2 ^ 32
  wr (wr (wr (wr (wr s .tte 0 0x120 (w 0)) .tte 0 0x124 (w 1)) .tte 0 0x128 (w 2)) .tte 0 0x12C (w 3)) .tte 0 0x130 e.cfg

/-- A connection accepted through an entry still matches its new value. -/
def ifStill (old new : IfEntry) (c : Conn) : Bool :=
  new.valid && old.addr = new.addr && old.vlan = new.vlan && new.onPort c.port

/-- A write of IF_CFG commits the five registers to the selected entry; connections that no longer match are lost. -/
def ifCommit (s : State) : State :=
  let i := getF s .tte 0 F.TTE_IF_SEL_INDEX
  let w (off : Nat) : Nat := rd s .tte 0 off
  let new : IfEntry := ⟨((w 0x120 * 2 ^ 32 + w 0x124) * 2 ^ 32 + w 0x128) * 2 ^ 32 + w 0x12C, w 0x130⟩
  let old := ifAt s i
  let lost := (s.conns.filter (fun q => q.2.ifIdx = i && !ifStill old new q.2)).map Prod.fst
  connsLost { s with ifs := mput s.ifs i {} new } lost

/-! ### What writes bring about -/

/-- A write of REC.HOLD: CLEAR, then FREEZE, then UNFREEZE. -/
def holdSet (s : State) (v : Nat) : State :=
  let s1 := if v / 2 % 2 = 1 then recClear s else s
  let s2 := if v % 2 = 1 then recFreeze s1 else s1
  if v / 4 % 2 = 1 then recUnfreeze s2 else s2

/-- A write of SB_CTRL that would clear both enables sets both (R92). -/
def sbCtrl (s : State) (v : Nat) : State := storeWord s .mgt 0 0x100 (if v % 4 = 0 then 3 else v)

/-- A write of TFn.CTRL: QUIESCE begins and ends quiescing (R220, R223). -/
def tfCtrl (s : State) (p : Path) (t v : Nat) : State :=
  let s1 := if v / 2 ^ 31 % 2 = 1 then errClr s .tf t else s
  if !p.isFw && rd s .tf t 0x038 % 2 = 1 then s1
  else if v % 2 = 1 then quiesceBegin s1 t else quiesceEnd s1 t

/-- The cache of a page. -/
def cacheOf : PageKind → Option CacheId
  | .mcc => some .mcc
  | .ccc => some .ccc
  | _ => none

/-- A write of a cache register. -/
def cacheWrite (s : State) (c : CacheId) (off v : Nat) : State :=
  let s1 := storeWord s c.page 0 off v
  match off with
  | 0x100 => regionSelect c s1
  | 0x110 => regionCommit c s1
  | 0x128 => if v % 2 = 1 then maintGo c v s1 else s1
  | _ => s1

/-- A write of TILn.SUSP_CTRL: the reads that wait on the tile's flash dies are evaluated again (R384). -/
def suspCtrl (s : State) (t : Nat) : State :=
  ((s.dies.filter (fun q => tileOfDie q.1 = t)).map Prod.fst).foldl evalRead s

/-- The effect of a write that passed every check, at an offset of 0x100 or above. -/
def blockWrite (s : State) (k : PageKind) (i off v : Nat) : State :=
  match k, off with
  | .pwr, 0x114 => timerSet s v
  | .pwr, 0x118 => pump (storeWord s k i off v)
  | .pwr, 0x11C => padRelease s v
  | .pwr, 0x130 => railCfgSet s v
  | .thm, 0x104 => chSet s off v
  | .thm, 0x108 => chSet s off v
  | .thm, 0x10C => chSet s off v
  | .thm, _ => pump (storeWord s k i off v)
  | .mape, _ => pump (storeWord s k i off v)
  | .mrj, _ => pump (storeWord s k i off v)
  | .til, 0x118 => suspCtrl (storeWord s k i off v) i
  | .recd, 0x100 => holdSet s v
  | .mtr, 0x100 => wr s .mtr 0 0x100 v
  | .mtr, 0x104 => wallSet s v
  | .sea, 0x130 => testWrite v s
  | .mgt, 0x100 => sbCtrl s v
  | .gpio, 0x100 => gpioSample (storeWord s k i off v)
  | .gpio, 0x104 => gpioSample (storeWord s k i off v)
  | .eth, 0x100 => portCtrl s i v
  | .eth, 0x110 => pfcReview (storeWord s k i off v) i
  | .eth, 0x114 => pfcReview (storeWord s k i off v) i
  | .eth, 0x124 => wakeKeySet s i off v
  | .eth, 0x128 => wakeKeySet s i off v
  | .eth, 0x12C => wakeKeySet s i off v
  | .eth, 0x130 => wakeKeySet s i off v
  | .tte, 0x11C => ifLoad (storeWord s k i off v)
  | .tte, 0x130 => ifCommit (storeWord s k i off v)
  | .qeng, _ => pump (storeWord (rebaseAll s) k i off v)
  | .drx, 0x10C => spareCtrl (v % 2 = 1) (storeWord s k i off v)
  | .nim, 0x100 => if v % 2 = 1 then nimRetrain (storeWord s k i off v) i .toTile else storeWord s k i off v
  | .lan, 0x138 => if v % 2 = 1 then diagGo (storeWord s k i off v) i else storeWord s k i off v
  | _, _ => match cacheOf k with
    | some c => cacheWrite s c off v
    | none => storeWord s k i off v

/-- The effect of a write that passed every check. -/
def doWrite (s : State) (p : Path) (k : PageKind) (i off v : Nat) : State :=
  if 0x100 ≤ off then blockWrite s k i off v
  else if off = 0x038 then storeLock s p k i v
  else if off = 0x010 then
    match k with
    | .tf => tfCtrl s p i v
    | .mcc => cacheCtrl .mcc (storeCtrl s p k i v)
    | .ccc => cacheCtrl .ccc (storeCtrl s p k i v)
    | _ => storeCtrl s p k i v
  else storeWord s k i off v

/-! ### What reads bring about -/

/-- A read clears the register's RC fields (R12, R15). -/
def clearRc (s : State) (k : PageKind) (i off : Nat) : State :=
  let fs := (fieldsAt k off).filter (fun f => f.acc = .rc)
  if fs.isEmpty then s else wr s k i off (fs.foldl (fun w f => putBits w f.hi f.lo 0) (rd s k i off))

/-- The effect of a read that passed every check and does not come from the shadow. -/
def readEffect (s : State) (k : PageKind) (i off : Nat) : State :=
  match k, off with
  | .pwr, 0x10C => { s with aon := { s.aon with aonHi := aonTicks s / 2 ^ 32 } }
  | .recd, 0x108 => { s with aon := { s.aon with posHi := s.pos / 2 ^ 32 % 256 } }
  | .recd, 0x11C => setF s .recd 0 F.REC_RD_SEL_WORD ((getF s .recd 0 F.REC_RD_SEL_WORD + 1) % 2 ^ 18)
  | .mtr, 0x108 => { s with meter := { s.meter with wallHi := (wallNow s).getD 0 / 2 ^ 32 % 256 } }
  | .sea, 0x130 => (testRead s).2
  | .gpio, 0x110 => { s with free := s.free + 1 }
  | _, _ => clearRc s k i off

/-- The value that a read returns. WAKE_N's level is the board's (log 4). -/
def readValue (s : State) (k : PageKind) (i off : Nat) : Nat :=
  match k, off with
  | .sea, 0x130 => (testRead s).1
  | .gpio, 0x110 => regWord s k i off + (Config.freeWord s.free).toNat % 2
  | _, _ => regWord s k i off &&& readMask k off

/-! ### One access (R72–R78) -/

/-- One register access: `v` is the value of a write, none for a read. -/
def regAccess (p : Path) (addr : Nat) (v : Option Nat) (s : State) : AccAns :=
  match pageAt (addr / 0x1000) with
  | none => refuseAccess s p .dir 0 v.isSome 1 addr
  | some (k, i) =>
    match failedCheck s p k i addr v with
    | some 4 => refuseAccess (bump s .pwr 0 F.PWR_ASLEEP_REF_COUNT) p .pwr 0 v.isSome 4 addr
    | some n => refuseAccess s p k i v.isSome n addr
    | none =>
      let off := addr % 0x1000
      match v with
      | some v => ⟨0, 0, doWrite s p k i off (v % 2 ^ 32)⟩
      | none =>
        if pageAsleep s k i then ⟨0, if off = 0x14 then 2 ^ 31 else readValue s k i off, s⟩
        else ⟨0, readValue s k i off, readEffect s k i off⟩

/-! ### Which paths are answered (R16, R88, R597, R704) -/

/-- The part stays in the boot ROM (SVC_CAUSE 0x07). -/
def inBootRom (s : State) : Bool := s.mode = .service && getF s .boot 0 F.BOOT_START_SVC_CAUSE = 7

/-- A register page that the sideband still answers in the boot ROM (R704). -/
def romAnswers (addr : Nat) (write : Bool) : Bool :=
  !write && (match pageAt (addr / 0x1000) with
    | some (.dir, _) => true
    | some (.pwr, _) => true
    | some (.boot, _) => true
    | some (.fwp, _) => true
    | _ => false)

/-- An access of a path is answered in the present mode: none before start-up ends, the sideband not in HOLD. -/
def pathOpen (s : State) (p : Path) (addr : Nat) (write : Bool) : Bool :=
  if s.mode = .reset || s.mode = .starting then false
  else match p with
    | .mf _ _ => s.mode = .run || s.mode = .guard || (s.mode = .service && !inBootRom s)
    | .firmware => true
    | _ => s.mode ≠ .hold && (!inBootRom s || romAnswers addr write)

/-- Byte address of a register. -/
def regAddr (k : PageKind) (i off : Nat) : Nat := pageBase k i + off

/-! ### The sideband (R88–R95) -/

/-- Path of a sideband transaction. -/
def SbBus.path : SbBus → Path
  | .i3c a => .i3c a
  | .smbus a _ => .smbus a

/-- The part acknowledges the transaction: the protocol is enabled, and the address is the dynamic one over I3C, 0x3A over
SMBus while none is assigned. -/
def sbHears (s : State) (b : SbBus) : Bool :=
  !(s.mode = .reset || s.mode = .starting || s.mode = .hold) &&
  (match b with
  | .i3c a => getF s .mgt 0 F.MGT_SB_CTRL_I3C_EN = 1 && getF s .mgt 0 F.MGT_SB_STAT_DA_VALID = 1 &&
      a = getF s .mgt 0 F.MGT_SB_STAT_DYN_ADDR
  | .smbus a _ => getF s .mgt 0 F.MGT_SB_CTRL_SMB_EN = 1 && getF s .mgt 0 F.MGT_SB_STAT_DA_VALID = 0 && a = 0x3A)

/-- SB_STAT.MODE of a protocol. -/
def SbBus.code : SbBus → Nat
  | .i3c _ => 1
  | .smbus _ _ => 2

/-- The transaction's PEC is right; I3C carries none. -/
def SbBus.good : SbBus → Bool
  | .i3c _ => true
  | .smbus _ ok => ok

/-- One MGT error of the sideband (R94). -/
def sbError (s : State) (p : Path) (cause : Nat) : State := report s .mgt 0 p.src 0 cause (p.detail s) 0 0

/-- A transaction that the part hears: one with a wrong PEC is discarded and reported (R88, R93, R94). -/
def sbTake (b : SbBus) (run : State → State) (s : State) : State :=
  if sbHears s b then
    let s1 := setF s .mgt 0 F.MGT_SB_STAT_MODE b.code
    if b.good then run s1
    else raise (sbError (bump s1 .mgt 0 F.MGT_PEC_FAIL) b.path 1) .mgt 0 F.MGT_INT_RAW_PEC_FAIL
  else s

/-- A Write or Read command: the access, its count, and its 5-byte result. -/
def sbAccess (b : SbBus) (addr : Nat) (v : Option Nat) (s : State) : State :=
  sbTake b (fun s =>
    if pathOpen s b.path addr v.isSome then
      let a := regAccess b.path addr v s
      let s1 := bump a.s .mgt 0 (if a.st = 0 then F.MGT_SB_CMDS_DONE else F.MGT_SB_CMDS_DENIED)
      let r := a.st % 256 :: leBytes 4 a.val
      emit { s1 with mgmt := { s1.mgmt with lastResult := r } } (.sbResult r)
    else s) s

/-- The Last result command. -/
def sbLast (b : SbBus) (s : State) : State := sbTake b (fun s => emit s (.sbResult s.mgmt.lastResult)) s

/-- A transaction with another command byte. -/
def sbBad (b : SbBus) (s : State) : State :=
  sbTake b (fun s => raise (sbError s b.path 2) .mgt 0 F.MGT_INT_RAW_CMD_BAD) s

/-- An I3C bus command of the controller is heard. -/
def cccHears (s : State) : Bool :=
  !(s.mode = .reset || s.mode = .starting || s.mode = .hold) && getF s .mgt 0 F.MGT_SB_CTRL_I3C_EN = 1

/-- SETDASA or ENTDAA assigns a dynamic address. -/
def assignAddr (a : Nat) (s : State) : State :=
  if cccHears s then
    let s1 := setF (setF s .mgt 0 F.MGT_SB_STAT_MODE 1) .mgt 0 F.MGT_SB_STAT_DYN_ADDR a
    raise (setF s1 .mgt 0 F.MGT_SB_STAT_DA_VALID 1) .mgt 0 F.MGT_INT_RAW_DA_ASSIGNED
  else s

/-- ENEC and DISEC switch in-band interrupts of the assigned address; with none assigned they change nothing (DESIGN
CHOICE, log 149). -/
def ibiEnable (on : Bool) (s : State) : State :=
  if cccHears s && getF s .mgt 0 F.MGT_SB_STAT_DA_VALID = 1 then
    setF (setF s .mgt 0 F.MGT_SB_STAT_MODE 1) .mgt 0 F.MGT_SB_STAT_IBI_ON on.toNat
  else s

/-! ### Single accesses and batches (R79–R86) -/

/-- A single access: over the sideband it is a Write or Read command. -/
def accessBy (p : Path) (addr : Nat) (v : Option Nat) (s : State) : State :=
  match p with
  | .i3c a => sbAccess (.i3c a) addr v s
  | .smbus a => sbAccess (.smbus a true) addr v s
  | _ =>
    if pathOpen s p addr v.isSome then
      let a := regAccess p addr v s
      emit a.s (.access addr a.st a.val)
    else s

/-- A write of a register. -/
def writeReg (p : Path) (k : PageKind) (i off v : Nat) (s : State) : State := accessBy p (regAddr k i off) (some v) s

/-- A read of a register. -/
def readReg (p : Path) (k : PageKind) (i off : Nat) (s : State) : State := accessBy p (regAddr k i off) none s

/-- A completion, unless the batch lost its connection or reset the part. -/
def postLive (s : State) (q : Capsule) (dw0 : Nat) (data : List Nat) : State :=
  if s.mode = .reset || (connOf s q.conn).isNone then s else postOk s q.conn q.cid dw0 data

/-- The registers of one run of REG_READ: a command dword. -/
def runRegs (d : Nat) : List Nat :=
  if d / 2 ^ 25 % 2 = 1 then (List.range (bitsOf d 31 26 + 1)).map (fun j => (d % 2 ^ 20 + j) * 4) else []

/-- Read registers in order: entries, number refused, first refusal's status. -/
def readAll (p : Path) : List Nat → State → List Nat × Nat × Nat × State
  | [], s => ([], 0, 0, s)
  | addr :: t, s =>
    if s.mode = .reset then ([], 0, 0, s)
    else
      let a := regAccess p addr none s
      let r := readAll p t a.s
      let bad := a.st ≠ 0
      (leBytes 4 a.val ++ leBytes 2 a.st ++ [0, 0] ++ r.1, r.2.1 + (decide bad).toNat, if bad then a.st else r.2.2.1, r.2.2.2)

/-- REG_READ. -/
def regRead (q : Capsule) (s : State) : State :=
  admin q (mfOnly [0xFFFFFFFF, 0xFFFFFFFF, 0xFFFFFFFF, 0xFFFFFFFF, 0, 0]) (fun _ s =>
    let ds := [q.dw10, q.dw11, q.dw12, q.dw13].map (· % 2 ^ 32)
    let regs := (ds.map runRegs).flatten
    if ds.any (fun d => bitsOf d 24 20 ≠ 0) || regs.isEmpty || 64 < regs.length then no stInvalidField
    else if q.len < 8 * regs.length then no stSglLength
    else
      let r := readAll (.mf q.conn q.cid) regs s
      .yes (postLive r.2.2.2 q (r.2.1 * 65536 + r.2.2.1) r.1)) s

/-- Access status NOT_RUN of an entry behind the one that stopped its batch (R84). -/
def stNotRun : Nat := 0x00FF

/-- Apply entries in order up to the first refusal: the status of every entry, and the state. The interrupt lines follow
each entry (R99, R100). -/
def writeAll (p : Path) : List (Nat × Nat) → State → List Nat × State
  | [], s => ([], s)
  | (addr, v) :: t, s =>
    if s.mode = .reset then (stNotRun :: t.map (fun _ => stNotRun), s)
    else
    let a := regAccess p addr (some v) s
    if a.st ≠ 0 then (a.st :: t.map (fun _ => stNotRun), a.s)
    else
      let r := writeAll p t (settleAlert a.s)
      (0 :: r.1, r.2)

/-- Dword 0 of REG_WRITE's completion (R85): the entries applied before the stop, and the status that stopped. -/
def writeDw0 (sts : List Nat) : Nat := (sts.takeWhile (· = 0)).length * 65536 + (sts.find? (· ≠ 0)).getD 0

/-- REG_WRITE: `l` are the entries of the data buffer. -/
def regWrite (q : Capsule) (l : List (Nat × Nat)) (s : State) : State :=
  admin q (mfOnly [0x7F, 0xFFFFFFFF, 0xFFFFFFFF, 0xFFFFFFFF, 0xFFFFFFFF, 0xFFFFFFFF]) (fun _ s =>
    let n := bitsOf q.dw10 6 0
    if n = 0 || 64 < n then no stInvalidField
    else if q.len < 8 * n then no stSglLength
    else
      let r := writeAll (.mf q.conn q.cid) ((List.range n).map (fun i => l.getD i (0, 0))) s
      .yes (postLive r.2 q (writeDw0 r.1) [])) s

end Sys2Proof.Machine
end

