-- ==== Sys2Proof/Machine/Registers.lean ====
section
/-! DEFINITION. The commands that reach registers: single accesses by any path, REG_READ and REG_WRITE, the sideband, and
the accesses of registers that have a behaviour of their own (02_register_pages.md and the register tables). -/

namespace Sys2Proof.Machine

/-! ### Meanings: any register -/

def execRegisterWrite (p : Path) (addr v : Nat) (s : State) : Res := done (accessBy p addr (some v) s)
def execRcRead (p : Path) (addr : Nat) (s : State) : Res := done (accessBy p addr none s)
/-- ERR_CLR of a page, with the other bits of the CTRL value written. -/
def execErrClr (p : Path) (page v : Nat) (s : State) : Res :=
  done (accessBy p (page * 0x1000 + 0x010) (some (2 ^ 31 + v % 2 ^ 31)) s)
def execRegRead (q : Capsule) (s : State) : Res :=
  done (inTurn q (.regRead q) false (regRead q) s)
def execRegWrite (q : Capsule) (l : List (Nat × Nat)) (s : State) : Res :=
  done (inTurn q (.regWrite q l) false (regWrite q l) s)

/-! ### Meanings: the sideband -/

def execSbWrite (b : SbBus) (addr v : Nat) (s : State) : Res := done (sbAccess b addr (some v) s)
def execSbRead (b : SbBus) (addr : Nat) (s : State) : Res := done (sbAccess b addr none s)
def execSbLastResult (b : SbBus) (s : State) : Res := done (sbLast b s)
def execSbBadCommand (b : SbBus) (s : State) : Res := done (sbBad b s)
def execI3cAddressAssign (a : Fin 128) (s : State) : Res := done (assignAddr a.val s)
def execI3cIbiEnable (on : Bool) (s : State) : Res := done (ibiEnable on s)

/-! ### Meanings: links, ports, interfaces -/

def execRetrainReq (p : Path) (n : Fin 4) (v : Nat) (s : State) : Res := done (writeReg p .nim n.val 0x100 (v ||| 1) s)
def execPortEnable (p : Path) (port : Fin 2) (v : Nat) (s : State) : Res := done (writeReg p .eth port.val 0x100 v s)
def execWakeKeyCommit (p : Path) (port : Fin 2) (v : Nat) (s : State) : Res := done (writeReg p .eth port.val 0x130 v s)
def execIfSelLoad (p : Path) (v : Nat) (s : State) : Res := done (writeReg p .tte 0 0x11C v s)
def execIfCfgCommit (p : Path) (v : Nat) (s : State) : Res := done (writeReg p .tte 0 0x130 v s)

/-! ### Meanings: tenants, lanes, memories -/

def execQuiesce (p : Path) (t : Fin 512) (s : State) : Res := done (writeReg p .tf t.val 0x010 1 s)
def execQuiesceEnd (p : Path) (t : Fin 512) (s : State) : Res := done (writeReg p .tf t.val 0x010 0 s)
def execDiagRead (p : Path) (l : Fin 64) (v : Nat) (s : State) : Res := done (writeReg p .lan l.val 0x138 (v ||| 1) s)
def execSpareForce (p : Path) (v : Nat) (s : State) : Res := done (writeReg p .drx 0 0x10C (v ||| 1) s)
def execTestDataWrite (p : Path) (v : Nat) (s : State) : Res := done (writeReg p .sea 0 0x130 v s)
def execTestDataRead (p : Path) (s : State) : Res := done (readReg p .sea 0 0x130 s)

/-! ### Meanings: caches -/

/-- A write of MAINT_CTRL with GO and an operation code. -/
def maintWrite (p : Path) (c : CacheId) (op v : Nat) (s : State) : State :=
  writeReg p c.page 0 0x128 (putBits v 3 0 (op * 2 + 1)) s

/-- An operation code that R576 does not run for this request: one above 4, preload by set and way, else 0. -/
def badOp (v : Nat) : Nat :=
  if 4 < bitsOf v 3 1 || (bitsOf v 3 1 = 4 && bitsOf v 4 4 = 1) then bitsOf v 3 1 else 0

def execCacheClean (p : Path) (c : CacheId) (w : MaintWrite) (s : State) : Res :=
  done (maintWrite p c 1 w.word (addBad c w.bad s))
def execCacheInvalidate (p : Path) (c : CacheId) (w : MaintWrite) (s : State) : Res :=
  done (maintWrite p c 2 w.word (addBad c w.bad s))
def execCacheCleanInvalidate (p : Path) (c : CacheId) (w : MaintWrite) (s : State) : Res :=
  done (maintWrite p c 3 w.word (addBad c w.bad s))
/-- Preload has the address form only. -/
def execCachePreload (p : Path) (c : CacheId) (w : MaintWrite) (s : State) : Res :=
  done (maintWrite p c 4 (putBits w.word 4 4 0) (addBad c w.bad s))
def execCacheMaintInvalid (p : Path) (c : CacheId) (v : Nat) (s : State) : Res := done (maintWrite p c (badOp v) v s)
def execCacheEnable (p : Path) (c : CacheId) (v : Nat) (s : State) : Res :=
  done (writeReg p c.page 0 0x010 (putBits v 0 0 1) s)
def execCacheDisable (p : Path) (c : CacheId) (v : Nat) (s : State) : Res :=
  done (writeReg p c.page 0 0x010 (putBits v 0 0 0) s)
def execRegionSelect (p : Path) (c : CacheId) (v : Nat) (s : State) : Res := done (writeReg p c.page 0 0x100 v s)
def execRegionCommit (p : Path) (c : CacheId) (v : Nat) (s : State) : Res := done (writeReg p c.page 0 0x110 v s)

/-! ### Meanings: time, pads, the recorder -/

def execTimerSet (p : Path) (v : Nat) (s : State) : Res := done (writeReg p .pwr 0 0x114 v s)
def execAonLoRead (p : Path) (s : State) : Res := done (readReg p .pwr 0 0x10C s)
def execPadHoldRelease (v : Nat) (s : State) : Res := done (writeReg .firmware .pwr 0 0x11C v s)
def execWallSet (p : Path) (v : Nat) (s : State) : Res := done (writeReg p .mtr 0 0x104 v s)
def execWallLoRead (p : Path) (s : State) : Res := done (readReg p .mtr 0 0x108 s)
def execRecFreeze (p : Path) (s : State) : Res := done (writeReg p .recd 0 0x100 1 s)
def execRecUnfreeze (p : Path) (s : State) : Res := done (writeReg p .recd 0 0x100 4 s)
def execRecClear (p : Path) (s : State) : Res := done (writeReg p .recd 0 0x100 2 s)
def execRdDataRead (p : Path) (s : State) : Res := done (readReg p .recd 0 0x11C s)
def execPosLoRead (p : Path) (s : State) : Res := done (readReg p .recd 0 0x108 s)
def execGpioEdge (levels : BitVec 16) (s : State) : Res := done (gpioEdge levels.toNat s)

end Sys2Proof.Machine
end

