-- ==== Sys2Proof/Machine/RecoverOps.lean ====
section
/-! DEFINITION. Map recovery: the ring is read from the saved tail, the tables and every namespace's map are rebuilt from
checkpoints, records and tags, lost sectors are found, and open bands are closed (08_map_durability.md R353, R358–R362;
12_sorrel_keys_cipher.md R486; 13_tenant_migration.md R507). -/

namespace Sys2Proof.Machine

/-! ### The ring and the tables (R358 steps 1 and 2) -/

/-- The ring is read: a record before the head whose CHK fails is reported, and it and every later one are lost. -/
def readRing (s : State) (bad : Option Nat) : State :=
  match bad with
  | some i =>
    if s.jr.tail ≤ i && i < s.jr.head then
      blockError { s with jr := { s.jr with ring := s.jr.ring.filter (·.1 < i), head := i } } .mrj 0 1 0 (i % ringSize) 0
    else s
  | none => s

/-- The band table after one record. -/
def bandRec (s : State) (m : FMap Band) (r : JRec) : FMap Band :=
  match r with
  | .bandOpen h d stream _ g _ =>
    if (mget m h).isSome then m
    else mset m h { dieSet := d, stream := stream, bits := (dsAt s d).elim 4 (fun x => modeBits x.mode),
                    rows := (dsAt s d).elim 0 (fun x => wlOf s (x.members.headD 0)), groups := g, members := [] }
  | .bandBlock h mem die blk =>
    mmod m h (fun b => if b.members.any (·.1 = mem) then b else { b with members := b.members ++ [(mem, die, blk)] })
  | .bandClose h n pos => mmod m h (fun b => { b with closed := true, next := n, closedAt := pos })
  | .release h => mdel m h
  | .settled h => mmod m h (fun b => { b with settled := true })
  | .extent _ _ _ h _ _ _ _ true => mmod m h (fun b => { b with conv := true })
  | _ => m

/-- The bands as the checkpointed table and the records after its cut give them. -/
def bandTable (s : State) : FMap Band :=
  (s.jr.ring.filter (fun q => s.tabCkpt.cut ≤ q.1)).foldl (fun m q => bandRec s m q.2) s.tabCkpt.bands

/-- The data slot that a page of a band's block is. -/
def Band.slotAt (b : Band) (pua : Nat) : Option Nat :=
  match (List.range b.size).find? (fun p => b.die p = puaDie pua && b.blk p = puaBlk pua) with
  | some p =>
    let r := puaPage pua / b.bits
    if (b.parities r).contains p then none else some (b.slotOf r p (puaPage pua % b.bits * 4 + puaPlane pua))
  | none => none

/-- The pages of a band that the flash holds. -/
def bandPages (s : State) (b : Band) : List (Nat × List Cw) := s.flash.filter (fun q => b.holds q.1)

/-- Program units of a band of which a page is programmed. -/
def bandDone (s : State) (b : Band) : List Nat :=
  ((bandPages s b).filterMap (fun q =>
    ((List.range b.size).find? (fun p => b.die p = puaDie q.1 && b.blk p = puaBlk q.1)).map (fun p =>
      unitCode (puaPage q.1 / b.bits) p))).eraseDups

/-- One past the last slot that a record gives in a band. -/
def lastJournaled (s : State) (h : Nat) : Nat :=
  s.jr.ring.foldl (fun n q => match q.2 with
    | .extent _ _ c h' sl _ _ _ cv => if h' = h then max n (if cv then sl + 1 else sl + c) else n
    | _ => n) 0

/-- One past the last slot that is programmed in a band. -/
def lastProgrammed (s : State) (b : Band) : Nat :=
  (bandPages s b).foldl (fun n q => match b.slotAt q.1 with
    | some k => max n (k + 1)
    | none => n) 0

/-- The last written row of a band has parity units that are not programmed. -/
def parityMissing (b : Band) : Bool :=
  match b.done with
  | [] => false
  | _ =>
    let r := (b.done.map (· / 64)).foldl max 0
    (b.parities r).any (fun p => !b.done.contains (unitCode r p))

/-- The bands in recovery, each with what the flash holds of it. -/
def loadBands (s : State) : State :=
  { s with bands := (bandTable s).map (fun q =>
      (q.1, { q.2 with
        slots := [], accs := [], sent := [], failed := [], victim := none, openRec := 0,
        refresh := q.2.refresh || q.2.members.any (fun m => dieOut s m.2.1),
        done := bandDone s q.2,
        next := if q.2.closed then q.2.next else max (lastJournaled s q.1) (lastProgrammed s q.2) })) }

/-- The block table follows the bands: a block of a band is closed, one that was taken and lies in no band is queued for
erase; every release lies in the ring. Relocation is stopped until free
bands have fallen to START (R314). -/
def loadBlocks (s : State) : State :=
  { s with blks := s.blks.map (fun q0 =>
      let q := (q0.1, { q0.2 with asked := false, relBand := 0 })
      let inBand := (bandOfBlk s (q.1 / 8192) (q.1 % 8192)).isSome
      (q.1, match q.2.state with
        | .open => if inBand then { q.2 with state := .closed, waitRec := 0 } else { q.2 with state := .queued, waitRec := 0, dirty := true }
        | .closed => if inBand then { q.2 with waitRec := 0 } else { q.2 with state := .queued, waitRec := 0, dirty := true }
        | .queued => if inBand then { q.2 with state := .closed, waitRec := 0 } else { q.2 with waitRec := 0, dirty := true }
        | _ => { q.2 with waitRec := 0 })),
           diesets := s.diesets.map (fun q => (q.1, { q.2 with running := false })) }

/-- Zone descriptors after one record of a namespace. -/
def zoneRec (n : Ns) (k : Nat) (m : FMap Zone) (r : JRec) : FMap Zone :=
  match r with
  | .zone k' z e ev =>
    if k' ≠ k then m
    else mset m z (match ev with
      | 1 => { state := .empty, wp := 0, epoch := e }
      | 2 => { state := .full, wp := zoneSize n, epoch := e }
      | 3 => { (mgetD m z ({} : Zone)) with state := .offline, epoch := e }
      | _ => { state := .readOnly, wp := 0, epoch := e })
  | .extent k' f c _ _ false _ tail false =>
    if k' ≠ k then m
    else
      let z := f * 4 / zoneSize n
      let e := (f + c - 1) * 4 + (if tail = 0 then 4 else tail) - z * zoneSize n
      let x : Zone := mgetD m z {}
      mset m z { x with wp := max x.wp e }
  | _ => m

/-! ### Zoned maps (R359) -/

/-- The checkpoint of a segment that recovery may use: one that follows the erase cut (R486). -/
def segCkpt (s : State) (k : Nat) (n : Ns) (seg : Nat) : Option Ckpt :=
  (mget s.ckpts (ckptKey k seg)).filter (fun c => n.eraseCut < c.madeAt || n.eraseCut = 0)

/-- The entries of every usable checkpoint. -/
def ckptEnts (s : State) (k : Nat) (n : Ns) : FMap MapEnt :=
  ((s.ckpts.filter (fun q => q.1 / 131072 = k && (n.eraseCut < q.2.madeAt || n.eraseCut = 0))).map (fun q => q.2.ents)).flatten

/-- The cut of the segment of an entry; every record counts where there is no checkpoint. -/
def cutOf (s : State) (k : Nat) (n : Ns) (i : Nat) : Nat := (segCkpt s k n (i / segEntries)).elim 0 (·.cut)

/-- The zoned map after one record. -/
def zonedRec (s : State) (k : Nat) (n : Ns) (m : FMap MapEnt) (q : Nat × JRec) : FMap MapEnt :=
  match q.2 with
  | .extent k' f c h sl _ _ _ false =>
    (match bandAt s h with
    | some b =>
      if k' ≠ k then m
      else (List.range c).foldl (fun m i => if cutOf s k n (f + i) ≤ q.1 then mset m (f + i) (.at (b.slotPua (sl + i)) 0) else m) m
    | none => m)
  | .zone k' z _ ev =>
    if k' ≠ k || ev = 2 then m
    else m.filter (fun e => !(z * zoneSize n / 4 ≤ e.1 && e.1 < (z + 1) * zoneSize n / 4 && cutOf s k n e.1 ≤ q.1))
  | .poison k' f c _ =>
    if k' ≠ k then m
    else (List.range c).foldl (fun m i => if cutOf s k n (f + i) ≤ q.1 then mset m (f + i) .lost else m) m
  | _ => m

/-- The scan of a band comes to a slot: every page of its member from the last journaled slot on to it is programmed. -/
def scanReaches (s : State) (b : Band) (from_ k : Nat) : Bool :=
  (List.range (k + 1 - from_)).all (fun i =>
    (b.place (from_ + i)).2.1 ≠ (b.place k).2.1 || (mget s.flash (b.slotPua (from_ + i))).isSome)

/-- The codewords that a scan of the open host bands finds after each band's last journaled slot, in slot order, up to the
first erased plane page of each member: place and sector. -/
def scanned (s : State) : List (Nat × Nat × Sector) :=
  ((s.bands.filter (fun q => !q.2.closed && q.2.stream < 28)).map (fun q =>
    let j := lastJournaled s q.1
    let ks : FMap (Nat × List Cw) := (bandPages s q.2).foldl (fun m p => match q.2.slotAt p.1 with
      | some k => if j ≤ k && scanReaches s q.2 j k then mset m k p else m
      | none => m) []
    (ks.map (fun p => ((List.range 4).zip p.2.2).filterMap (fun c => match c.2 with
        | .data x => some (p.2.1, c.1, x)
        | _ => none))).flatten)).flatten

/-- A scanned sector of a zoned namespace whose epoch is the zone's: it is mapped, and the write pointer follows it. -/
def scanZoned (k : Nat) (n : Ns) (a : FMap MapEnt × FMap Zone) (x : Nat × Nat × Sector) : FMap MapEnt × FMap Zone :=
  let z := x.2.2.lsa / zoneSize n
  let zn : Zone := mgetD a.2 z {}
  if x.2.2.nsk = k && !x.2.2.conv && x.2.2.nonce / 2 ^ 32 = zn.epoch then
    (mset a.1 (x.2.2.lsa / 4) (.at x.1 0), mset a.2 z { zn with wp := max zn.wp (x.2.2.lsa % zoneSize n + 1) })
  else a

/-- A zone after recovery: an open one is Closed, Empty at its start, Full at its end. -/
def zoneBack (n : Ns) (x : Zone) : Zone :=
  match x.state with
  | .full => x
  | .readOnly => x
  | .offline => x
  | _ => { x with state := if x.wp = 0 then .empty else if zoneSize n ≤ x.wp then .full else .closed }

/-- The records of the ring that count for a namespace (R486), with what an import had committed (R518). -/
def nsRecs (s : State) (n : Ns) : List (Nat × JRec) :=
  let m := migOf s n.tenant
  let imp := m.state = .importing && m.names n.nsid
  s.jr.ring.filter (fun q => n.eraseCut ≤ q.1 && (!imp || q.1 < m.commitAt))

/-- A zoned namespace is rebuilt. -/
def zonedBack (s : State) (k : Nat) (n : Ns) (base : FMap MapEnt) : Ns :=
  let m := migOf s n.tenant
  let rs := nsRecs s n
  let zs := (rs.filter (fun q => s.tabCkpt.cut ≤ q.1)).foldl (fun z q => zoneRec n k z q.2)
    (if n.eraseCut ≠ 0 && s.tabCkpt.cut ≤ n.eraseCut then [] else mgetD s.tabCkpt.zones k [])
  let mp := rs.foldl (zonedRec s k n) base
  let a := if m.state = .importing && m.names n.nsid then (mp, zs) else (scanned s).foldl (scanZoned k n) (mp, zs)
  { n with map := a.1, zones := (a.2.map (fun q => (q.1, zoneBack n q.2))).filter (fun q => q.2 ≠ {}) }

/-! ### Conventional maps (R360) -/

/-- The order of a band among those that are replayed: the ring's first BAND_OPEN record of it (R360). -/
def openOrder (s : State) (h : Nat) : Nat :=
  ((s.jr.ring.find? (fun q => match q.2 with
    | .bandOpen b _ _ _ _ _ => b = h
    | _ => false)).map Prod.fst).getD 0

/-- Replay order of a band's page: row, member, page of the program unit. -/
def Band.replayAt (b : Band) (pua : Nat) : Nat :=
  (puaPage pua / b.bits * 64 + ((List.range b.size).find? (fun p => b.die p = puaDie pua && b.blk p = puaBlk pua)).getD 0) * 16 +
    puaPage pua % b.bits * 4 + puaPlane pua

/-- A stored conventional sector is one of the namespace's: it names the key slot, and it is sealed under the slot's present
key, so that data from before a crypto-erase is not replayed (R360, R486; log 171). -/
def convOwn (s : State) (k : Nat) (x : Sector) : Bool :=
  x.nsk = k && x.conv && (match mget s.nsKeys k, nsAt s k with
    | some key, some n => (x.opened key n.nsid).isSome
    | _, _ => false)

/-- The sectors that unsettled bands hold for a namespace, in the order of the bands' BAND_OPEN records and within a band by
row and member: place and sector (R360). -/
def convTags (s : State) (k : Nat) : List (Nat × Nat × Sector) :=
  (((s.bands.filter (fun q => !q.2.settled)).mergeSort (fun a b => decide (openOrder s a.1 ≤ openOrder s b.1))).map (fun q =>
    let ps : FMap (Nat × List Cw) := (bandPages s q.2).foldl (fun m p => mset m (q.2.replayAt p.1) p) []
    (ps.map (fun p => ((List.range 4).zip p.2.2).filterMap (fun c => match c.2 with
      | .data x => if convOwn s k x then some (p.2.1, c.1, x) else none
      | _ => none))).flatten)).flatten

/-- A change of an entry under a write sequence takes effect when it is at least the cut of the entry's segment and above
every change that the replay has made to the entry. The pair is the map and the sequences applied. -/
def convChange (s : State) (k : Nat) (n : Ns) (i w : Nat) (e : Option MapEnt) (a : FMap MapEnt × FMap Nat) :
    FMap MapEnt × FMap Nat :=
  if cutOf s k n i ≤ w && (match mget a.2 i with | some w' => w' < w | none => true) then
    (match e with
      | some x => mset a.1 i x
      | none => mdel a.1 i, mset a.2 i w)
  else a

/-- The deallocations of a namespace in the ring: first, count and sequence. -/
def deallocs (k : Nat) : List (Nat × JRec) → List (Nat × Nat × Nat)
  | (_, .dealloc k' f c) :: (i, .seq w) :: t => if k' = k then (f, c, w) :: deallocs k t else deallocs k ((i, .seq w) :: t)
  | _ :: t => deallocs k t
  | [] => []

/-- The number of the last record, other than POISON, that changes an entry of a conventional namespace. -/
def lastChange (k i : Nat) (rs : List (Nat × JRec)) : Option Nat :=
  rs.foldl (fun a q => match q.2 with
    | .extent k' f c _ _ _ _ _ true => if k' = k && f ≤ i && i < f + c then some q.1 else a
    | .dealloc k' f c => if k' = k && f ≤ i && i < f + c then some q.1 else a
    | _ => a) none

/-- A POISON record that nothing later changed. -/
def convPoison (s : State) (k : Nat) (n : Ns) (rs : List (Nat × JRec)) (m : FMap MapEnt) (q : Nat × JRec) : FMap MapEnt :=
  match q.2 with
  | .poison k' f c _ =>
    if k' ≠ k then m
    else (List.range c).foldl (fun m i =>
      let made := (segCkpt s k n ((f + i) / segEntries)).elim 0 (·.madeAt)
      if made ≤ q.1 && (match lastChange k (f + i) rs with | some j => j < q.1 | none => true) then mset m (f + i) .lost else m) m
  | _ => m

/-- A conventional namespace is rebuilt. -/
def convBack (s : State) (k : Nat) (n : Ns) (base : FMap MapEnt) : Ns :=
  let m := migOf s n.tenant
  if m.state = .importing && m.names n.nsid then { n with map := base, dirty := [] }
  else
    let rs := nsRecs s n
    let a0 := (convTags s k).foldl (fun a x => convChange s k n x.2.2.lsa x.2.2.wseq (some (.at x.1 x.2.1)) a) (base, [])
    let a1 := (deallocs k rs).foldl (fun a d => (List.range d.2.1).foldl (fun a i => convChange s k n (d.1 + i) d.2.2 none a) a) a0
    let mp := rs.foldl (convPoison s k n rs) a1.1
    -- what the replay changed is dirty
    let moved := (mp.filter (fun e => mget base e.1 ≠ some e.2) ++ base.filter (fun e => mget mp e.1 ≠ some e.2)).map Prod.fst
    moved.foldl (fun n i => n.soil s.jr.tail i 1) { n with map := mp, dirty := [] }

/-! ### Lost sectors (R361) -/

/-- The place holds a verifying codeword of a sector, or of a unit. -/
def placeHolds (s : State) (k : Nat) (zoned : Bool) (i pua sub : Nat) : Bool :=
  match mget s.flash pua with
  | some cws =>
    if zoned then cws.any (fun c => match c with
      | .data x => x.nsk = k && x.lsa / 4 = i
      | _ => false)
    else (match cws.getD sub .garbled with
      | .data x => x.nsk = k && x.lsa = i
      | _ => false)
  | none => false

/-- The entries that the records of a range of places give: entry, place, codeword. -/
def extentPlaces (b : Band) : JRec → List (Nat × Nat × Nat)
  | .extent _ f c _ sl _ sub _ cv =>
    (List.range c).map (fun i => if cv then (f + i, b.slotPua (sl + (sub + i) / 4), (sub + i) % 4) else (f + i, b.slotPua (sl + i), 0))
  | _ => []

/-- Entries that an EXTENT record names, nothing later changed, and whose place holds no verifying codeword, with the place. -/
def lostEnts (s : State) (k : Nat) (n : Ns) : List (Nat × Nat) :=
  let rs := nsRecs s n
  (rs.map (fun q => match q.2 with
    | .extent k' f c h sl rl sub tail cv =>
      if k' ≠ k then []
      else match bandAt s h with
        | some b => ((extentPlaces b (.extent k' f c h sl rl sub tail cv)).filter (fun p =>
            (if n.zoned then mget n.map p.1 = some (.at p.2.1 0)
             else lastChange k p.1 rs = some q.1 && mget n.map p.1 ≠ some .lost) && !placeHolds s k n.zoned p.1 p.2.1 p.2.2)).map
            (fun p => (p.1, p.2.1))
        | none => []
    | _ => [])).flatten

/-- CAUSE of R181: 0x01 where the page reads erased. -/
def lostCause (s : State) (pua : Nat) : Nat := if (mget s.flash pua).isNone then 1 else 2

/-- The entries of a namespace that are lost: after a complete sequence they record no loss; after any other reset they are
marked, journalled and reported at once. -/
def recoverLost (s : State) (k : Nat) : State :=
  match nsAt s k with
  | some n =>
    let l := lostEnts s k n
    if s.plStat.kind = 1 then
      if n.zoned then modNs s k (fun n => { n with map := n.map.filter (fun e => !(l.map Prod.fst).contains e.1) }) else s
    else
      [1, 2].foldl (fun s c =>
        (runsOf (((l.filter (fun e => lostCause s e.2 = c)).map Prod.fst).eraseDups.mergeSort (fun a b => decide (a ≤ b)))).foldl
          (fun s r => poisonAct (jStage s [.poison k r.1 r.2 c]) k r.1 r.2 c s.pos (entsAt s k r.1 r.2)) s) s
  | none => s

/-! ### A namespace (R359–R362, R486) -/

/-- Both copies of a checkpoint lie on flash dies that are out of service. -/
def copiesOut (s : State) (l : List (Nat × Nat × Nat)) : Bool := !l.isEmpty && l.all (fun h => dieOut s h.1)

/-- The segments with neither checkpoint copy readable: those that recovery finds so, and those whose flash dies are out of
service. -/
def badSegs (s : State) (segs : List (Nat × Nat)) : List (Nat × Nat) :=
  let out := s.ckpts.filter (fun (q : Nat × Ckpt) => copiesOut s q.2.homes)
  (segs ++ out.map (fun (q : Nat × Ckpt) => (q.1 / 131072, q.1 % 131072))).eraseDups

/-- The base of a namespace's replay: its checkpoints, with the entries of an unreadable segment unreadable. -/
def baseMap (s : State) (k : Nat) (n : Ns) (segs : List (Nat × Nat)) : FMap MapEnt :=
  let entries := n.capacity / (if n.zoned then 4 else 1)
  (segs.filter (·.1 = k)).foldl (fun m g =>
    (List.range (min segEntries (entries - g.2 * segEntries))).foldl (fun m i => mset m (g.2 * segEntries + i) .unreadable) m)
    (ckptEnts s k n)

/-- Segments with neither checkpoint copy readable are reported. -/
def reportSegs (s : State) (segs : List (Nat × Nat)) : State :=
  segs.foldl (fun s g => blockError s .mrj 0 2 0 g.2 (if g.1 < 1024 then g.1 else 0xFFFFFFFF)) s

/-- A crypto-erase whose commit was durable leaves an empty namespace; one before its commit never was. -/
def eraseBack (n : Ns) : Ns :=
  if n.erase.isSome && n.eraseDone then
    { n with erase := none, eraseWait := [], eraseDone := false, nonce := {}, wp := false, defer := false }
  else { n with erase := none, eraseWait := [], eraseDone := false }

/-- The map and the zones of a namespace are rebuilt; it is not ready yet. -/
def nsBack (segs : List (Nat × Nat)) (s : State) (k : Nat) : State :=
  match nsAt s k with
  | some n0 =>
    let n := eraseBack n0
    let base := baseMap s k n segs
    let n1 := if n.zoned then zonedBack s k n base else convBack s k n base
    recoverLost { s with nss := mset s.nss k { n1 with recovered := false } } k
  | none => s

/-! ### Counters and migrations (R353, R507) -/

/-- A counter resumes at its durable mark, and its next mark is written. -/
def Counter.resume (c : Counter) : Counter := { next := c.mark, mark := c.mark + 1048576 }

/-- Every counter resumes. -/
def resumeCounters (s : State) : State :=
  { s with bandCtr := s.bandCtr.resume, sealCtr := s.sealCtr.resume,
           nss := s.nss.map (fun q => (q.1, { q.2 with wseq := q.2.wseq.resume, nonce := q.2.nonce.resume })),
           tenants := s.tenants.map (fun q => (q.1, { q.2 with deferSeq := q.2.deferSeq.resume })) }

/-- The written-unit logs of moves under way are set whole; what was draining or committing has ended. -/
def resumeMigs (s : State) : State :=
  { s with migs := s.migs.map (fun q =>
      let m := { q.2 with draining := false, waitFor := [], committing := false, commitUnits := [], pkgIn := none }
      (q.1, if m.logs then { m with live := fullLog m.mask, snap := fullLog m.mask } else m)) }

/-! ### The end of recovery (R358 step 4, R362) -/

/-- Every band that was open closes; one whose last row lacks parity is queued for refresh. -/
def closeOpen (s : State) : State :=
  (s.bands.filter (fun q => !q.2.closed)).foldl (fun s q =>
    closeBand (if parityMissing q.2 then queueRefresh s q.1 else s) q.1) s

/-- Bands with no live data are released (R317). -/
def releaseEmpty (s : State) : State :=
  (s.bands.filter (fun q => (liveIn s q.2).isEmpty)).foldl (fun s q => releaseBand s q.1) s

/-- Step 4 ends once every namespace is ready. -/
def recoveryEnd (s : State) : State :=
  if s.nss.all (fun q => q.2.recovered) then
    let s1 := setF (releaseEmpty s) .mrj 0 F.MRJ_RECOV_STAT_MS (min 0x3FFF (ceilDiv (s.now - s.recovAt) 1000000))
    raise (setF s1 .boot 0 F.BOOT_START_MS_MS (s.startMs + ceilDiv (s.now - s.recovAt) 1000000)) .mrj 0 F.MRJ_INT_RAW_RECOVERED
  else s

/-- Map recovery begins: steps 1 and 2, the replay of every namespace, and the closing of the open bands. -/
def recover (chkBad : Option Nat) (segs0 : List (Nat × Nat)) (s : State) : State :=
  let segs := badSegs s segs0
  let s1 := loadBlocks (loadBands (reportSegs (readRing s chkBad) segs))
  let s2 := (s1.nss.map Prod.fst).foldl (nsBack segs) (resumeMigs (resumeCounters s1))
  let s3 := closeOpen { s2 with recovAt := s2.now }
  recoveryEnd (if s3.plStat.kind = 2 then raise s3 .mrj 0 F.MRJ_INT_RAW_PL_INCOMPLETE else s3)

/-- NAMESPACE_READY: the recovery of a namespace has ended. -/
def namespaceReady (k : Nat) (s : State) : State :=
  match nsAt s k with
  | some n =>
    if n.recovered || !(s.mode = .run || s.mode = .guard) then s
    else recoveryEnd (modNs s k (fun n => { n with recovered := true }))
  | none => s

end Sys2Proof.Machine
end

