-- ==== Sys2Proof/Machine/StartOps.lean ====
section
/-! DEFINITION. Start-up: self-tests and keys, the choice of an image, the board profile, DRAM, flash bring-up and
provisioning, SERVICE, and the entry into RUN (20_boot_and_firmware.md R688–R695, R699, R707; 14_memories_buffers_dram.md
R538–R540, R549, R553; 12_sorrel_keys_cipher.md R459, R460, R492; 15_caches.md R583; 19_faults_and_resets.md R675, R680). -/

namespace Sys2Proof.Machine

/-! ### Steps 1 to 3: rails, self-tests, keys (R460, R492, R553, R459, R675) -/

/-- The cause of the reset is recorded as a TYPE 0x03 entry, past the queue; a full log drops it (R675, R676). -/
def logReset (s : State) : State :=
  let e : FaultEntry := ⟨s.flog.nextSeq, s.pcyc, s.pos, 3, 5, rd s .boot 0 0x204, rd s .boot 0 0x208, rd s .boot 0 0x20C, 0, 0⟩
  if s.flog.log.length < 8192 then
    { s with flog := { s.flog with log := s.flog.log ++ [e], nextSeq := s.flog.nextSeq + 1 } }
  else
    raise (bump { s with flog := { s.flog with dropped := min 0xFFFFFFFF (s.flog.dropped + 1) } } .dir 0 F.DIR_FAULT_OVF)
      .dir 0 F.DIR_INT_RAW_FAULT_DROP

/-- The results of the self-tests. -/
def selfTests (e : StartEnv) (s : State) : State :=
  setF (setF (wr s .sor 0 F.SOR_SELFTEST_DONE.off (128 + e.sorPass % 32)) .sea 0 F.SEA_SELFTEST_DONE 1) .sea 0 F.SEA_SELFTEST_PASS
    e.seaPass

/-- A cipher core that fails its tests is left out. -/
def coreFails (s : State) (c : Nat) : State :=
  raise (blockError (coreLeaves s (c % 16)) .csx 0 3 0 (c % 16) 0) .csx 0 F.CSX_INT_RAW_CORE_FAIL

/-- A copy of a key record that fails its tag. -/
def failCopy (s : State) (c : Nat × Nat) : State :=
  { s with keyRecs := mmod s.keyRecs c.1 (fun r => if c.2 = 0 then { r with a := none } else { r with b := none }) }

/-- A namespace key record whose two copies fail leaves its slot LOST. -/
def keyLost (s : State) (k : Nat) : State :=
  raise (blockError { s with lostSlots := k :: s.lostSlots } .sor 0 3 0 k 0) .sor 0 F.SOR_INT_RAW_KEY_LOST

/-- One record is unsealed into the sealed store or its slot. -/
def unsealOne (s : State) (id : Nat) (r : KeyRec) : State :=
  match r.latest.map (fun (c : KeyCopy) => c.body) with
  | some (.ns key gen cut) =>
    modNs { s with nsKeys := mset s.nsKeys id key, keyGen := mset s.keyGen id gen } id (fun n => { n with eraseCut := cut })
  | some (.enroll e) =>
    if id = enrollRec fnMF then { s with mfEnroll := some e } else modTenant s (id - 1024) (fun t => { t with enroll := some e })
  | some (.creds p c) => modTenant s (id - 2048) (fun t => { t with psk := p, secrets := c })
  | some (.ek d) => modMig s (id - 3072) (fun m => { m with ek := some d })
  | none => if id < 1024 then keyLost s id else s

/-- Every key record is unsealed into the sealed store and the slots (R459). -/
def unsealKeys (e : StartEnv) (s : State) : State :=
  let s1 := e.badRecs.foldl failCopy { s with
    nsKeys := [], keyGen := [], lostSlots := [], mfEnroll := none,
    tenants := s.tenants.map (fun q => (q.1, { q.2 with enroll := none, psk := [], secrets := [] })),
    migs := s.migs.map (fun q => (q.1, { q.2 with ek := none })) }
  let s2 := s1.keyRecs.foldl (fun s q => unsealOne s q.1 q.2) s1
  setF s2 .mtr 0 F.MTR_STAT_MK_READY s2.mfEnroll.isSome.toNat

/-! ### Step 4: the image (R692, R693, R695, R699) -/

/-- A trial that a part reset ended before RUN falls back. -/
def trialBack (s : State) : State :=
  let nxt := getF s .fwp 0 F.FWP_SLOT_STAT_NEXT
  if getF s .fwp 0 F.FWP_SLOT_STAT_TRIAL = 1 && fwRunning s = nxt then
    raise (fwNext s (1 - nxt) false) .fwp 0 F.FWP_INT_RAW_FALLBACK
  else s

/-- A boot slot as a source. -/
def trySlot (s : State) (n : Nat) : State × Option (List Nat) :=
  if slotValid s n then
    let b := mgetD s.slots n []
    match pkgReason [1] (svnMin s) b with
    | some r => (pkgRefused s n r, none)
    | none => (fwPassed s, some b)
  else (s, none)

/-- The SPI NOR as a source. -/
def tryNor (s : State) (b : List Nat) : State × Option (List Nat) :=
  match pkgReason [1] (svnMin s) b with
  | some r => (pkgRefused s 2 r, none)
  | none => (fwPassed s, some b)

/-- The boot ROM copies an image into the code SRAM and runs it: SOURCE, RUNNING and its SVN. -/
def bootFrom (s0 : State) (src slot : Nat) (b : List Nat) : State :=
  let s := { s0 with code := imageBytes b }
  setF (setF (setF s .boot 0 F.BOOT_START_SOURCE src) .fwp 0 F.FWP_SLOT_STAT_RUNNING slot) .fwp 0 F.FWP_SVN_RUNNING (pkgSvn b)

/-- The first usable source of NEXT, the other slot and the SPI NOR; a package of the SPI NOR goes into NEXT. Answers its
bytes. -/
def bootImage (nor : List Nat) (s0 : State) : State × Option (List Nat) :=
  let s := trialBack s0
  let nxt := getF s .fwp 0 F.FWP_SLOT_STAT_NEXT
  match trySlot s nxt with
  | (s1, some b) => (bootFrom s1 nxt nxt b, some b)
  | (s1, none) => match trySlot s1 (1 - nxt) with
    | (s2, some b) => (bootFrom s2 (1 - nxt) (1 - nxt) b, some b)
    | (s2, none) => match tryNor s2 nor with
      | (s3, some b) => (bootFrom (fwNext (slotWrite s3 nxt b) nxt false) 2 nxt b, some b)
      | (s3, none) => (s3, none)

/-- The Thyme patch of the running image goes into every tile, or none is loaded. -/
def loadPatch (b : List Nat) (s : State) : State :=
  let p := patchBytes b
  let id := p.elim 0 patchId
  let s1 := { s with patch := p.elim [] patchWords, matchRegs := p.elim [] patchMatches }
  (List.range 4).foldl (fun s t => setF s .til t F.TIL_THY_VER_PATCH_ID id) s1

/-! ### The board profile and saved configuration (R209, R616, R622, R697, R707) -/

/-- The board profile in force: the sealed one, or at provisioning that of the SPI NOR. -/
def takeProfile (e : StartEnv) (s : State) : State :=
  match s.sealedProfile with
  | some p => { s with profile := some p }
  | none =>
    if s.geometry then s
    else match pkgReason [2] (svnMin s) e.norProfile with
      | some r => pkgRefused s 2 r
      | none => { fwPassed s with sealedProfile := some e.profile, profile := some e.profile }

/-- A thermal channel's settings; channels 0 to 7 are always enabled. -/
def profileCh (p : Option Profile) (c : Nat) : ThCh :=
  if c < 8 then { cfg := 0x4000, thr := 0x695F5A00 }
  else match p with
    | some p => { cfg := mgetD p.chCfg c 0 &&& 0xCF00, par := mgetD p.chPar c 0, thr := mgetD p.chThr c 0 / 256 * 256 }
    | none => {}

/-- Registers and transmitters that take their values from the board profile. -/
def profileRegs (p : Profile) (s : State) : State :=
  let s1 := setF (wr (wr s .pwr 0 0x120 (p.vinThr &&& 0x03FF03FF)) .pwr 0 0x124 (p.holdThr &&& 0x03FF03FF)) .pwr 0
    F.PWR_ACK_CTRL_BOARD_MAX p.boardMax
  (List.range 2).foldl (fun s i =>
    modEth (setF (setF s .eth i F.ETH_MAC_LO_ADDR_LO (p.macs.getD i 0)) .eth i F.ETH_MAC_HI_ADDR_HI (p.macs.getD i 0 / 2 ^ 32)) i
      (fun e => { e with txEq := (p.txEq.drop (4 * i)).take 4 })) s1

/-- A saved register word. -/
def savedReg (s : State) (q : Nat × Word) : State :=
  match pageAt (q.1 / 0x1000) with
  | some (k, i) => wr s k i (q.1 % 0x1000) q.2.toNat
  | none => s

/-- The sealed configuration takes effect: profile, saved registers, interface table, thermal channels. -/
def loadConfig (s : State) : State :=
  let s1 := s.savedRegs.foldl savedReg (s.profile.elim s (fun p => profileRegs p s))
  let ifs := if s1.savedIfs.isEmpty then s1.profile.elim [] (·.ifs) else s1.savedIfs
  ifLoad { s1 with ifs := ifs, therm := { s1.therm with chs := (List.range 32).map (fun c => (c, profileCh s1.profile c)) } }

/-! ### Step 5: DRAM (R297, R538–R540, R549) -/

/-- The first channel that the population is refused for: empty, failed, or unlike channel 0. -/
def badChannel (l : List Dimm) : Option Nat :=
  (List.range 8).find? (fun i => match l[i]?, l[0]? with
    | some d, some d0 => !d.ok || d.cap ≠ d0.cap || d.ranks ≠ d0.ranks || 2 < d.cap || d.ranks < 1 || 2 < d.ranks
    | _, _ => true)

/-- In-service ranks and the spare. -/
def insvcRanks (ranks : Nat) : Nat := if ranks = 2 then 15 else 7
def spareOf (ranks : Nat) : Nat := if ranks = 2 then 15 else 14

/-- A retired rank stays retired while its DIMM has the recorded serial number. -/
def retiredStill (l : List Dimm) (s : State) : Option (Nat × Nat) :=
  s.dram.retired.filter (fun r => (l[r.1 / 2]?).any (fun d => d.serial = r.2))

/-- SPEED: 6,400 MT/s, or 5,600 or 4,800 by the slowest DIMM (R537). -/
def dramSpeed (l : List Dimm) : Nat :=
  let v := (l.map (·.rate)).foldl min 6400
  if 6400 ≤ v then 2 else if 5600 ≤ v then 1 else 0

/-- DRAM is laid out. -/
def layDram (l : List Dimm) (s : State) : State :=
  let d0 : Dimm := l.getD 0 ⟨false, 0, 0, 1, 0⟩
  let spare := spareOf d0.ranks
  let ret := retiredStill l s
  let s1 := (List.range 16).foldl (fun s r =>
    let v := if d0.ranks = 1 && r % 2 = 1 then 0
      else match ret with
        | some x => if x.1 = r then 4 else 1
        | none => if r = spare then 2 else 1
    setRank s r v) s
  let n := insvcRanks d0.ranks
  let failed := ret.elim 0 (·.1)
  let s2 := wr (wr s1 .drx 0 0x100 (dramSpeed l * 65536 + n * 256 + d0.cap * 4 + d0.ranks)) .drx 0 0x104
    ((if ret.isSome then 3 else 0) * 2 ^ 30 + spare * 16 + failed)
  let serials := ((List.range 8).zip l).map (fun p => (p.1, p.2.serial))
  setF { s2 with dram := { s2.dram with serials := serials, retired := ret } } .drx 0 F.DRX_INSVC_MIB (n * (16384 * 2 ^ d0.cap / d0.ranks))

/-- Two bits for each plane page of a flash die, in its densest mode. -/
def unitBits (s : State) (d : Nat) : Nat :=
  blocksOf s d * 4 * (wlOf s d * (if getF s .til (tileOfDie d) F.TIL_GEOM2_MODES / 4 % 2 = 1 then 4 else 3)) * 2

/-- The unit state table in MiB (R297). -/
def ustMib (s : State) : Nat :=
  ceilDiv ((s.dies.filter (fun q => q.2.st ≠ .absent)).map (fun q => unitBits s q.1)).sum (8 * 2 ^ 20)

/-- The forward-map pool: what the unit state table and the non-map regions leave of in-service DRAM (R297, R327). -/
def layPool (s : State) : State :=
  setF (setF s .mape 0 F.MAPE_UST_UST_MIB (ustMib s)) .mape 0 F.MAPE_POOL_FWD_MIB
    (getF s .drx 0 F.DRX_INSVC_MIB - 16384 - ustMib s)

/-! ### Step 6: flash, patch, caches (R376, R377, R583, R688, R707) -/

/-- A link that does not train takes its tile out of service. -/
def linkFails (s : State) (t : Nat) : State :=
  tileOut (raise (setNim s (t % 4) { ({} : NimLink) with state := .failed, fails := 3 }) .nim (t % 4) F.NIM_INT_RAW_LINK_FAIL) (t % 4)

/-- A flash die that provisioning finds again resumes its erase counts. -/
def resumeErases (s : State) (q : Nat × DieFind) : State :=
  (mgetD s.eraseBook q.2.unique []).foldl (fun s b => modBlk s q.1 b.1 (fun x => { x with erases := b.2 })) s

/-- Provisioning records the geometry, the flash dies found and the bad-block marks, under the model records of the sealed
configuration. -/
def provision (e : StartEnv) (s : State) : State :=
  let s1 := if s.models.isEmpty then { s with models := e.models.take 8 } else s
  let s2 := recordPart s1 (e.lanes.filter (fun f => f.lane < 64 && f.rate ≠ 0))
  let s3 := s2.dieRecs.foldl resumeErases s2
  e.badBlocks.foldl (fun s b => modBlk s b.1 b.2 (fun x => { x with bad := true })) { s3 with geometry := true }

/-- What was found on a lane; a lane that nothing is said of trains and answers nothing. -/
def foundOn (e : StartEnv) (l : Nat) : LaneFind := (e.lanes.find? (·.lane = l)).getD ⟨l, 4, 0, []⟩

/-- Links, patch and lanes come up. A lane is brought up where flash dies are recorded, or something was found. -/
def flashUp (e : StartEnv) (img : List Nat) (s : State) : State :=
  let s1 := loadPatch img (e.badLinks.foldl linkFails (linksUp s))
  let s2 := if s1.geometry then s1 else provision e s1
  (List.range 64).foldl (fun s l =>
    if lanePop s l || e.lanes.any (·.lane = l) then laneUp s (foundOn e l) else s) s2

/-- A cache comes up with the regions that firmware sets; outside SERVICE its page is locked. -/
def cacheUp (i : CacheId) (regions : FMap CRegion) (lock : Bool) (s : State) : State :=
  let s1 := setCache s i { cacheAt s i with regions := regions }
  let s2 := cacheOn i (setF s1 i.page 0 F.CACHE_CTRL_ENABLE 1)
  if lock then wr s2 i.page 0 0x038 (Path.firmware.setter * 256 + 3) else s2

/-! ### Tenants (R229, R680) -/

/-- A tenant comes back: a quiesce or a reset has ended, a removal resumes. -/
def tenantBack (s : State) (t : Nat) : State :=
  let x := tenant s t
  match x.state with
  | .quiescing => modTenant s t (fun x => { x with state := .active, quiesced := false, endHeld := false })
  | .quiesced => modTenant s t (fun x => { x with state := .active, quiesced := false, endHeld := false })
  | .resetting => modTenant s t (fun x => { x with state := .active, quiesced := false, endHeld := false })
  | .removing => if x.removeStep = 1 then endKeys s t else s
  | _ => s

/-! ### SERVICE and RUN (R690, R691, R693) -/

/-- SVC_CAUSE of a start-up; 0 when none holds. Where several hold, the one that stops start-up earliest, then the lowest
code (DESIGN CHOICE, log 15). -/
def svcCause (e : StartEnv) (img : Bool) (s : State) : Nat :=
  if !img then 7
  else if (badChannel e.dimms).isSome then 5
  else if getF s .boot 0 F.BOOT_SVC_REQ = 1 then 1
  else if 3 ≤ getF s .boot 0 F.BOOT_RESET_LAST_SEALED_RUN then 2
  else if e.sorPass % 32 ≠ 31 then 3
  else if e.seaPass % 128 ≠ 127 then 4
  else if s.profile.isNone then 6
  else 0

/-- Rails that the steps of a start-up turn on. -/
def startRails (cause : Nat) : List Nat :=
  if cause = 7 then railOrder.take 4
  else if cause = 2 || cause = 5 || cause = 6 then railOrder.filter (· < 0x100)
  else railOrder

/-- The part is in SERVICE: no map is recovered, so no namespace is ready. -/
def enterService (cause : Nat) (s0 : State) : State :=
  let s := { s0 with nss := s0.nss.map (fun q => (q.1, { q.2 with recovered := false })) }
  let s1 := setF (setF (setMode s .service) .boot 0 F.BOOT_SVC_REQ 0) .boot 0 F.BOOT_START_SVC_CAUSE cause
  setF s1 .boot 0 F.BOOT_START_STAGE (match cause with
    | 7 => 15
    | 5 => 5
    | 2 => 5
    | 6 => 5
    | _ => 6)

/-- The part is in RUN: a trial has ended, SVN.MIN follows the running image, SEALED_RUN is cleared, and map recovery
begins. -/
def enterRun (e : StartEnv) (s : State) : State :=
  let s1 := setF (setF (setMode s .run) .boot 0 F.BOOT_START_STAGE 7) .boot 0 F.BOOT_RESET_LAST_SEALED_RUN 0
  let s2 := setF s1 .fwp 0 F.FWP_SVN_MIN (max (svnMin s1) (getF s1 .fwp 0 F.FWP_SVN_RUNNING))
  let s3 := if fwRunning s2 = getF s2 .fwp 0 F.FWP_SLOT_STAT_NEXT then setF s2 .fwp 0 F.FWP_SLOT_STAT_TRIAL 0 else s2
  let s4 := if s3.aon.wall.isNone && s3.tenants.any (fun q => q.2.state ≠ .free && meterEn q.2) then
      raise s3 .mtr 0 F.MTR_INT_RAW_NO_TIME else s3
  recover e.chkBad e.badSegs { s4 with startMs := e.ms, pwr := { s4.pwr with lastCmd := s4.now, guardAt := s4.now } }

/-- Steps 5 and 6, as far as a cause lets them run. -/
def bringUp (e : StartEnv) (cause : Nat) (img : List Nat) (s : State) : State :=
  if cause = 7 then s
  else if cause = 5 then
    raise (blockError s .drx 0 3 ((badChannel e.dimms).getD 0) 0 0) .drx 0 F.DRX_INT_RAW_CONFIG
  else
    let s1 := portUp (portUp (layDram e.dimms s) 0) 1
    if cause = 2 || cause = 6 then layPool s1
    else layPool (cacheUp .ccc e.cccRegions (cause = 0) (cacheUp .mcc e.mccRegions (cause = 0) (flashUp e img s1)))

/-- START_UP: the steps of R688 after a part reset. -/
def startUp (e : StartEnv) (s0 : State) : State :=
  if s0.mode ≠ .reset then s0
  else
    let s1 := unsealKeys e (e.badCores.eraseDups.foldl coreFails (selfTests e (logReset s0)))
    let s2 := (s1.tenants.map Prod.fst).foldl tenantBack (newChallenge s1)
    let b := bootImage e.nor s2
    let s3 := if b.2.isSome then loadConfig (takeProfile e b.1) else b.1
    let cause := svcCause e b.2.isSome s3
    match (if b.2.isSome then e.codeUe else none) with
    | some off => codeReset off s3
    | none =>
    let s4 := railsOn { s3 with pwr := { s3.pwr with seq := [] }, gpioExt := e.gpio % 65536 } (startRails cause)
    let s5 := gpioFirst (bringUp e cause (b.2.getD []) s4)
    if cause = 0 then enterRun e s5 else enterService cause s5

/-- RESET_N, POR. -/
def resetN (s : State) : State := partReset 2 0 0 0 s
def porReset (s : State) : State := partReset 1 0 0 0 s

end Sys2Proof.Machine
end

