-- ==== Sys2Proof/Machine/Startup.lean ====
section
/-! DEFINITION. The meanings of resets from the board, start-up and a namespace's readiness (19_faults_and_resets.md R678;
20_boot_and_firmware.md R688–R695; 08_map_durability.md R362). -/

namespace Sys2Proof.Machine

def execResetN (s : State) : Res := done (resetN s)
def execPor (s : State) : Res := done (porReset s)
def execStartUp (e : StartEnv) (s : State) : Res := done (startUp e s)
def execNamespaceReady (k : Fin 1024) (s : State) : Res := done (namespaceReady k s)

end Sys2Proof.Machine
end

