-- ==== Sys2Proof/Machine/Tenants.lean ====
section
/-! DEFINITION. The meanings of the tenant, namespace and die-set commands (05_tenant_functions.md,
06_zones_and_placement.md). -/

namespace Sys2Proof.Machine

def execTenantCreate (q : Capsule) (b : Block) (s : State) : Res :=
  done (inTurn q (.tenantCreate q b) false (tenantCreate q b) s)
def execTenantModify (q : Capsule) (b : Block) (s : State) : Res :=
  done (inTurn q (.tenantModify q b) false (tenantModify q b) s)
def execTenantReset (q : Capsule) (s : State) : Res :=
  done (inTurn q (.tenantReset q) false (tenantReset q) s)
def execTenantRemove (q : Capsule) (s : State) : Res :=
  done (inTurn q (.tenantRemove q) false (tenantRemove q) s)
def execNsCreate (q : Capsule) (b : Block) (s : State) : Res :=
  done (inTurn q (.nsCreate q b) false (nsCreate q b) s)
def execNsDelete (q : Capsule) (s : State) : Res :=
  done (inTurn q (.nsDelete q) false (nsDelete q) s)
def execConfigSave (q : Capsule) (s : State) : Res :=
  done (inTurn q (.configSave q) false (configSave q) s)
def execTenantCred (q : Capsule) (data : List Nat) (s : State) : Res :=
  done (inTurn q (.tenantCred q data) false (tenantCred q data) s)
def execQuiesceComplete (t : Nat) (s : State) : Res := done (quiesceComplete t s)
def execDiesetCreate (q : Capsule) (b : Block) (s : State) : Res :=
  done (inTurn q (.diesetCreate q b) false (diesetCreate q b) s)
def execDiesetDelete (q : Capsule) (s : State) : Res :=
  done (inTurn q (.diesetDelete q) false (diesetDelete q) s)
def execDiesetInfo (q : Capsule) (s : State) : Res :=
  done (inTurn q (.diesetInfo q) false (diesetInfo q) s)
def execDiesetPopulation (q : Capsule) (s : State) : Res :=
  done (inTurn q (.diesetPopulation q) false (diesetPopulation q) s)
def execTenantResetDone (t : Nat) (s : State) : Res := done (tenantResetDone t s)
def execTenantRemoveDone (t : Nat) (s : State) : Res := done (tenantRemoveDone t s)

end Sys2Proof.Machine
end

