-- ==== Sys2Proof/Machine/Dispatch.lean ====
section
/-! DEFINITION. One arm per command: each is one call of its meaning. -/

namespace Sys2Proof.Machine

open Sys2Proof

/-- The effect of a command on everything but the queue. -/
def exec (i : Instr) (s : State) : Host.Outcome State Fault Refusal :=
  match i with
  | .nimbusFrameReceived n w phase b => Sys2Proof.Machine.execNimbusFrameReceived n w phase b s
  | .replayRequest n w seq => Sys2Proof.Machine.execReplayRequest n w seq s
  | .replayRequestTimeout n w => Sys2Proof.Machine.execReplayRequestTimeout n w s
  | .nimbusTxFrame n w offer => Sys2Proof.Machine.execNimbusTxFrame n w offer s
  | .retrainReq p n v => Sys2Proof.Machine.execRetrainReq p n v s
  | .trainingAttemptEnd n r => Sys2Proof.Machine.execTrainingAttemptEnd n r s
  | .registerWrite p addr v => Sys2Proof.Machine.execRegisterWrite p addr v s
  | .rcRead p addr => Sys2Proof.Machine.execRcRead p addr s
  | .errClr p page v => Sys2Proof.Machine.execErrClr p page v s
  | .regRead q => Sys2Proof.Machine.execRegRead q s
  | .regWrite q l => Sys2Proof.Machine.execRegWrite q l s
  | .sbWrite b addr v => Sys2Proof.Machine.execSbWrite b addr v s
  | .sbRead b addr => Sys2Proof.Machine.execSbRead b addr s
  | .sbLastResult b => Sys2Proof.Machine.execSbLastResult b s
  | .sbBadCommand b => Sys2Proof.Machine.execSbBadCommand b s
  | .i3cAddressAssign a => Sys2Proof.Machine.execI3cAddressAssign a s
  | .getLogRegInterrupts q => Sys2Proof.Machine.execGetLogRegInterrupts q s
  | .frameReceived f => Sys2Proof.Machine.execFrameReceived f s
  | .rtpDrain p prio bytes => Sys2Proof.Machine.execRtpDrain p prio bytes s
  | .pfcRefreshTimer p prio => Sys2Proof.Machine.execPfcRefreshTimer p prio s
  | .pfcFrame p f => Sys2Proof.Machine.execPfcFrame p f s
  | .pfcPauseExpiry p prio => Sys2Proof.Machine.execPfcPauseExpiry p prio s
  | .arpRequest p vlan a => Sys2Proof.Machine.execArpRequest p vlan a s
  | .neighborSolicitation p vlan a => Sys2Proof.Machine.execNeighborSolicitation p vlan a s
  | .icmpEcho p vlan a => Sys2Proof.Machine.execIcmpEcho p vlan a s
  | .linkUp p => Sys2Proof.Machine.execLinkUp p s
  | .linkDown p highSer => Sys2Proof.Machine.execLinkDown p highSer s
  | .linkHoldExpiry p => Sys2Proof.Machine.execLinkHoldExpiry p s
  | .cnpReceived id => Sys2Proof.Machine.execCnpReceived id s
  | .rateIncrease id => Sys2Proof.Machine.execRateIncrease id s
  | .rdmaCmConnectRequest r => Sys2Proof.Machine.execRdmaCmConnectRequest r s
  | .tcpSyn y => Sys2Proof.Machine.execTcpSyn y s
  | .icreq id hdgst ddgst => Sys2Proof.Machine.execIcreq id hdgst ddgst s
  | .h2cDataPdu id cid len d => Sys2Proof.Machine.execH2cDataPdu id cid len d s
  | .ackTimeout id => Sys2Proof.Machine.execAckTimeout id s
  | .tcpRetransmitTimeout id => Sys2Proof.Machine.execTcpRetransmitTimeout id s
  | .tcpCloseReceived id => Sys2Proof.Machine.execTcpCloseReceived id s
  | .tlsClientHello id h => Sys2Proof.Machine.execTlsClientHello id h s
  | .tlsHandshakeDone id => Sys2Proof.Machine.execTlsHandshakeDone id s
  | .tlsRecordReceived id r => Sys2Proof.Machine.execTlsRecordReceived id r s
  | .tlsKeyUpdate id => Sys2Proof.Machine.execTlsKeyUpdate id s
  | .wakeKeyCommit p port v => Sys2Proof.Machine.execWakeKeyCommit p port v s
  | .ifSelLoad p v => Sys2Proof.Machine.execIfSelLoad p v s
  | .ifCfgCommit p v => Sys2Proof.Machine.execIfCfgCommit p v s
  | .connect q d => Sys2Proof.Machine.execConnect q d s
  | .disconnect q => Sys2Proof.Machine.execDisconnect q s
  | .propertyGet q => Sys2Proof.Machine.execPropertyGet q s
  | .propertySet q => Sys2Proof.Machine.execPropertySet q s
  | .ccEnClear q => Sys2Proof.Machine.execCcEnClear q s
  | .controllerResetDone f => Sys2Proof.Machine.execControllerResetDone f s
  | .ccShutdown q => Sys2Proof.Machine.execCcShutdown q s
  | .authenticationSend q m => Sys2Proof.Machine.execAuthenticationSend q m s
  | .authenticationReceive q => Sys2Proof.Machine.execAuthenticationReceive q s
  | .keepAlive q => Sys2Proof.Machine.execKeepAlive q s
  | .keepAliveTimeout f => Sys2Proof.Machine.execKeepAliveTimeout f s
  | .discoveryGetLogPage q => Sys2Proof.Machine.execDiscoveryGetLogPage q s
  | .read q bad corr => Sys2Proof.Machine.execRead q bad corr s
  | .write q data corr => Sys2Proof.Machine.execWrite q data corr s
  | .writeZeroes q => Sys2Proof.Machine.execWriteZeroes q s
  | .datasetManagement q ranges => Sys2Proof.Machine.execDatasetManagement q ranges s
  | .flush q => Sys2Proof.Machine.execFlush q s
  | .zoneAppend q data => Sys2Proof.Machine.execZoneAppend q data s
  | .zoneOpen q => Sys2Proof.Machine.execZoneOpen q s
  | .zoneClose q => Sys2Proof.Machine.execZoneClose q s
  | .zoneFinish q => Sys2Proof.Machine.execZoneFinish q s
  | .zoneReset q => Sys2Proof.Machine.execZoneReset q s
  | .zoneOffline q => Sys2Proof.Machine.execZoneOffline q s
  | .reportZones q => Sys2Proof.Machine.execReportZones q s
  | .getLogPage q => Sys2Proof.Machine.execGetLogPage q s
  | .getLogDeferredErrors q => Sys2Proof.Machine.execGetLogDeferredErrors q s
  | .getLogTenantStatus q => Sys2Proof.Machine.execGetLogTenantStatus q s
  | .getLogDeviceRecorder q => Sys2Proof.Machine.execGetLogDeviceRecorder q s
  | .getLogChangedZoneList q => Sys2Proof.Machine.execGetLogChangedZoneList q s
  | .identify q => Sys2Proof.Machine.execIdentify q s
  | .abort q => Sys2Proof.Machine.execAbort q s
  | .setFeatures r => Sys2Proof.Machine.execSetFeatures r s
  | .getFeatures q => Sys2Proof.Machine.execGetFeatures q s
  | .asynchronousEventRequest q => Sys2Proof.Machine.execAsynchronousEventRequest q s
  | .completionCommit conn cid => Sys2Proof.Machine.execCompletionCommit conn cid s
  | .formatNvm q => Sys2Proof.Machine.execFormatNvm q s
  | .sanitizeCryptoErase q => Sys2Proof.Machine.execSanitizeCryptoErase q s
  | .sanitizeExitFailure q => Sys2Proof.Machine.execSanitizeExitFailure q s
  | .cryptoEraseCommit k => Sys2Proof.Machine.execCryptoEraseCommit k s
  | .cryptoEraseDone k => Sys2Proof.Machine.execCryptoEraseDone k s
  | .firmwareImageDownload q data => Sys2Proof.Machine.execFirmwareImageDownload q data s
  | .fwCommitReplace q p w => Sys2Proof.Machine.execFwCommitReplace q p w s
  | .fwCommitReplaceTrial q w => Sys2Proof.Machine.execFwCommitReplaceTrial q w s
  | .fwCommitSelectNext q => Sys2Proof.Machine.execFwCommitSelectNext q s
  | .fwCommitActivate q us c => Sys2Proof.Machine.execFwCommitActivate q us c s
  | .tenantCreate q b => Sys2Proof.Machine.execTenantCreate q b s
  | .tenantModify q b => Sys2Proof.Machine.execTenantModify q b s
  | .tenantReset q => Sys2Proof.Machine.execTenantReset q s
  | .tenantRemove q => Sys2Proof.Machine.execTenantRemove q s
  | .nsCreate q b => Sys2Proof.Machine.execNsCreate q b s
  | .nsDelete q => Sys2Proof.Machine.execNsDelete q s
  | .configSave q => Sys2Proof.Machine.execConfigSave q s
  | .tenantCred q data => Sys2Proof.Machine.execTenantCred q data s
  | .quiesce p t => Sys2Proof.Machine.execQuiesce p t s
  | .quiesceComplete t => Sys2Proof.Machine.execQuiesceComplete t s
  | .quiesceEnd p t => Sys2Proof.Machine.execQuiesceEnd p t s
  | .diesetCreate q b => Sys2Proof.Machine.execDiesetCreate q b s
  | .diesetDelete q => Sys2Proof.Machine.execDiesetDelete q s
  | .diesetInfo q => Sys2Proof.Machine.execDiesetInfo q s
  | .diesetPopulation q => Sys2Proof.Machine.execDiesetPopulation q s
  | .meterRead q => Sys2Proof.Machine.execMeterRead q s
  | .powerState q => Sys2Proof.Machine.execPowerState q s
  | .faultRead q => Sys2Proof.Machine.execFaultRead q s
  | .faultReadClear q => Sys2Proof.Machine.execFaultReadClear q s
  | .deviceReset q => Sys2Proof.Machine.execDeviceReset q s
  | .deviceResetForce q => Sys2Proof.Machine.execDeviceResetForce q s
  | .debugToken q data => Sys2Proof.Machine.execDebugToken q data s
  | .provisionReset q => Sys2Proof.Machine.execProvisionReset q s
  | .migAbortCmd q => Sys2Proof.Machine.execMigAbortCmd q s
  | .spdmGetVersion a => Sys2Proof.Machine.execSpdmGetVersion a s
  | .spdmGetCapabilities a => Sys2Proof.Machine.execSpdmGetCapabilities a s
  | .spdmNegotiateAlgorithms a => Sys2Proof.Machine.execSpdmNegotiateAlgorithms a s
  | .spdmGetDigests a => Sys2Proof.Machine.execSpdmGetDigests a s
  | .spdmGetCertificate q head rest => Sys2Proof.Machine.execSpdmGetCertificate q head rest s
  | .spdmChallenge q req => Sys2Proof.Machine.execSpdmChallenge q req s
  | .spdmGetMeasurements q head rest => Sys2Proof.Machine.execSpdmGetMeasurements q head rest s
  | .spdmUnsupportedRequest q req => Sys2Proof.Machine.execSpdmUnsupportedRequest q req s
  | .securityReceive q => Sys2Proof.Machine.execSecurityReceive q s
  | .enroll q ctr form xy => Sys2Proof.Machine.execEnroll q ctr form xy s
  | .bind q h nsid => Sys2Proof.Machine.execBind q h nsid s
  | .status q h => Sys2Proof.Machine.execStatus q h s
  | .migBegin q h mask => Sys2Proof.Machine.execMigBegin q h mask s
  | .migSwap q h => Sys2Proof.Machine.execMigSwap q h s
  | .migExport q h nsid flags first last maxb visits bad => Sys2Proof.Machine.execMigExport q h nsid flags first last maxb visits bad s
  | .migEvents q h => Sys2Proof.Machine.execMigEvents q h s
  | .migZones q h nsid first count => Sys2Proof.Machine.execMigZones q h nsid first count s
  | .migFreeze q h => Sys2Proof.Machine.execMigFreeze q h s
  | .migFreezeDone t => Sys2Proof.Machine.execMigFreezeDone t s
  | .migKeyExport q h x => Sys2Proof.Machine.execMigKeyExport q h x s
  | .migAbort q h => Sys2Proof.Machine.execMigAbort q h s
  | .importBegin q h mask => Sys2Proof.Machine.execImportBegin q h mask s
  | .importData q h nsid recs => Sys2Proof.Machine.execImportData q h nsid recs s
  | .importZone q h nsid z ds => Sys2Proof.Machine.execImportZone q h nsid z ds s
  | .importCommit q h => Sys2Proof.Machine.execImportCommit q h s
  | .importKey q h p => Sys2Proof.Machine.execImportKey q h p s
  | .operationQueued die => Sys2Proof.Machine.execOperationQueued die s
  | .gatherExpiry die => Sys2Proof.Machine.execGatherExpiry die s
  | .bulkEscalation die => Sys2Proof.Machine.execBulkEscalation die s
  | .bgWindowEnd die => Sys2Proof.Machine.execBgWindowEnd die s
  | .bucketRefill => Sys2Proof.Machine.execBucketRefill s
  | .laneDescriptor die => Sys2Proof.Machine.execLaneDescriptor die s
  | .readComplete die => Sys2Proof.Machine.execReadComplete die s
  | .programComplete die ok => Sys2Proof.Machine.execProgramComplete die ok s
  | .eraseComplete die ok => Sys2Proof.Machine.execEraseComplete die ok s
  | .suspendAccepted die => Sys2Proof.Machine.execSuspendAccepted die s
  | .runMinExpiry die => Sys2Proof.Machine.execRunMinExpiry die s
  | .suspendHoldExpiry die => Sys2Proof.Machine.execSuspendHoldExpiry die s
  | .operationTimeout die => Sys2Proof.Machine.execOperationTimeout die s
  | .resetLunReady die => Sys2Proof.Machine.execResetLunReady die s
  | .lunStuck die => Sys2Proof.Machine.execLunStuck die s
  | .zqCalShort lane => Sys2Proof.Machine.execZqCalShort lane s
  | .readDqTrain lane ce temp => Sys2Proof.Machine.execReadDqTrain lane ce temp s
  | .thymeMicroword lane e => Sys2Proof.Machine.execThymeMicroword lane e s
  | .diagRead p l v => Sys2Proof.Machine.execDiagRead p l v s
  | .diagReadDone lane r => Sys2Proof.Machine.execDiagReadDone lane r s
  | .hardDecodeDone climb converged zeros => Sys2Proof.Machine.execHardDecodeDone climb converged zeros s
  | .softPassDone climb converged counts => Sys2Proof.Machine.execSoftPassDone climb converged counts s
  | .rawSampleDone band row mem diff decoded => Sys2Proof.Machine.execRawSampleDone band row mem diff decoded s
  | .cipherJobArrival r => Sys2Proof.Machine.execCipherJobArrival r s
  | .cipherJobDone core intact => Sys2Proof.Machine.execCipherJobDone core intact s
  | .healthTestFail => Sys2Proof.Machine.execHealthTestFail s
  | .journalFlushTimer => Sys2Proof.Machine.execJournalFlushTimer s
  | .journalFlushDone => Sys2Proof.Machine.execJournalFlushDone s
  | .segmentCheckpoint seg => Sys2Proof.Machine.execSegmentCheckpoint seg s
  | .markDurable m => Sys2Proof.Machine.execMarkDurable m s
  | .relocation d => Sys2Proof.Machine.execRelocation d s
  | .patrolTimer => Sys2Proof.Machine.execPatrolTimer s
  | .vinSample mv => Sys2Proof.Machine.execVinSample mv s
  | .plProgramsDone => Sys2Proof.Machine.execPlProgramsDone s
  | .plRestartTimer => Sys2Proof.Machine.execPlRestartTimer s
  | .holdSample mv => Sys2Proof.Machine.execHoldSample mv s
  | .dramRetrain ch ns => Sys2Proof.Machine.execDramRetrain ch ns s
  | .dramUe rank a c replaced => Sys2Proof.Machine.execDramUe rank a c replaced s
  | .spareForce p v => Sys2Proof.Machine.execSpareForce p v s
  | .spareCopyDone => Sys2Proof.Machine.execSpareCopyDone s
  | .transitSramUe off c => Sys2Proof.Machine.execTransitSramUe off c s
  | .basilAllocate client size pool holders => Sys2Proof.Machine.execBasilAllocate client size pool holders s
  | .basilShare pool off n => Sys2Proof.Machine.execBasilShare pool off n s
  | .basilRelease pool off shares => Sys2Proof.Machine.execBasilRelease pool off shares s
  | .sealedUe m off => Sys2Proof.Machine.execSealedUe m off s
  | .scrubRead m off r => Sys2Proof.Machine.execScrubRead m off r s
  | .testDataWrite p v => Sys2Proof.Machine.execTestDataWrite p v s
  | .testDataRead p => Sys2Proof.Machine.execTestDataRead p s
  | .cacheClean p c w => Sys2Proof.Machine.execCacheClean p c w s
  | .cacheInvalidate p c w => Sys2Proof.Machine.execCacheInvalidate p c w s
  | .cacheCleanInvalidate p c w => Sys2Proof.Machine.execCacheCleanInvalidate p c w s
  | .cachePreload p c w => Sys2Proof.Machine.execCachePreload p c w s
  | .cacheMaintInvalid p c v => Sys2Proof.Machine.execCacheMaintInvalid p c v s
  | .maintDone idx => Sys2Proof.Machine.execMaintDone idx s
  | .cacheEnable p c v => Sys2Proof.Machine.execCacheEnable p c v s
  | .cacheDisable p c v => Sys2Proof.Machine.execCacheDisable p c v s
  | .cacheDrainDone idx bad => Sys2Proof.Machine.execCacheDrainDone idx bad s
  | .regionSelect p c v => Sys2Proof.Machine.execRegionSelect p c v s
  | .regionCommit p c v => Sys2Proof.Machine.execRegionCommit p c v s
  | .modeEntryStart => Sys2Proof.Machine.execModeEntryStart s
  | .modeEntryCommit => Sys2Proof.Machine.execModeEntryCommit s
  | .wakeFrame p key late => Sys2Proof.Machine.execWakeFrame p key late s
  | .energyDetect p late => Sys2Proof.Machine.execEnergyDetect p late s
  | .portWakeTimeout p => Sys2Proof.Machine.execPortWakeTimeout p s
  | .wakeN late => Sys2Proof.Machine.execWakeN late s
  | .timerSet p v => Sys2Proof.Machine.execTimerSet p v s
  | .timerExpiry late => Sys2Proof.Machine.execTimerExpiry late s
  | .aonLoRead p => Sys2Proof.Machine.execAonLoRead p s
  | .padHoldRelease v => Sys2Proof.Machine.execPadHoldRelease v s
  | .railGood idx => Sys2Proof.Machine.execRailGood idx s
  | .railGoodTimeout => Sys2Proof.Machine.execRailGoodTimeout s
  | .pmbusPoll addr page st => Sys2Proof.Machine.execPmbusPoll addr page st s
  | .railSample idx mv => Sys2Proof.Machine.execRailSample idx mv s
  | .guardExitTimer => Sys2Proof.Machine.execGuardExitTimer s
  | .thmSample c v bad => Sys2Proof.Machine.execThmSample c v bad s
  | .graceExpiry => Sys2Proof.Machine.execGraceExpiry s
  | .shdnBudgetExpiry => Sys2Proof.Machine.execShdnBudgetExpiry s
  | .posTick => Sys2Proof.Machine.execPosTick s
  | .minuteBoundary => Sys2Proof.Machine.execMinuteBoundary s
  | .wallSet p v => Sys2Proof.Machine.execWallSet p v s
  | .wallLoRead p => Sys2Proof.Machine.execWallLoRead p s
  | .recFreeze p => Sys2Proof.Machine.execRecFreeze p s
  | .recUnfreeze p => Sys2Proof.Machine.execRecUnfreeze p s
  | .freezeTimeout => Sys2Proof.Machine.execFreezeTimeout s
  | .recClear p => Sys2Proof.Machine.execRecClear p s
  | .rdDataRead p => Sys2Proof.Machine.execRdDataRead p s
  | .posLoRead p => Sys2Proof.Machine.execPosLoRead p s
  | .faultLogWrite => Sys2Proof.Machine.execFaultLogWrite s
  | .watchdogExpiry core => Sys2Proof.Machine.execWatchdogExpiry core s
  | .stopBudgetExpiry => Sys2Proof.Machine.execStopBudgetExpiry s
  | .resetN => Sys2Proof.Machine.execResetN s
  | .por => Sys2Proof.Machine.execPor s
  | .startUp e => Sys2Proof.Machine.execStartUp e s
  | .namespaceReady k => Sys2Proof.Machine.execNamespaceReady k s
  | .gpioEdge levels => Sys2Proof.Machine.execGpioEdge levels s
  | .programDeadlinePassed die => Sys2Proof.Machine.execProgramDeadlinePassed die s
  | .warmBringUpDone f => Sys2Proof.Machine.execWarmBringUpDone f s
  | .i3cIbiEnable on => Sys2Proof.Machine.execI3cIbiEnable on s
  | .portEnable p port v => Sys2Proof.Machine.execPortEnable p port v s
  | .dramCorrectedError rank => Sys2Proof.Machine.execDramCorrectedError rank s
  | .tenantResetDone t => Sys2Proof.Machine.execTenantResetDone t s
  | .tenantRemoveDone t => Sys2Proof.Machine.execTenantRemoveDone t s

end Sys2Proof.Machine
end

