-- ==== Sys2Proof/Machine/TickOps.lean ====
section
/-! DEFINITION. The passage of time: what a step on an empty queue does (DESIGN CHOICE, log 16). -/

namespace Sys2Proof.Machine

/-- One nanosecond passes with no command: the clock advances, and work that waited only for time (buckets, deadlines of
R448 and R437) is taken up. What ends at a time of its own is a command of the table. -/
def tickOp (s : State) : State := pump { s with now := s.now + 1 }

/-- An idle step. -/
def tick (s : State) : Res := done (tickOp s)

end Sys2Proof.Machine
end

