-- ==== Sys2Proof/Machine/Pins.lean ====
section
/-! DEFINITION. What the part's pins show in each mode: WP_n of a tile (09_flash_lanes_thyme.md R372), held pads
(16_power_modes.md R603), pin states (21_pins_and_electrical.md R722, R724). They are read off the state. -/

namespace Sys2Proof.Machine

/-- WP_n of a tile is high: the tile is in service in RUN or GUARD, brought up, and step 4 of R355 has not ended (R372). -/
def wpHigh (s : State) (t : Nat) : Bool :=
  (s.mode = .run || s.mode = .guard) && !(s.oos.tiles.contains t) && !(s.plRun.any (fun p => p.step4End.isSome))

/-- The signals of R724. `flashBus` is DQ, DQS, RE, WE_n, CLE and ALE of a lane; `ddrClock` is CK, CA, PAR and CS_N;
`ddrData` is DQ, CB and DQS; `ddrSpd` is HSCL and HSDA; `spiIo` is SPI_IO n; `jtagDown` is TCK and TRST_N; `jtagUp` is TMS and
TDI. -/
inductive Pin
  | ce (lane c : Nat) | wp (tile : Nat) | flashBus (lane : Nat) | readyBusy (lane : Nat)
  | ddrReset (ch : Nat) | ddrClock (ch : Nat) | ddrData (ch : Nat) | ddrAlert (ch : Nat) | ddrSpd (ch : Nat)
  | ethTx (port : Nat) | ethRx (port : Nat) | spiClk | spiCs | spiIo (n : Nat) | pmbus | i3c | gpio (n : Nat)
  | alert | fault | thermShdn | pwrGood (g : Nat) | tdo | jtagDown | jtagUp | wake | resetIn | thRef
  deriving DecidableEq, Repr

/-- What a pin does. `block` is driven or read by its block under the rules of its chapter; `selfRefresh` the levels that keep
every rank in self-refresh; `last` a GPIO output at its last level; `released` an open-drain output not pulled low. -/
inductive PinState
  | high | low | block | input | ignored | released | hiZ | unpowered | off | termination | energy | selfRefresh | last | reference
  deriving DecidableEq, Repr

/-- An open-drain output. -/
def openDrain (low : Bool) : PinState := if low then .low else .released

/-- A pin while the part is absent, unpowered or in a part reset: only THERM_SHDN_N, once latched, is driven (R722). -/
def pinInReset (s : State) : Pin → PinState
  | .thermShdn => if s.therm.shdn then .low else .hiZ
  | .jtagDown => .input
  | .jtagUp => .input
  | .wake => .input
  | .resetIn => .input
  | _ => .hiZ

/-- A pin in DOZE. -/
def pinInDoze (s : State) : Pin → PinState
  | .ce _ _ => .high
  | .wp _ => .low
  | .flashBus _ => .low
  | .readyBusy _ => .ignored
  | .ddrReset _ => .high
  | .ddrClock _ => .selfRefresh
  | .ddrData _ => .hiZ
  | .ddrAlert _ => .ignored
  | .ddrSpd _ => .released
  | .ethTx _ => .block
  | .ethRx _ => .termination
  | .spiClk => .hiZ
  | .spiCs => .hiZ
  | .spiIo _ => .hiZ
  | .pmbus => .block
  | .i3c => .block
  | .gpio _ => .block
  | .alert => openDrain s.mgmt.alertLow
  | .fault => openDrain s.mgmt.faultLow
  | .thermShdn => openDrain s.therm.shdn
  | .pwrGood g => if pwrGood s g then .high else .low
  | .tdo => .hiZ
  | .jtagDown => .input
  | .jtagUp => .input
  | .wake => .input
  | .resetIn => .input
  | .thRef => .reference

/-- A pin in HOLD. -/
def pinInHold (s : State) : Pin → PinState
  | .ce _ _ => .unpowered
  | .wp _ => .unpowered
  | .flashBus _ => .unpowered
  | .readyBusy _ => .unpowered
  | .ethTx _ => .off
  | .ethRx _ => .energy
  | .pmbus => .hiZ
  | .i3c => .hiZ
  | .gpio _ => .last
  | .pwrGood _ => .low
  | .jtagDown => .unpowered
  | .jtagUp => .unpowered
  | .thRef => .off
  | p => pinInDoze s p

/-- A pin in RUN, GUARD and SERVICE, and in start-up, of which R724 does not speak (log 143). -/
def pinInRun (s : State) : Pin → PinState
  | .ce _ _ => .block
  | .wp t => if wpHigh s t then .high else .low
  | .flashBus _ => .block
  | .readyBusy _ => .input
  | .ddrClock _ => .block
  | .ddrData _ => .block
  | .ddrAlert _ => .input
  | .ddrSpd _ => .block
  | .spiClk => .block
  | .spiCs => .block
  | .spiIo _ => .block
  | .tdo => if getF s .dbg 0 F.DBG_TOKEN_SCOPE % 2 = 1 then .block else .hiZ
  | p => pinInDoze s p

/-- What a pin does in the part's mode (R724). -/
def pinState (s : State) (p : Pin) : PinState :=
  match s.mode with
  | .reset => pinInReset s p
  | .starting => pinInRun s p
  | .run => pinInRun s p
  | .guard => pinInRun s p
  | .doze => pinInDoze s p
  | .hold => pinInHold s p
  | .service => pinInRun s p

end Sys2Proof.Machine
end

