-- ==== Sys2Proof/Safety.lean ====
section
/-! DEFINITION. The terms that statements use: when a register access or an admin command is served, when the end of a step
has nothing to settle, and what holds after every step. -/

namespace Sys2Proof.Machine

/-! ### When commands are served -/

/-- An access through a page: RUN, not over the sideband, and no lock of the page applies (R62, R72). -/
abbrev RegOpen (s : State) (p : Path) (k : PageKind) (i : Nat) : Prop :=
  s.mode = .run ∧ p.isSb = false ∧ (p.isFw = true ∨ rd s k i 0x038 = 0)

/-- The PDU of a capsule on its connection holds up (R129, R132, R133): at most 8,192 bytes of in-capsule data and, over TCP,
the digests that were negotiated right. -/
abbrev PduGood (s : State) (q : Capsule) : Prop :=
  q.icd ≤ 8192 ∧ ∃ c, connOf s q.conn = some c ∧ (c.rdma = true ∨ ((c.hdgst = true → q.hdgstOk = true) ∧ (c.ddgst = true → q.ddgstOk = true)))

/-- No command dword of a capsule has a bit set that its command's description does not name (check 2 of R161). -/
abbrev OnlyBits (q : Capsule) (masks : List Nat) : Prop := badDword q masks = none

/-- It is the turn of an admin command of a function (R188, R189): no activation holds admission, no command of its
controller is outstanding and none waits before it. -/
abbrev AdminTurn (s : State) (f : Nat) : Prop := s.fwHold = none ∧ adminBusy s f = false ∧ heldOf s f = []

/-- An admin command of a function is served: RUN, no power-loss sequence, no mode entry and no controller reset under way,
its turn, and it passes the checks of R161 that every admin command has in common (checks 1 and 2 as far as they do not rest
on its opcode). -/
abbrev Ready (s : State) (q : Capsule) (f : Nat) : Prop :=
  s.mode = .run ∧ s.plRun = none ∧ s.pwr.entry = none ∧ AdminTurn s f ∧ PduGood s q ∧ adminFn s q.conn = some f ∧
    (ctrl s f).resetting = false ∧ q.reserved = false ∧ q.unknown = false ∧ q.keyed ≤ 1 ∧ authMissing s f = false ∧
    isQuiesced s f = false

/-- The same for the commands that a controller serves before a required authentication and while its tenant is quiesced
(R140, R162). -/
abbrev AuthReady (s : State) (q : Capsule) (f : Nat) : Prop :=
  s.mode = .run ∧ s.plRun = none ∧ s.pwr.entry = none ∧ AdminTurn s f ∧ PduGood s q ∧ adminFn s q.conn = some f ∧
    (ctrl s f).resetting = false ∧ q.reserved = false ∧ q.unknown = false ∧ q.keyed ≤ 1

/-- A vendor command of MF is served in SERVICE mode, where functions other than MF are not. -/
abbrev ServiceReady (s : State) (q : Capsule) : Prop :=
  s.mode = .service ∧ s.plRun = none ∧ s.pwr.entry = none ∧ AdminTurn s fnMF ∧ PduGood s q ∧ adminFn s q.conn = some fnMF ∧
    (ctrl s fnMF).resetting = false ∧ q.reserved = false ∧ q.unknown = false ∧ q.keyed ≤ 1

/-- What admission of an admin command changes: the keep-alive timer restarts, the time of the last command, CFE.ADMITTED. -/
def served (s : State) (f : Nat) : State := bump (cmdSeen (touch s f)) .cfe 0 F.CFE_ADMITTED

/-- A key agreement request of a function is accepted (R466–R468): a Security Send of protocol 0xF0 of a ready, enrolled
function, its MAC right and its CTR above the last accepted one. -/
abbrev KaAccepts (s : State) (q : Capsule) (f op : Nat) (h : KaHdr) (body : List Nat) (e : Enroll) : Prop :=
  Ready s q f ∧ f ≤ 512 ∧ OnlyBits q secMasks ∧ q.dw11 ≤ 2097152 ∧ bitsOf q.dw10 31 24 = 0xF0 ∧ bitsOf q.dw10 23 8 = 0 ∧
    enrollOf s f = some e ∧ h.mac = hmac384 (kCmd f e) (kaHead op 0 h.ctr body) ∧ e.ctr < h.ctr % 2 ^ 64

/-- The part after the Security Send of an accepted request has completed and its CTR has been taken. -/
def kaTaken (s : State) (q : Capsule) (f : Nat) (h : KaHdr) (e : Enroll) : State :=
  setEnroll (postSt (served s f) q.conn q.cid stOk) f { e with ctr := h.ctr % 2 ^ 64 }

/-- The response to a key agreement request of a function, ready from the present time on or not. -/
def kaAnswer (s : State) (f op result ctr : Nat) (body : List Nat) (ready : Bool) (due : Nat) : State :=
  setResp s f false ⟨op, result, ctr, body, ready, due⟩

/-- A page that exists (R65). -/
def pageIs (k : PageKind) (i : Nat) : Bool := decide (pageAt (pageNo k i) = some (k, i))

/-! ### I/O commands -/

/-- An I/O capsule of a tenant whose PDU holds up finds the part serving, with no other I/O command in it. -/
abbrev IoServed (s : State) (q : Capsule) (f : Nat) : Prop :=
  s.mode = .run ∧ s.plRun = none ∧ s.pwr.entry = none ∧ s.fwHold = none ∧ PduGood s q ∧
    (∃ cn, connOf s q.conn = some cn ∧ cn.fn = some f ∧ cn.ready = true ∧ cn.qid ≠ 0) ∧ f < 512 ∧
    (ctrl s f).resetting = false ∧ s.cmds = []

/-- The same, and it names a namespace of its tenant. -/
abbrev IoReady (s : State) (q : Capsule) (f slot : Nat) (n : Ns) : Prop :=
  IoServed s q f ∧ nsSlot s f q.nsid = some slot ∧ nsAt s slot = some n

/-- The command that a capsule brings, as it waits in its submission queue. -/
def ioCmd (s : State) (q : Capsule) (f slot : Nat) (n : Ns) (op : IoOp) (slba nlb : Nat) (fua : Bool) (data : List Nat)
    (ranges : List (Nat × Nat)) : Cmd :=
  let h := hintsOf q op n.cls
  { conn := q.conn, cid := q.cid, fn := f, nsid := q.nsid, nsk := some slot, op := op, slba := slba, nlb := nlb, fua := fua,
    cls := h.1, life := h.2.1, group := h.2.2, reserved := q.reserved, len := q.len, keyed := q.keyed,
    unknown := q.unknown, icd := q.icd, dwords := [q.dw10, q.dw11, q.dw12, q.dw13, q.dw14, q.dw15], ranges := ranges, arrived := s.now, data := offsets data }

/-- The part with a command in its submission queue, and nothing else in it. -/
def entered (s : State) (c : Cmd) : State := touch { s with cmds := [(s.nextCmd, c)], nextCmd := s.nextCmd + 1 } c.fn

/-- Budgets let the command be taken, it passes the checks of R161, and nothing holds it. -/
abbrev Passes (s : State) (c : Cmd) : Prop :=
  takeOpen (entered s c) c = true ∧ ioCheck (entered s c) c = none ∧ ioHold (entered s c) c = none

/-- The part with that command charged to its buckets and admitted, whichever turn the submission queues then have. -/
def admitted (s : State) (c : Cmd) (a : Arb) : State :=
  let e := entered s c
  admitCmd (charge { e with arb := a } c.fn (cmdBytes e c) (c.op = .read) (programs (cmdZoned e c) c.op)) s.nextCmd c

/-- The number of that command from its admission on. -/
def cmdKey (s : State) : Nat := s.nextCmd + 1

/-- The command as admission leaves it. -/
def asAdmitted (s : State) (c : Cmd) (a : Arb) : Cmd := ((mget (admitted s c a).cmds (cmdKey s)).getD c)

/-- What follows a dispatch: full units are placed, what may be is acknowledged, and what waited for that is dispatched. -/
def afterDispatch (s : State) : State := dispatchPump (ackPump (placePump s))

/-! ### The lines of the management interface -/

/-- ALERT_N and FAULT_N are driven as R99 and R684 say. -/
abbrev LinesFollow (s : State) : Prop :=
  (s.mode ≠ .reset → s.mgmt.alertLow = (decide (getF s .dir 0 F.DIR_CTRL_ALERT_EN = 1) && anyInt s)) ∧
    s.mgmt.faultLow = (decide (s.mode ≠ .reset) && decide ((faultActive s &&& getF s .boot 0 F.BOOT_FAULT_CTRL_MASK) ≠ 0))

/-- The end of a step has nothing to bring about: no reset or hold to end, no descriptor whose codewords have all failed, no
rebuild, no import that commits, no minute noted, no entry held, no shutdown, no wait for a mark to count, no TLS connection
at its end; the clean mark stands, no die set turns full or stops being so or has lost or gained a free band, the Critical
Warning bits are as the functions have them, and no register-interrupt event can be posted. -/
abbrev Quiet (s : State) : Prop :=
  s.mode ≠ .reset ∧ s.doom = none ∧ s.fwHold = none ∧ getF s .cfe 0 F.CFE_STAT_HOLDING = 0 ∧
    (∀ q ∈ s.climbs, q.2.failed = false ∧ q.2.step ≠ 7) ∧
    (∀ q ∈ s.migs, q.2.committing = false) ∧ s.meter.noted = [] ∧ s.flog.held = [] ∧ s.jr.cleanMark = true ∧
    (∀ q ∈ s.ctrls, q.2.shutdown = false) ∧
    (s.bandCtr.room 1 = true ∨ ∀ q ∈ s.staged, q.2.isReady = false) ∧ s.jr.acts = [] ∧
    (∀ q ∈ s.diesets, freeBands s q.2 = q.2.freeWas ∧ q.2.full = false ∧
      (dsAllotted s q.1 ≤ dsLogical s q.2 ∨ dsLive s q.1 < dsLogical s q.2)) ∧
    (∀ f, f = fnMF ∨ (∃ x, (f, x) ∈ s.tenants ∧ x.state ≠ .free) → (ctrl s f).critWarn = critBits s f) ∧
    (s.mgmt.aenArmed = false ∨ anyInt s = false) ∧ (∀ q ∈ s.conns, ∀ t, q.2.tls = some t → t.ending = false)

end Sys2Proof.Machine
end

