-- ==== Sys2Proof/Certificates/Slice0/Obligations.lean ====
section
/-! DEFINITION. The statements for the provers. A statement that a command completes says which state exec leaves before the end of the
step is settled; what settling does is said by QuietStepsChangeTheLinesAlone and LinesFollowEveryStep. The rules named at the end of a
docstring are those that a statement rests on; it states of them what its sentences say. -/

open Sys2Proof Sys2Proof.Machine

/-- The queue of commands. A step takes the command in front and does what it does with the rest waiting. With none
waiting, an admin command that has come to its turn runs, and with none of those one nanosecond passes and work that
waited only for time is taken up (the model's choice, log 16). No step stops. -/
def Obligations.StepRunsTheFrontCommand : Prop :=
  (∀ (c : Instr) (rest : List Instr) (s : State), step { s with pending := c :: rest } = exec c { s with pending := rest }) ∧
  (∀ (i : Instr) (s : State), s.pending = [] → nextHeld s = some i → step s = exec i s) ∧
  (∀ s : State, s.pending = [] → nextHeld s = none → step s = .next (settle (pump { s with now := s.now + 1 }))) ∧
  (∀ s : State, ∃ t, step s = .next t)

/-- The lines of the part follow its registers after every step. Outside a part reset ALERT_N is low exactly while
ALERT_EN is 1 and some page's INT_RAW AND INT_EN is not 0; FAULT_N is low exactly while an active condition of
FAULT_STAT is enabled in FAULT_CTRL, and is not driven during a part reset. The times the rules give are upper bounds;
here the lines follow in the step itself. (02_register_pages.md R99; 19_faults_and_resets.md R684.) -/
def Obligations.LinesFollowEveryStep : Prop :=
  ∀ s t : State, step s = .next t → LinesFollow t

/-- The lines follow the registers after reset. -/
def Obligations.LinesFollowAtReset : Prop := LinesFollow State.reset

/-- A write under the access codes. Of a register, a field with code RW takes the value written, RW1C loses the bits
written as 1, RW1S gains them, and every other field keeps its value; no other register word and no other state
changes. What the codes say of reads, and the effects of particular registers, are not stated here. (00_scope.md R12.)
-/
def Obligations.WritesFollowTheAccessCodes : Prop :=
  ∀ (k : PageKind) (i v : Nat) (f : Fld) (s : State), f ∈ pageFields k → let t := storeWord s k i f.off v
    let x := bitsOf v f.hi f.lo; let old := getF s k i f
    (f.acc = .rw → getF t k i f = x) ∧
    (f.acc = .rw1c → getF t k i f = old - (old &&& x)) ∧
    (f.acc = .rw1s → getF t k i f = (old ||| x)) ∧
    (f.acc ≠ .rw → f.acc ≠ .rw1c → f.acc ≠ .rw1s → getF t k i f = old) ∧
    (∀ l j o, pageBase l j + o ≠ pageBase k i + f.off → rd t l j o = rd s l j o) ∧
    { t with regs := s.regs } = s

/-- Bit b of DIR.INT_SUMMARYk is 1 exactly when page 32 × k + b exists and its INT_OUT is nonzero, and bits of pages
that do not exist read 0. (02_register_pages.md R67.) -/
def Obligations.InterruptSummaryShowsInterrupts : Prop :=
  ∀ (s : State) (k b : Nat), k < 24 → b < 32 →
    (regWord s .dir 0 (0x100 + 4 * k) / 2 ^ b % 2 = 1 ↔
      ∃ p i, pageAt (32 * k + b) = some (p, i) ∧ regWord s p i 0x20 ≠ 0) ∧
    (pageAt (32 * k + b) = none → regWord s .dir 0 (0x100 + 4 * k) / 2 ^ b % 2 = 0)

/-- A report to a page other than BOOT counts in ERR_COUNT up to 0xFFFF; with the capture armed it is captured, and
with one held it counts in ERR_OVF and the capture stays; registers of pages other than this and BOOT stay. ERR_CLR
arms the capture again and changes no count. (02_register_pages.md R57; 19_faults_and_resets.md R672.) -/
def Obligations.ReportsAreCapturedAndCounted : Prop :=
  ∀ (k : PageKind) (i src kind cause detail lo hi : Nat) (s : State), pageIs k i = true → k ≠ .boot →
    let t := report s k i src kind cause detail lo hi; let info := errInfo src kind cause detail
    getF t k i F.HDR_ERR_COUNT = min 0xFFFF (getF s k i F.HDR_ERR_COUNT + 1) ∧
    (rd s k i 0x030 = 0 → rd t k i 0x030 = info ∧ rd t k i 0x028 = lo % 2 ^ 32 ∧ rd t k i 0x02C = hi % 2 ^ 32 ∧
      getF t k i F.HDR_ERR_OVF = getF s k i F.HDR_ERR_OVF) ∧
    (rd s k i 0x030 ≠ 0 → rd t k i 0x030 = rd s k i 0x030 ∧ rd t k i 0x028 = rd s k i 0x028 ∧ rd t k i 0x02C = rd s k i 0x02C ∧
      getF t k i F.HDR_ERR_OVF = min 0xFFFF (getF s k i F.HDR_ERR_OVF + 1)) ∧
    (∀ l j o, pageIs l j = true → l ≠ .boot → o < 0x1000 → (l, j) ≠ (k, i) → rd t l j o = rd s l j o) ∧
    (let u := errClr s k i;
      rd u k i 0x030 = 0 ∧ rd u k i 0x028 = 0 ∧ rd u k i 0x02C = 0 ∧ getF u k i F.HDR_ERR_COUNT = getF s k i F.HDR_ERR_COUNT ∧
        getF u k i F.HDR_ERR_OVF = getF s k i F.HDR_ERR_OVF)

/-- The part checks every access in the order of the table of R72: no page, misaligned, no register, asleep, denied,
locked, read-only write. The first check that fails decides the access status code and the page that logs the error.
An access that passes every check has status 0x0000, OK. (02_register_pages.md R72.) -/
def Obligations.AccessesAreCheckedInOrder : Prop :=
  ∀ (p : Path) (addr : Nat) (v : Option Nat) (s : State), let a := regAccess p addr v s; let off := addr % 0x1000
    let logged (k : PageKind) (i st : Nat) (u : State) : Prop := a = refuseAccess u p k i v.isSome st addr
    (pageAt (addr / 0x1000) = none → logged .dir 0 1 s) ∧
    (∀ k i, pageAt (addr / 0x1000) = some (k, i) →
      let asleep := pageAsleep s k i = true ∧ (v ≠ none ∨ 0x100 ≤ off)
      let denied := p.isSb = true ∧ sbReaches k off v.isSome = false
      let locked := ∃ x, v = some x ∧ lockRefuses s p k i off x = true
      let roWrite := v ≠ none ∧ ∀ f ∈ fieldsAt k off, f.acc = .ro ∨ f.acc = .rsv
      (addr % 4 ≠ 0 → logged k i 2 s) ∧
      (addr % 4 = 0 → (∀ f ∈ fieldsOf k, f.off ≠ off) → logged k i 3 s) ∧
      (addr % 4 = 0 → (∃ f ∈ fieldsOf k, f.off = off) →
        (asleep → logged .pwr 0 4 (bump s .pwr 0 F.PWR_ASLEEP_REF_COUNT)) ∧
        (¬asleep → denied → logged k i 5 s) ∧
        (¬asleep → ¬denied → locked → logged k i 6 s) ∧
        (¬asleep → ¬denied → ¬locked → roWrite → logged k i 7 s) ∧
        (¬asleep → ¬denied → ¬locked → ¬roWrite → a.st = 0)))

/-- A part reset of any kind leaves the part outside its modes with its queue and its clock, keeps what MRAM and the
sealed configuration hold (namespaces and their keys with the key records, enrollments, die sets, units out of service
but the judgement on cipher cores, the journal's ring, checkpoints, the fault log, closed records, what CONFIG_SAVE
committed, migrations, the profile, the recorded flash dies and their models, the boot slots; each tenant's parameters
and enrollment) and loses connections, transport keys, commands, staged data, climbs, controllers, caches, what the
journal had staged, the fault queue, the code SRAM; the recorder falls back on its copy in MRAM. POR, kind 1, raises
POS, from its copy in MRAM, and PCYC by 1 and clears wall time, and any other kind keeps the three.
(19_faults_and_resets.md R679.) -/
def Obligations.PartResetKeepsWhatLasts : Prop :=
  ∀ (kind detail lo hi : Nat) (s : State), let t := partReset kind detail lo hi s
    t.mode = .reset ∧ t.pending = s.pending ∧ t.now = s.now ∧
    (t.nss = s.nss ∧ t.nsKeys = s.nsKeys ∧ t.keyRecs = s.keyRecs ∧ t.sealCtr = s.sealCtr ∧ t.mfEnroll = s.mfEnroll ∧ t.diesets = s.diesets ∧
      t.oos = { s.oos with cores := [] } ∧ t.jr.ring = s.jr.ring ∧ t.jr.head = s.jr.head ∧ t.jr.tail = s.jr.tail ∧ t.ckpts = s.ckpts ∧
      t.tabCkpt = s.tabCkpt ∧ t.flog.log = s.flog.log ∧ t.meter.rings = s.meter.rings ∧ t.recd.ring = s.recd.ring ∧
      t.recd.saved = s.recd.saved ∧ t.savedRegs = s.savedRegs ∧ t.savedIfs = s.savedIfs ∧ t.migs = s.migs ∧
      t.sealedProfile = s.sealedProfile ∧ t.dieRecs = s.dieRecs ∧ t.models = s.models ∧ t.geometry = s.geometry ∧ t.slots = s.slots) ∧
    (∀ n, (mgetD t.tenants n {}).par = (mgetD s.tenants n {}).par ∧ (mgetD t.tenants n {}).enroll = (mgetD s.tenants n {}).enroll) ∧
    (t.conns = [] ∧ t.tslots = [] ∧ t.cmds = [] ∧ t.held = [] ∧ t.adminWaits = [] ∧ t.staged = [] ∧ t.climbs = [] ∧ t.ctrls = [] ∧
      t.caches = [] ∧ t.jr.staged = [] ∧ t.jr.flushing = [] ∧ t.flog.queue = [] ∧ t.code = [] ∧ t.recd.live = s.recd.saved) ∧
    (kind ≠ 1 → t.pos = s.pos ∧ t.pcyc = s.pcyc ∧ t.aon.wall = s.aon.wall) ∧
    (kind = 1 → t.pos = min 0xFFFFFFFFFF (s.recd.savedPos + 1) ∧ t.pcyc = min 0xFFFFFFFF (s.pcyc + 1) ∧ t.aon.wall = none)

/-- The end of a step with nothing to bring about changes the lines of the management interface and, with a new
interrupt, sends one in-band interrupt; it leaves everything else as the command left it. During a part reset, with no
further one asked for and no activation under way, it changes FAULT_N alone. -/
def Obligations.QuietStepsChangeTheLinesAlone : Prop :=
  ∀ s : State,
    (Quiet s → ∃ m o, settle s = { s with mgmt := m, out := o } ∧ m.aenArmed = s.mgmt.aenArmed ∧
      (s.mgmt.intCond = true ∨ anyInt s = false → o = s.out) ∧ (o = s.out ∨ o = .ibi 0x01 :: s.out)) ∧
    (s.doom = none → s.fwHold = none → s.mode = .reset → settle s = { s with mgmt := { s.mgmt with faultLow := false } })

/-- On a link that is UP whose receiver does not hunt and has no alignment to confirm, 256 bytes that arrive at its
phase with the sync word: with the CRC right, a data frame is delivered if it carries the sequence number that is due
and is discarded otherwise, and in either case its ACK frees the retry buffer of the opposite transmitter; with the
CRC wrong, the frame is counted in CRC_FAIL, raises the interrupt bit, leaves an alignment to confirm and is one link
event. A receiver that finds no sync word at its phase counts SYNC_LOSS, raises its bit and begins to hunt, one link
event. A replay request makes the transmitter resend from the named number. A request that is not answered within 1 µs
is sent again, counted, and is a link event while the link is UP; while it retrains it is counted alone. The parts of
the state that these next states do not name are as before. (01_part_and_chiplets.md R26, R29–R33, R38.) -/
def Obligations.LinkReceives : Prop :=
  (∀ (n : Fin 4) (w : NimWay) (b : List Nat) (s : State), let d := (nim s n).dir w
    let h := ofLe ((b.drop 4).take 8); let s1 := modNimDir s n w.flip (fun d => nimAcked d (bitsOf h 15 8))
    (nim s n).state = .up → d.hunting = false →
      (d.confirm = false → nimHasSync b = true →
        (nimCrcOk b = true → bitsOf h 19 16 = 0 → exec (.nimbusFrameReceived n w d.phase b) s = .next (settle (
          if bitsOf h 7 0 = d.rxNext then
            emit (modNimDir s1 n w (fun d => { d with rxNext := (d.rxNext + 1) % 256, request := none })) (.nimDeliver n w (nimMsgOf b))
          else s1))) ∧
        (nimCrcOk b = false → exec (.nimbusFrameReceived n w d.phase b) s = .next (settle (nimEvent (modNimDir
          (raise (bump s .nim n (nimHalf F.NIM_CRC_FAIL_TILE_RX F.NIM_CRC_FAIL_HUB_RX w)) .nim n F.NIM_INT_RAW_CRC_FAIL) n w
          (fun d => { d with confirm := true })) n w)))) ∧
      (∀ phase, nimHasSync b = false ∨ phase ≠ d.phase → exec (.nimbusFrameReceived n w phase b) s = .next (settle (nimEvent (modNimDir
        (raise (bump s .nim n (nimHalf F.NIM_SYNC_LOSS_TILE_RX F.NIM_SYNC_LOSS_HUB_RX w)) .nim n F.NIM_INT_RAW_SYNC_LOSS) n w
        (fun d => { d with hunting := true, seen := none, confirm := false })) n w)))) ∧
  (∀ (n : Fin 4) (w : NimWay) (seq : Nat) (s : State), (nim s n).state = .up →
    exec (.replayRequest n w seq) s = .next (settle (modNimDir s n w (fun d =>
      { d with resend := d.retry.dropWhile (fun p => p.1 ≠ seq) })))) ∧
  (∀ (n : Fin 4) (w : NimWay) (t : Nat) (s : State), ((nim s n).dir w).request = some t → t ≤ s.now →
    let c := modNimDir (bump s .nim n (nimHalf F.NIM_REPLAY_TILE_RX F.NIM_REPLAY_HUB_RX w)) n w
      (fun d => { d with request := some (s.now + 1000) })
    ((nim s n).state = .up → exec (.replayRequestTimeout n w) s = .next (settle (nimEvent (emit c (.nimFrame n w.flip
      (nimFrame 2 ((nim s n).dir w).rxNext (nimAck (nim c n) w.flip) nimNone))) n w))) ∧
    ((nim s n).state = .retrain → exec (.replayRequestTimeout n w) s = .next (settle c)))

/-- A frame slot of an UP link: a frame that is to be resent goes first; else, while fewer than 64 frames are
unacknowledged, the next data frame goes under the next sequence number and is kept in the retry buffer (here one that
the block hands over at the slot); with nothing to send, or 64 unacknowledged, an idle frame goes, whose SEQ no value
is stated of. A training attempt of a link that retrains: success counts DONE and brings the link UP, each receiver
aligned anew and asking for replay, and what waited in the tile's staging SRAM crosses; failure counts FAILED, and at
the third in a row the link has failed, LINK_FAIL is raised, the results of the tile are lost and the tile leaves
service. A write of RETRAIN_REQ on an UP link stops both receivers, raises the interrupt bit, and sends a retrain
request. (01_part_and_chiplets.md R27, R28, R34–R36.) -/
def Obligations.LinkSends : Prop :=
  (∀ (n : Fin 4) (w : NimWay) (s : State), let l := nim s n; let d := l.dir w; let ack := ((l.dir w.flip).rxNext + 255) % 256
    let idle (u : State) : State := emit { u with free := s.free + 1 }
      (.nimFrame n w (nimFrame 1 ((Config.freeWord s.free).toNat % 256) ack nimNone))
    let more (m : NimMsg) : State := modNimDir s n w (fun d => { d with waiting := d.waiting ++ [m] })
    l.state = .up →
      (∀ p t, d.resend = p :: t → exec (.nimbusTxFrame n w none) s = .next (settle (emit
        (modNimDir (modNimDir s n w id) n w (fun d => { d with resend := t })) (.nimFrame n w (nimFrame 0 p.1 ack p.2))))) ∧
      (∀ m, d.resend = [] → d.waiting = [] → d.retry.length < 64 → exec (.nimbusTxFrame n w (some m)) s = .next (settle (emit
        (modNimDir (more m) n w (fun d =>
          { d with waiting := [], retry := d.retry ++ [(d.nextSeq, m)], nextSeq := (d.nextSeq + 1) % 256 }))
        (.nimFrame n w (nimFrame 0 d.nextSeq ack m))))) ∧
      (∀ m, d.resend = [] → d.waiting = [] → 64 ≤ d.retry.length → exec (.nimbusTxFrame n w (some m)) s = .next (settle (idle (more m)))) ∧
      (d.resend = [] → d.waiting = [] → exec (.nimbusTxFrame n w none) s = .next (settle (idle (modNimDir s n w id))))) ∧
  (∀ (n : Fin 4) (tp hp : Nat) (s : State), let l := nim s n; l.state = .retrain →
    let found (d : NimDir) (p : Nat) : NimDir := { d with hunting := false, seen := none, confirm := false, phase := p, resend := [] }
    exec (.trainingAttemptEnd n (some ⟨tp, hp⟩)) s = .next (settle (deliverResults (nimAsk (nimAsk (setNim (bump s .nim n F.NIM_RETRAIN_DONE) n
      { l with state := .up, events := [], fails := 0, toTile := found l.toTile tp, toHub := found l.toHub hp }) n .toTile) n .toHub) n)) ∧
    (l.fails < 2 → exec (.trainingAttemptEnd n none) s = .next (settle (setNim (bump s .nim n F.NIM_RETRAIN_FAILED) n
      { l with fails := l.fails + 1 }))) ∧
    (2 ≤ l.fails → exec (.trainingAttemptEnd n none) s = .next (settle (tileOut (dropResults (raise (setNim
      (bump s .nim n F.NIM_RETRAIN_FAILED) n { l with state := .failed, fails := 3 }) .nim n F.NIM_INT_RAW_LINK_FAIL) n) n)))) ∧
  (∀ (p : Path) (n : Fin 4) (v : Nat) (s : State), RegOpen s p .nim n ∧ (nim s n).state = .up →
    let stop (d : NimDir) : NimDir := { d with hunting := false, seen := none, confirm := false }
    let s1 := raise (setNim (storeWord s .nim n 0x100 ((v ||| 1) % 2 ^ 32)) n
      { nim s n with state := .retrain, events := [], fails := 0, toTile := stop (nim s n).toTile, toHub := stop (nim s n).toHub })
      .nim n F.NIM_INT_RAW_RETRAIN
    exec (.retrainReq p n v) s = .next (settle (emit (emit { s1 with free := s.free + 1 } (.nimFrame n .toTile
      (nimFrame 3 ((Config.freeWord s.free).toNat % 256) (nimAck (nim s1 n) .toTile) nimNone))) (.access (regAddr .nim n 0x100) 0 0))))

/-- In RUN, over MF's or firmware's path and with no lock of its page in force, an access of a register that a page
defines ends with status 0x0000, and the answer leaves the part. A write of a register with a writable field has the
effect of its register (`doWrite`): of the common header's INT_EN, INT_RAW and ERR_OVF that is the field by field
effect of the access codes; ERR_CLR, written to CTRL of any page but a tenant's or a cache's, re-arms capture and then
stores CTRL, and on those pages has besides the effect of their CTRL. A read returns the value (`readValue`) and has
its effect (`readEffect`): but for the capturing registers of PWR, REC, MTR and GPIO and the test window of SEA, that
is the readable bits, with the RC fields cleared. (00_scope.md R12; 02_register_pages.md R57.) -/
def Obligations.AccessesComplete : Prop :=
  ∀ (p : Path) (k : PageKind) (i off v : Nat) (s : State), RegOpen s p k i → pageIs k i = true → off < 0x1000 → off % 4 = 0 →
    regDefined k off = true → let ans (u : State) (x : Nat) : State := emit u (.access (regAddr k i off) 0 x)
    (regWritable k off = true →
      exec (.registerWrite p (regAddr k i off) v) s = .next (settle (ans (doWrite s p k i off (v % 2 ^ 32)) 0)) ∧
      (off < 0x100 → off ≠ 0x010 → off ≠ 0x038 →
        exec (.registerWrite p (regAddr k i off) v) s = .next (settle (ans (storeWord s k i off (v % 2 ^ 32)) 0)))) ∧
    exec (.rcRead p (regAddr k i off)) s = .next (settle (ans (readEffect s k i off) (readValue s k i off))) ∧
    (k ∉ [.pwr, .recd, .mtr, .sea, .gpio] →
      exec (.rcRead p (regAddr k i off)) s = .next (settle (ans (clearRc s k i off) (regWord s k i off &&& readMask k off)))) ∧
    (off = 0x010 → regWritable k off = true → let x := (2 ^ 31 + v % 2 ^ 31) % 2 ^ 32
      exec (.errClr p (pageNo k i) v) s = .next (settle (ans (doWrite s p k i 0x010 x) 0)) ∧
      (k ≠ .tf → k ≠ .mcc → k ≠ .ccc → exec (.errClr p (pageNo k i) v) s =
        .next (settle (ans (storeWord (wr (wr (wr s k i 0x028 0) k i 0x02C 0) k i 0x030 0) k i 0x010 x) 0))))

/-- The sideband in RUN: a transaction in the enabled protocol at the part's address with a right PEC is taken, and
shown in SB_STAT.MODE. A Write or Read command accesses the register (with the status that R72 gives it, counted in
DONE or DENIED) and returns status and value as its 5-byte result, Last result returns the stored result again, and
another command byte is reported to MGT with cause 0x02, sets CMD_BAD and leaves the result. (02_register_pages.md
R89, R93, R94.) -/
def Obligations.SidebandCompletes : Prop :=
  ∀ (b : SbBus) (s : State), s.mode = .run → sbHears s b = true → b.good = true → let s0 := setF s .mgt 0 F.MGT_SB_STAT_MODE b.code
    (∀ addr v, let a := regAccess b.path addr (some v) s0; let r := a.st % 256 :: leBytes 4 a.val
      exec (.sbWrite b addr v) s = .next (settle (emit { bump a.s .mgt 0 (if a.st = 0 then F.MGT_SB_CMDS_DONE else F.MGT_SB_CMDS_DENIED) with
        mgmt := { a.s.mgmt with lastResult := r } } (.sbResult r)))) ∧
    (∀ addr, let a := regAccess b.path addr none s0; let r := a.st % 256 :: leBytes 4 a.val
      exec (.sbRead b addr) s = .next (settle (emit { bump a.s .mgt 0 (if a.st = 0 then F.MGT_SB_CMDS_DONE else F.MGT_SB_CMDS_DENIED) with
        mgmt := { a.s.mgmt with lastResult := r } } (.sbResult r)))) ∧
    exec (.sbLastResult b) s = .next (settle (emit s0 (.sbResult s.mgmt.lastResult))) ∧
    exec (.sbBadCommand b) s = .next (settle (raise (report s0 .mgt 0 b.path.src 0 2 (b.path.detail s0) 0 0) .mgt 0 F.MGT_INT_RAW_CMD_BAD))

/-- MF's batches. A REG_READ whose runs are well-formed and whose data buffer holds 8 bytes for each of at most 64
registers reads them in order (`readAll`) and answers each value and status, and in dword 0 how many failed and the
last status that is not 0x0000; of one register, those are its value and status. A REG_WRITE of 1 to 64 entries
applies them in order up to the first refusal (`writeAll`: the entries after it have status NOT_RUN) and answers in
dword 0 how many it applied and the status that stopped it; of one entry, 1 and 0, or 0 and its status. Both where no
access of the batch ends in a part reset or ends the connection. (02_register_pages.md R79–R86.) -/
def Obligations.BatchesComplete : Prop :=
  (∀ (q : Capsule) (s : State), Ready s q fnMF → OnlyBits q [0xFFFFFFFF, 0xFFFFFFFF, 0xFFFFFFFF, 0xFFFFFFFF, 0, 0] →
    let ds := [q.dw10 % 2 ^ 32, q.dw11 % 2 ^ 32, q.dw12 % 2 ^ 32, q.dw13 % 2 ^ 32]; let regs := (ds.map runRegs).flatten
    let r := readAll (.mf q.conn q.cid) regs (served s fnMF); let t := r.2.2.2
    (∀ d ∈ ds, bitsOf d 24 20 = 0) → regs ≠ [] → regs.length ≤ 64 → 8 * regs.length ≤ q.len →
    t.mode ≠ .reset → (connOf t q.conn).isSome = true →
      exec (.regRead q) s = .next (settle (postOk t q.conn q.cid (r.2.1 * 65536 + r.2.2.1) r.1)) ∧
      (∀ x, regs = [x] → let a := regAccess (.mf q.conn q.cid) x none (served s fnMF)
        t = a.s ∧ r.1 = leBytes 4 a.val ++ leBytes 2 a.st ++ [0, 0] ∧ r.2.1 = (if a.st = 0 then 0 else 1) ∧ r.2.2.1 = a.st)) ∧
  (∀ (q : Capsule) (l : List (Nat × Nat)) (s : State), Ready s q fnMF →
    OnlyBits q [0x7F, 0xFFFFFFFF, 0xFFFFFFFF, 0xFFFFFFFF, 0xFFFFFFFF, 0xFFFFFFFF] → 1 ≤ l.length → l.length ≤ 64 → q.dw10 = l.length →
    8 * l.length ≤ q.len → let r := writeAll (.mf q.conn q.cid) l (served s fnMF); r.2.mode ≠ .reset → (connOf r.2 q.conn).isSome = true →
      exec (.regWrite q l) s = .next (settle (postOk r.2 q.conn q.cid
        ((r.1.takeWhile (· = 0)).length * 65536 + (r.1.find? (· ≠ 0)).getD 0) [])) ∧
      (∀ e, l = [e] → let a := regAccess (.mf q.conn q.cid) e.1 (some e.2) (served s fnMF)
        r = ([a.st], if a.st = 0 then settleAlert a.s else a.s)))

/-- In RUN, by MF's or firmware's path, with no lock of the page in force where it is a write. A write of TIMER.SEC
starts the always-on timer (0 stops it). Reads of AON_LO, POS_LO and WALL_LO capture the high words; a read of RD_DATA
advances RD_SEL by one word modulo 2^18. A write of WALL_SET_HI sets the wall time, with WALL_SET_LO, and the minute
with it; one that leaves the minute marks its records (`wallFlags`), and any other first closes the minute in progress
(`wallClose`). REC.HOLD: a freeze of a recorder that is not frozen stops it and clears RD_SEL, the end of a freeze
adds the records held, a clear empties it. Firmware's write of PAD_HOLD stores the word, and when it releases the pads
GPIO samples them (R603). (16_power_modes.md R603, R604; 18_recorder_and_metering.md R645, R652, R654, R665.) -/
def Obligations.TimeRegistersComplete : Prop :=
  ∀ (p : Path) (v : Nat) (s : State), s.mode = .run → p.isSb = false →
    (RegOpen s p .pwr 0 → let sec := v % 2 ^ 32 % 2 ^ 24; let s1 := storeWord s .pwr 0 0x114 (v % 2 ^ 32)
      exec (.timerSet p v) s = .next (settle (emit { s1 with aon := { s1.aon with
        timer := if sec = 0 then none else some (s.now + sec * 1000000000) } } (.access 0x1114 0 0)))) ∧
    exec (.aonLoRead p) s = .next (settle (emit { s with aon := { s.aon with aonHi := aonTicks s / 2 ^ 32 } }
      (.access 0x110C 0 (readValue s .pwr 0 0x10C)))) ∧
    exec (.posLoRead p) s = .next (settle (emit { s with aon := { s.aon with posHi := s.pos / 2 ^ 32 % 256 } }
      (.access 0x3108 0 (readValue s .recd 0 0x108)))) ∧
    exec (.wallLoRead p) s = .next (settle (emit { s with meter := { s.meter with wallHi := (wallNow s).getD 0 / 2 ^ 32 % 256 } }
      (.access 0x4108 0 (readValue s .mtr 0 0x108)))) ∧
    exec (.rdDataRead p) s = .next (settle (emit (setF s .recd 0 F.REC_RD_SEL_WORD ((getF s .recd 0 F.REC_RD_SEL_WORD + 1) % 2 ^ 18))
      (.access 0x311C 0 (readValue s .recd 0 0x11C)))) ∧
    (RegOpen s p .mtr 0 → let w := v % 2 ^ 32 % 256 * 2 ^ 32 + rd s .mtr 0 0x100
      let sets (u : State) : State := { u with aon := { u.aon with wall := if w = 0 then none else some (w, s.now) },
                                               meter := { u.meter with minute := w / 60 } }
      (s.aon.wall.isSome = true ∧ w / 60 = s.meter.minute → exec (.wallSet p v) s = .next (settle (emit (wallFlags (sets s) true false)
        (.access 0x4104 0 0)))) ∧
      (¬ (s.aon.wall.isSome = true ∧ w / 60 = s.meter.minute) → exec (.wallSet p v) s = .next (settle (emit
        (wallFlags (sets (wallClose s)) (!minuteBegun s) true) (.access 0x4104 0 0))))) ∧
    (RegOpen s p .recd 0 →
      (s.recd.frozenAt = none → exec (.recFreeze p) s = .next (settle (emit (setF (setF { s with recd := { s.recd with frozenAt := some s.now } }
        .recd 0 F.REC_HOLD_FREEZE 1) .recd 0 F.REC_RD_SEL_WORD 0) (.access 0x3100 0 0)))) ∧
      (∀ t, s.recd.frozenAt = some t → exec (.recUnfreeze p) s = .next (settle (emit (s.recd.held.foldl devAdd
        (setF { s with recd := { s.recd with frozenAt := none, held := [] } } .recd 0 F.REC_HOLD_FREEZE 0)) (.access 0x3100 0 0)))) ∧
      exec (.recClear p) s = .next (settle (emit { s with recd := { s.recd with
        live := { clearPos := s.pos }, saved := { clearPos := s.pos }, ring := [], next := 0, held := [] } } (.access 0x3100 0 0)))) ∧
    (exec (.padHoldRelease v) s = .next (settle (emit (let s1 := storeWord s .pwr 0 0x11C (v % 2 ^ 32)
      if getF s .pwr 0 F.PWR_PAD_HOLD_GPIO = 1 && getF s1 .pwr 0 F.PWR_PAD_HOLD_GPIO = 0 then gpioFirst s1 else s1) (.access 0x111C 0 0))))

/-- In RUN, by MF's or firmware's path, with no lock of the page in force. A write of PORT_CTRL stores the word; with
ENABLE set in what is then stored, the link comes up where the lanes are locked and quiet (`portTryUp`); one that
clears ENABLE on a link that is up, with LINK_HOLD nonzero, takes the link down with its lane lock kept, raises
LINK_DOWN and holds the port's connections for LINK_HOLD × 100 ms. A write of WAKE_KEY1_HI commits all four key words
as one update. A write of IF_SEL loads the selected entry of the interface table into the five registers, and a write
of IF_CFG commits them to it and ends the connections of the entry that it no longer holds (`ifStill`).
(03_ethernet_transport.md R103, R106, R112, R142, R144, R156.) -/
def Obligations.PortRegistersComplete : Prop :=
  ∀ (p : Path) (n : Fin 2) (v : Nat) (s : State),
    (RegOpen s p .eth n → let s1 := storeWord s .eth n 0x100 (v % 2 ^ 32)
      (getF s1 .eth n F.ETH_PORT_CTRL_ENABLE = 1 →
        exec (.portEnable p n v) s = .next (settle (emit (portTryUp n s1) (.access (regAddr .eth n 0x100) 0 0)))) ∧
      ((eth s n).linkUp = true → getF s1 .eth n F.ETH_PORT_CTRL_ENABLE = 0 →
        getF s1 .eth n F.ETH_PORT_CTRL_LINK_HOLD ≠ 0 → exec (.portEnable p n v) s = .next (settle (emit (raise (modEth s1 n (fun e =>
          { e with linkUp := false, xoff := [], holdUntil := some (s.now + getF s1 .eth n F.ETH_PORT_CTRL_LINK_HOLD * 100000000) }))
            .eth n F.ETH_INT_RAW_LINK_DOWN) (.access (regAddr .eth n 0x100) 0 0)))) ∧
      (∃ u, exec (.wakeKeyCommit p n v) s = .next (settle u) ∧ u.regs = s.regs ∧
        (eth u n).wakeKey = mgetD (eth s n).wakeStaged 0 0 + mgetD (eth s n).wakeStaged 1 0 * 2 ^ 32 +
          mgetD (eth s n).wakeStaged 2 0 * 2 ^ 64 + v % 2 ^ 32 * 2 ^ 96)) ∧
    (RegOpen s p .tte 0 → let s1 := storeWord s .tte 0 0x11C (v % 2 ^ 32); let e := ifAt s (getF s1 .tte 0 F.TTE_IF_SEL_INDEX)
      exec (.ifSelLoad p v) s = .next (settle (emit (wr (wr (wr (wr (wr s1 .tte 0 0x120 (e.addr / 2 ^ 96 % 2 ^ 32)) .tte 0 0x124
        (e.addr / 2 ^ 64 % 2 ^ 32)) .tte 0 0x128 (e.addr / 2 ^ 32 % 2 ^ 32)) .tte 0 0x12C (e.addr % 2 ^ 32)) .tte 0 0x130 e.cfg)
        (.access (regAddr .tte 0 0x11C) 0 0))) ∧
      let s2 := storeWord s .tte 0 0x130 (v % 2 ^ 32); let i := getF s2 .tte 0 F.TTE_IF_SEL_INDEX
      let new : IfEntry := IfEntry.mk
        (((rd s2 .tte 0 0x120 * 2 ^ 32 + rd s2 .tte 0 0x124) * 2 ^ 32 + rd s2 .tte 0 0x128) * 2 ^ 32 + rd s2 .tte 0 0x12C)
        (rd s2 .tte 0 0x130)
      exec (.ifCfgCommit p v) s = .next (settle (emit (connsLost { s2 with ifs := mput s2.ifs i {} new }
        ((s.conns.filter (fun q => q.2.ifIdx = i && !ifStill (ifAt s i) new q.2)).map Prod.fst)) (.access (regAddr .tte 0 0x130) 0 0))))

/-- In RUN, by MF's or firmware's path, with no lock of the page in force. QUIESCE 1 on an ACTIVE tenant makes it
QUIESCING with the commands it waits for; QUIESCE 0 on a QUIESCING or QUIESCED one makes it ACTIVE; in both cases
commands that may now be taken are taken up. DIAG_CTRL.GO on an idle lane sets BUSY: where its PUA names a populated
flash die of the lane in service, the read is given to Cirrus, and otherwise the diagnostic read ends at once with
RESULT 6 (a flash die of another lane), 5 (none there) or 4 (out of service). FORCE in SPARE_CTRL, once each rank in
service has been judged against the CE_THR then stored, starts the copy of an in-service rank to a spare that is
ready, and of one that finds no spare reports cause 0x01 and raises NO_SPARE. TEST_DATA writes the selected test byte,
with the check bits that an armed FLIP inverts, and reads back one whose check bits are as they were.
(05_tenant_functions.md R220, R223; 09_flash_lanes_thyme.md R396, R402; 14_memories_buffers_dram.md R544, R549, R556.)
-/
def Obligations.TenantLaneTestRegistersComplete : Prop :=
  ∀ (p : Path) (v : Nat) (s : State),
    (∀ t : Fin 512, RegOpen s p .tf t →
      ((tenant s t).state = .active → exec (.quiesce p t) s = .next (settle (emit
        (pump (modTenant (setF s .tf t F.TF_CTRL_QUIESCE 1) t (fun x =>
          { x with state := .quiescing, quiesced := false, drain := tenantCmds s t }))) (.access (regAddr .tf t 0x010) 0 0)))) ∧
      ((tenant s t).state = .quiescing ∨ (tenant s t).state = .quiesced → exec (.quiesceEnd p t) s = .next (settle (emit
        (pump (modTenant (setF s .tf t F.TF_CTRL_QUIESCE 0) t (fun x =>
          { x with state := .active, quiesced := false, drain := [], endHeld := false }))) (.access (regAddr .tf t 0x010) 0 0))))) ∧
    (∀ l : Fin 64, RegOpen s p .lan l → let s1 := storeWord s .lan l 0x138 ((v ||| 1) % 2 ^ 32)
      let pua := getF s1 .lan l F.LAN_DIAG_PUA_LO_PUA_LO + getF s1 .lan l F.LAN_DIAG_PUA_HI_PUA_HI * 2 ^ 32
      let busy := setF s1 .lan l F.LAN_DIAG_STAT_BUSY 1
      getF s1 .lan l F.LAN_DIAG_STAT_BUSY = 0 → laneOfDie (puaDie pua) = l → (dieAt s1 (puaDie pua)).st ≠ .absent →
        dieOut s1 (puaDie pua) = false → exec (.diagRead p l v) s = .next (settle (emit
          { busy with lanes := mset busy.lanes l { mgetD busy.lanes l {} with diag := some s1.now, diagRead := false },
                      feeds := busy.feeds ++ [{ kind := .read, die := puaDie pua, pua := pua, owner := .diag, cls := 0,
                                                deadline := s1.now + clsTarget s1 0,
                                                thr := if getF s1 .lan l F.LAN_DIAG_CTRL_THR ≤ 5 then getF s1 .lan l F.LAN_DIAG_CTRL_THR else 0,
                                                cws := [getF s1 .lan l F.LAN_DIAG_CTRL_SUB] }] }
          (.access (regAddr .lan l 0x138) 0 0)))) ∧
    (∀ l : Fin 64, RegOpen s p .lan l → let s1 := storeWord s .lan l 0x138 ((v ||| 1) % 2 ^ 32)
      let pua := getF s1 .lan l F.LAN_DIAG_PUA_LO_PUA_LO + getF s1 .lan l F.LAN_DIAG_PUA_HI_PUA_HI * 2 ^ 32
      let busy := setF s1 .lan l F.LAN_DIAG_STAT_BUSY 1; let ends (n : Nat) : State := emit (diagEnd busy l n 0) (.access (regAddr .lan l 0x138) 0 0)
      getF s1 .lan l F.LAN_DIAG_STAT_BUSY = 0 →
        (laneOfDie (puaDie pua) ≠ l → exec (.diagRead p l v) s = .next (settle (ends 6))) ∧
        (laneOfDie (puaDie pua) = l → (dieAt s1 (puaDie pua)).st = .absent → exec (.diagRead p l v) s = .next (settle (ends 5))) ∧
        (laneOfDie (puaDie pua) = l → (dieAt s1 (puaDie pua)).st ≠ .absent → dieOut s1 (puaDie pua) = true →
          exec (.diagRead p l v) s = .next (settle (ends 4)))) ∧
    (RegOpen s p .drx 0 → let s0 := storeWord s .drx 0 0x10C ((v ||| 1) % 2 ^ 32)
      let s1 := ((List.range 16).filter (fun r => rankState s0 r = 1)).foldl ceJudge s0
      let r := getF s1 .drx 0 F.DRX_SPARE_CTRL_FORCE_CH * 2 + getF s1 .drx 0 F.DRX_SPARE_CTRL_FORCE_RANK
      let s2 := setF (setF (setF (setF (setRank s1 r 3) .drx 0 F.DRX_SPARE_STATE 1) .drx 0 F.DRX_SPARE_FAILED_CH (r / 2)) .drx 0
        F.DRX_SPARE_FAILED_RANK (r % 2)) .drx 0 F.DRX_COPY_PTR_PIECES 0
      rankState s1 r = 1 → r ∉ s1.dram.noSpare →
        (getF s1 .drx 0 F.DRX_SPARE_STATE = 0 → exec (.spareForce p v) s = .next (settle (emit
          (raise { s2 with dram := { s2.dram with copyAt := s1.now, retired := some (r, mgetD s1.dram.serials (r / 2) 0) } } .drx 0
            F.DRX_INT_RAW_SPARE_START) (.access (regAddr .drx 0 0x10C) 0 0)))) ∧
        (getF s1 .drx 0 F.DRX_SPARE_STATE ≠ 0 → exec (.spareForce p v) s = .next (settle (emit
          (raise (blockError { s1 with dram := { s1.dram with noSpare := r :: s1.dram.noSpare } } .drx 0 1 r 0 0) .drx 0
            F.DRX_INT_RAW_NO_SPARE) (.access (regAddr .drx 0 0x10C) 0 0))))) ∧
    (RegOpen s p .sea 0 → let m := (testSel s).1; let o := (testSel s).2
      let armed := getF s .sea 0 F.SEA_FLIP_ARMED = 1 ∧ memIndex (getF s .sea 0 F.SEA_FLIP_TARGET) = m
      (¬ armed → exec (.testDataWrite p v) s = .next (settle (emit { s with
        windows := mput s.windows (m * 64 + o) {} ⟨v % 2 ^ 32 % 256, 0⟩ } (.access (regAddr .sea 0 0x130) 0 0)))) ∧
      (armed → exec (.testDataWrite p v) s = .next (settle (emit
        (raise (setF { s with windows := mput s.windows (m * 64 + o) {} ⟨v % 2 ^ 32 % 256, flipCount s⟩ } .sea 0 F.SEA_FLIP_ARMED 0)
          .sea 0 F.SEA_INT_RAW_FLIP_DONE) (.access (regAddr .sea 0 0x130) 0 0)))) ∧
      ((winAt s m o).flips = 0 → exec (.testDataRead p) s = .next (settle (emit { s with
        windows := mput s.windows (m * 64 + o) {} (winAt s m o) } (.access (regAddr .sea 0 0x130) 0 (winAt s m o).byte)))))

/-- At a port that carries frames: uncorrectable codewords of a frame are counted and raise FEC_UNC. Any other frame
below 64 bytes, above 9,216, with two tags or, of an EtherType other than 0x88B5, accepted by no interface changes
only the count of corrected codewords. One of another EtherType that is none of these is counted in OVER_MTU when over
the MTU in force, else in MALFORMED when it is a fragment or has options; else in RTP_DROPS when the FIFO cannot take
it, else in LOSSY_DROP when its priority is lossy and would pass LOSSY_LIM; else it enters: its priority's level rises
by its bytes and is held against its thresholds, panic is judged, the packet acts on its connection, and its arrival
is a packet wake. RTP_DRAIN lowers a level by the bytes and judges thresholds and panic. A refresh that is due, of a
lossless priority not below XON, sends PFC again with QUANTA and sets the next time. A PFC frame to the port's MAC
address or to the MAC control multicast address pauses each priority it names for its quanta × 512 bit times or, with
quanta 0, resumes it, and what waited leaves; so does a pause that ends at its time. In every mode but RESET and HOLD,
alignment lock on a port with ENABLE 1 and its link down, high symbol error rate none within 10 ms, brings the link
up: what waited leaves and its priorities are held against their thresholds. A link that goes down raises LINK_DOWN
and keeps its connections for LINK_HOLD × 100 ms, or loses them at once with LINK_HOLD 0; lock stays where the cause
is a high symbol error rate, whose time is kept; a link already down changes in lock alone. The hold's end loses the
port's connections. ARP for a valid IPv4 interface, Neighbor Solicitation for an IPv6 one to its solicited-node
address, and echo for any, to its MAC addresses, are answered to their source on its VLAN. (03_ethernet_transport.md
R102, R103, R107–R109, R113, R114, R126, R144, R145, R148; 14_memories_buffers_dram.md R542.) -/
def Obligations.PortsComplete : Prop :=
  (∀ (p : Fin 2) (prio : Fin 8) (s : State), let e := eth s p;
    (portLive s p = true → ∀ f : EthFrame, f.port = p →
      let s1 := bumpBy s .eth p F.ETH_FEC_CORR f.fecCorr; let at' := mgetD e.level (framePrio f) 0
      (f.fecUnc ≠ 0 → exec (.frameReceived f) s = .next (settle
        (raise (bumpBy s1 .eth p F.ETH_FEC_UNC f.fecUnc) .eth p F.ETH_INT_RAW_FEC_UNC))) ∧
      (f.fecUnc = 0 → (f.bytes < 64 ∨ 9216 < f.bytes ∨ 2 ≤ f.tags.length ∨ (f.etherType ≠ 0x88B5 ∧ acceptIf s1 f = none)) →
        exec (.frameReceived f) s = .next (settle s1)) ∧
      (f.fecUnc = 0 → 64 ≤ f.bytes → f.bytes ≤ 9216 → f.tags.length ≤ 1 → f.etherType ≠ 0x88B5 → (acceptIf s1 f).isSome = true →
        (portMtu s1 p < f.ipLen → exec (.frameReceived f) s = .next (settle (bump s1 .eth p F.ETH_RX_DROP_OVER_MTU))) ∧
        (f.ipLen ≤ portMtu s1 p → (f.fragment = true ∨ f.options = true) →
          exec (.frameReceived f) s = .next (settle (bump s1 .eth p F.ETH_RX_DROP_MALFORMED))) ∧
        (f.ipLen ≤ portMtu s1 p → f.fragment = false → f.options = false →
          (rtpSize < rtpLevel e + f.bytes → exec (.frameReceived f) s = .next (settle (bump s1 .drx 0 F.DRX_RTP_DROPS_COUNT))) ∧
          (rtpLevel e + f.bytes ≤ rtpSize → isLossless s1 p (framePrio f) = false → lossyLim s1 p < at' + f.bytes →
            exec (.frameReceived f) s = .next (settle (bump s1 .eth p F.ETH_LOSSY_DROP_COUNT))) ∧
          (rtpLevel e + f.bytes ≤ rtpSize → (isLossless s1 p (framePrio f) = true ∨ at' + f.bytes ≤ lossyLim s1 p) →
            exec (.frameReceived f) s = .next (settle (resumeAfter s1 (wakeEvent 1 (frameBody (rtpPanicIn (pfcReviewOne
              (setEth s1 p { e with level := mput e.level (framePrio f) 0 (at' + f.bytes) }) p (framePrio f)) p)
              p f.src ((frameVlan f.tags).getD 0) f.ce f.body)))))))) ∧
    (∀ n, exec (.rtpDrain p prio n) s = .next (settle (rtpPanicOut (pfcReviewOne
      (setEth s p { e with level := mput e.level prio 0 (mgetD e.level prio 0 - n) }) p prio) p))) ∧
    (∀ t, mget e.xoff prio = some t → t ≤ s.now → isLossless s p prio = true → portSends s p = true →
      xonKib s p * 1024 ≤ mgetD e.level prio 0 → exec (.pfcRefreshTimer p prio) s = .next (settle (emit
        (setEth s p { e with xoff := mset e.xoff prio (s.now + getF s .eth p F.ETH_PFC_CTRL_QUANTA * 64 / 100) })
        (.frame "pfc" (prio * 65536 + getF s .eth p F.ETH_PFC_CTRL_QUANTA)
          { port := p, dst := 0x0180C2000001, src := portMac s p })))) ∧
    (∀ (dst : Nat) (l : List (Nat × Nat)), portLive s p = true → (dst = portMac s p ∨ dst = 0x0180C2000001) →
      let one (u : State) (q : Nat × Nat) : State := modEth u p (fun e => if q.2 % 65536 = 0 then { e with paused := mdel e.paused (q.1 % 8) }
        else { e with paused := mset e.paused (q.1 % 8) (u.now + ceilDiv (q.2 % 65536 * 128) 100) })
      exec (.pfcFrame p ⟨dst, l⟩) s = .next (settle (txFlush (l.foldl one s)))) ∧
    (∀ t, mget e.paused prio = some t → t ≤ s.now →
      exec (.pfcPauseExpiry p prio) s = .next (settle (txFlush (setEth s p { e with paused := mdel e.paused prio }))))) ∧
  (∀ (p : Fin 2) (s : State), let e := eth s p;
    (getF s .eth p F.ETH_PORT_CTRL_ENABLE = 1 → e.linkUp = false → s.mode ≠ .reset → s.mode ≠ .hold → portQuiet s p = true →
      exec (.linkUp p) s = .next (settle (pfcReview (txFlush (raise
        (setEth s p { e with amLock := true, linkUp := true, holdUntil := none }) .eth p F.ETH_INT_RAW_LINK_UP)) p))) ∧
    (let hold := getF s .eth p F.ETH_PORT_CTRL_LINK_HOLD
     let down (ser : Bool) : State :=
       if e.linkUp = false then setEth s p { e with amLock := e.amLock && ser }
       else if hold = 0 then
         portLost (raise (setEth s p { e with amLock := e.amLock && ser, linkUp := false, xoff := [], holdUntil := none }) .eth p F.ETH_INT_RAW_LINK_DOWN) p
       else raise (setEth s p { e with amLock := e.amLock && ser, linkUp := false, xoff := [], holdUntil := some (s.now + hold * 100000000) })
         .eth p F.ETH_INT_RAW_LINK_DOWN
     exec (.linkDown p false) s = .next (settle (down false)) ∧
     exec (.linkDown p true) s = .next (settle (modEth (down true) p (fun e => { e with serAt := some s.now })))) ∧
    (∀ t, e.holdUntil = some t → t ≤ s.now → exec (.linkHoldExpiry p) s = .next (settle
      (portLost (setEth s p { e with holdUntil := none }) p))) ∧
    (∀ vlan ip src i dst, portLive s p = true →
      (findIf s p vlan ip = some i →
        ((ifAt s i).isV4 = true → exec (.arpRequest p vlan ⟨ip, src⟩) s = .next (settle (answer s "arp" p vlan i src false))) ∧
        ((dst = portMac s p ∨ dst = macBroadcast ∨ isSolicited s p dst = true) →
          exec (.icmpEcho p vlan ⟨ip, dst, src⟩) s = .next (settle (answer s "echo" p vlan i src true)))) ∧
      (findV6 s p ip = some i → exec (.neighborSolicitation p vlan ⟨solicitedIp ip, ip, src⟩) s = .next (settle
        (answer s "nadv" p vlan i src true)))))

/-- On an existing connection. A congestion notification, the first or one that comes DEC_GAP or more after the last
drop, drops a queue pair's rate by rate / 2^DEC_SHIFT to no less than 1 Gb/s, one that comes earlier changes nothing,
and INC_PERIOD without a drop raises it by INC_STEP to at most 400 Gb/s. An ICReq on a TCP connection that is not
ready makes it ready with its digests and is answered with MAXH2CDATA. A data PDU with a bad header digest where
digests are in use, or of more than 131,072 bytes, ends the connection as a protocol error; one with a bad data digest
alone is a protocol error and completes its waiting command with Transient Transport Error; a good one changes
nothing. When 67.108864 ms have passed on a queue pair without the acknowledgement of what is outstanding, the part
retries, and after 7 retries counts QP_ERR and loses the connection as a protocol error. When the retransmission
timeout has passed on a TCP connection, the part retransmits under a timeout of 1 ms to 2 s that no value is stated
of, and after 8 retransmissions counts TCP_RESET and resets the connection. A host's close loses the connection.
(03_ethernet_transport.md R118, R124, R131–R134.) -/
def Obligations.ConnectionsComplete : Prop :=
  ∀ (id : Nat) (c : Conn) (s : State), connOf s id = some c →
    (c.rdma = true →
      ((c.lastDrop = none ∨ ∃ t, c.lastDrop = some t ∧ t + getF s .tte 0 F.TTE_CC_CTRL_DEC_GAP * 1000 ≤ s.now) →
        exec (.cnpReceived id) s = .next (settle (setConn s id { c with
          rate := max 1000000000 (c.rate - c.rate / 2 ^ (max 1 (getF s .tte 0 F.TTE_CC_CTRL_DEC_SHIFT))),
          lastDrop := some s.now, rateAt := s.now }))) ∧
      (∀ t, c.lastDrop = some t → s.now < t + getF s .tte 0 F.TTE_CC_CTRL_DEC_GAP * 1000 → exec (.cnpReceived id) s = .next (settle s)) ∧
      (c.rateAt + max 1 (getF s .tte 0 F.TTE_CC_CTRL_INC_PERIOD) * 10000 ≤ s.now →
        exec (.rateIncrease id) s = .next (settle (setConn s id { c with
          rate := min 400000000000 (c.rate + getF s .tte 0 F.TTE_CC_CTRL_INC_STEP * 1000000000), rateAt := s.now }))) ∧
      (∀ t, c.ackAt = some t → t + 67108864 ≤ s.now →
        (c.retries < 7 → exec (.ackTimeout id) s = .next (settle
          (tell (setConn s id { c with retries := c.retries + 1, ackAt := some s.now }) id c "retry" []))) ∧
        (7 ≤ c.retries → exec (.ackTimeout id) s = .next (settle (connLost (protoError (bump s .tte 0 F.TTE_QP_ERR) c) id))))) ∧
    (c.rdma = false →
      (∀ h d, c.ready = false → exec (.icreq id h d) s = .next (settle
        (sendMsg (setConn s id { c with ready := true, hdgst := h, ddgst := d }) id 128
          (fun x => .conn id "icresp" [131072, h.toNat, d.toNat] x)))) ∧
      (∀ cid len h d,
        ((c.hdgst = true ∧ h = false) ∨ 131072 < len → exec (.h2cDataPdu id cid len ⟨h, d⟩) s = .next (settle (connDrop (protoError s c) id "end"))) ∧
        (¬ ((c.hdgst = true ∧ h = false) ∨ 131072 < len) →
          (c.ddgst = true ∧ d = false → exec (.h2cDataPdu id cid len ⟨h, d⟩) s = .next (settle (failData (protoError s c) id cid))) ∧
          (¬ (c.ddgst = true ∧ d = false) → exec (.h2cDataPdu id cid len ⟨h, d⟩) s = .next (settle s)))) ∧
      (∀ t, c.ackAt = some t → t + c.rto ≤ s.now →
        (c.retries < 8 → exec (.tcpRetransmitTimeout id) s = .next (settle
          (tell { setConn s id { c with retries := c.retries + 1, ackAt := some s.now,
                                        rto := max 1000000 (min 2000000000 (Config.freeWord s.free).toNat) } with free := s.free + 1 }
            id c "retransmit" []))) ∧
        (8 ≤ c.retries → exec (.tcpRetransmitTimeout id) s = .next (settle (connDrop (bump s .tte 0 F.TTE_TCP_RESET) id "rst"))))) ∧
    exec (.tcpCloseReceived id) s = .next (settle (connLost s id))

/-- A connect request for a queue pair that the part supports, or a TCP SYN, at an interface of a port that carries
frames, for the I/O or the discovery service and under a name not in use: it takes an entry of its pool and is
accepted; with none left it is refused and POOL_EMPTY is raised. A connect request that names an SRQ, atomics, another
type than RC, or a path MTU other than 1,024, 2,048 and 4,096 or above the port's MTU less 128, is rejected and takes
no entry. A SYN's supported options are kept; the first retransmission timeout, 1 ms to 2 s, and the first congestion
window are values that are not stated. (03_ethernet_transport.md R110, R119, R120, R128, R132, R134.) -/
def Obligations.NewConnectionsComplete : Prop :=
  ∀ (c : NewConn) (i : Nat) (s : State), findIf s c.port c.vlan c.dstIp = some i → portLive s c.port = true → connOf s c.conn = none →
    let disc : Bool := c.service = getF s .tte 0 F.TTE_L4_PORTS_DISC_PORT; let mgmt := (ifAt s i).mgmt && !disc
    let at' (k : Conn) : Conn :=
      { k with port := c.port, ifIdx := i, vlan := c.vlan, peerMac := c.peerMac, disc := disc, mgmt := mgmt, rateAt := s.now, recvBufs := 1 }
    let taken (u : State) (k : Conn) (why : String) : State :=
      if poolEmpty s i mgmt disc then tell (raise u .tte 0 F.TTE_INT_RAW_POOL_EMPTY) c.conn (at' k) why []
      else tell (setConn u c.conn (at' k)) c.conn (at' k) "accept" []
    (∀ r : RdmaReq, let ok : Prop := r.rc = true ∧ r.srq = false ∧ r.atomics = false ∧ (r.mtu = 1024 ∨ r.mtu = 2048 ∨ r.mtu = 4096) ∧
        r.mtu + 128 ≤ portMtu s c.port
      (ok → (disc = true ∨ c.service = getF s .tte 0 F.TTE_L4_PORTS_IO_PORT) → exec (.rdmaCmConnectRequest ⟨c, r⟩) s = .next (settle
        (taken s { rdma := true, ready := true, pmtu := r.mtu } "reject 28"))) ∧
      (¬ ok → exec (.rdmaCmConnectRequest ⟨c, r⟩) s = .next (settle
        (tell s c.conn { port := c.port, ifIdx := i, vlan := c.vlan, peerMac := c.peerMac } "reject" [])))) ∧
    (∀ opts, (disc = true ∨ c.service = getF s .tte 0 F.TTE_L4_PORTS_IO_PORT) → exec (.tcpSyn ⟨c, opts⟩) s = .next (settle
      (taken { s with free := s.free + 2 }
        { rdma := false, ready := false, opts := opts.filter (·.supported),
          rto := max 1000000 (min 2000000000 (Config.freeWord s.free).toNat), cwnd := (Config.freeWord (s.free + 1)).toNat } "rst")))

/-- On a TCP connection without TLS: a ClientHello that offers a key exchange mode and a cipher suite the part
supports begins a handshake when it names an installed PSK whose hash an offered suite has, and otherwise ends with
unknown_psk_identity (the model's choice, log 162); one that offers no such mode or suite ends with handshake_failure.
At the end of a handshake the traffic keys go into the lowest free transport key slot, and with none free it ends with
internal_error. A record that authenticates under a key that is there is counted, and advances the receiving sequence
number; one of more than 16,384 bytes ends the connection with record_overflow, and the one numbered 2^64 − 1 closes
it. One that does not authenticate counts and raises the failure and ends the connection with bad_record_mac. A
KeyUpdate puts the next traffic secret into the same slot and restarts the numbers. (03_ethernet_transport.md R135,
R137–R139; 12_sorrel_keys_cipher.md R475.) -/
def Obligations.TlsCompletes : Prop :=
  ∀ (id : Nat) (c : Conn) (s : State), connOf s id = some c →
    (∀ h : Hello, c.rdma = false → c.tls = none →
      let offers : Prop := (h.pskKe = true ∨ (h.pskDheKe = true ∧ h.secp384r1 = true)) ∧ (h.aes128 = true ∨ h.aes256 = true)
      (offers → pskKnown s h = true → exec (.tlsClientHello id h) s = .next (settle
        (tell (setConn s id { c with hello := some h.psk }) id c "server_hello" []))) ∧
      (offers → pskKnown s h = false → exec (.tlsClientHello id h) s = .next (settle (connDrop s id "unknown_psk_identity"))) ∧
      (¬ offers → exec (.tlsClientHello id h) s = .next (settle (connDrop s id "handshake_failure")))) ∧
    (c.hello.isSome = true → c.tls = none →
      (∀ k, freeTslot s = some k → exec (.tlsHandshakeDone id) s = .next (settle
        { setConn s id { c with tls := some { slot := k, rxSeq := 0, txSeq := 0, rxGen := 0 } } with
            tslots := mset s.tslots k s.nextKey, nextKey := s.nextKey + 1 })) ∧
      (freeTslot s = none → exec (.tlsHandshakeDone id) s = .next (settle (connDrop s id "internal_error")))) ∧
    (∀ t, c.tls = some t →
      (∀ len, mgetD s.tslots t.slot 0 ≠ 0 → let s1 := bump s .csx 0 F.CSX_TLS_REC_COUNT
        (len ≤ 16384 → t.rxSeq ≠ 2 ^ 64 - 1 → exec (.tlsRecordReceived id ⟨len, true⟩) s = .next (settle
          (setConn s1 id { c with tls := some { t with rxSeq := t.rxSeq + 1 } }))) ∧
        (len ≤ 16384 → t.rxSeq = 2 ^ 64 - 1 → exec (.tlsRecordReceived id ⟨len, true⟩) s = .next (settle (tlsClose s1 id))) ∧
        (16384 < len → exec (.tlsRecordReceived id ⟨len, true⟩) s = .next (settle (connDrop (protoError s1 c) id "record_overflow")))) ∧
      (∀ len ok, ok = false ∨ mgetD s.tslots t.slot 0 = 0 → exec (.tlsRecordReceived id ⟨len, ok⟩) s = .next (settle (connDrop (protoError
        (blockError (raise (bump s .csx 0 F.CSX_AUTH_FAIL_TLS) .csx 0 F.CSX_INT_RAW_TLS_FAIL) .csx 0 0x02
          (match c.fn with | some f => if f < 512 then f else 0x1FF | none => 0x1FF) t.slot 0) c) id "bad_record_mac"))) ∧
      exec (.tlsKeyUpdate id) s = .next (settle (setConn s id { c with tls := some { t with rxGen := t.rxGen + 1, rxSeq := 0 } })))

/-- A maintenance request of a cache that is not busy, by an access that its page allows, with any parity errors that
its lines hold from now on. Clean, Invalidate, Clean and invalidate (each by address range or by set and way) and
Preload (by address range): the request sets MAINT_BUSY and runs at once, or while the cache drains is held until the
drain's end. A request with an invalid operation runs nothing and is reported with cause 0x03. The end of an operation
that is not held clears MAINT_BUSY and raises MAINT_DONE. What an operation does with one line of a cache without a
parity error: by set and way, or of one address whose line is present, Clean makes it clean and Invalidate and Clean
and invalidate drop it; an address whose line is absent leaves the lines as they are. (15_caches.md R576, R580, R588,
R589.) -/
def Obligations.CacheMaintenanceCompletes : Prop :=
  (∀ (p : Path) (c : CacheId) (v : Nat) (bad : List Nat) (s : State), RegOpen s p c.page 0 → getF s c.page 0 F.CACHE_STAT_MAINT_BUSY = 0 →
    let req (op x : Nat) : Nat := putBits x 3 0 (op * 2 + 1) % 2 ^ 32
    let m (op x : Nat) : CMaint := ⟨req op x, rd s c.page 0 0x120 % 256 * 2 ^ 32 + rd s c.page 0 0x11C, rd s c.page 0 0x124⟩
    let busy (op x : Nat) : State := setF (storeWord (addBad c bad s) c.page 0 0x128 (req op x)) c.page 0 F.CACHE_STAT_MAINT_BUSY 1
    let ran (op x : Nat) : State := emit
      (if getF s c.page 0 F.CACHE_STAT_DRAINING = 1 then setCache (busy op x) c { cacheAt (busy op x) c with held := some (m op x) }
       else runMaint c (m op x) (busy op x)) (.access (regAddr c.page 0 0x128) 0 0)
    exec (.cacheClean p c ⟨v, bad⟩) s = .next (settle (ran 1 v)) ∧
    exec (.cacheInvalidate p c ⟨v, bad⟩) s = .next (settle (ran 2 v)) ∧
    exec (.cacheCleanInvalidate p c ⟨v, bad⟩) s = .next (settle (ran 3 v)) ∧
    exec (.cachePreload p c ⟨v, bad⟩) s = .next (settle (ran 4 (putBits v 4 4 0))) ∧
    exec (.cacheMaintInvalid p c v) s = .next (settle (emit
      (blockError (storeWord s c.page 0 0x128 (req (badOp v) v)) c.page 0 3 (req (badOp v) v % 65536) 0 0)
      (.access (regAddr c.page 0 0x128) 0 0)))) ∧
  (∀ (c : CacheId) (s : State), getF s c.page 0 F.CACHE_STAT_MAINT_BUSY = 1 → (cacheAt s c).held = none →
    exec (.maintDone c) s = .next (settle (raise (setF s c.page 0 F.CACHE_STAT_MAINT_BUSY 0) c.page 0 F.CACHE_INT_RAW_MAINT_DONE))) ∧
  (∀ (c : CacheId) (m : CMaint) (s : State), (cacheAt s c).bad = [] → let op := bitsOf m.ctrl 3 1; op ≠ 4 →
    let set := m.addr / 64 % c.sets; let tag := m.addr / 64 / c.sets
    let after (key : Nat) : FMap CLine := if op = 1 then mmod (cacheAt s c).lines key (fun l => { l with dirty := false })
      else mdel (cacheAt s c).lines key
    (bitsOf m.ctrl 4 4 = 1 →
      (cacheAt (runMaint c m s) c).lines = after (lineKey (bitsOf m.setway 13 0 % c.sets) (bitsOf m.setway 19 16))) ∧
    (bitsOf m.ctrl 4 4 = 0 → bitsOf m.ctrl 31 16 = 0 →
      (∀ w, cacheFind (cacheAt s c) set tag = some w → (cacheAt (runMaint c m s) c).lines = after (lineKey set w)) ∧
      (cacheFind (cacheAt s c) set tag = none → runMaint c m s = s)))

/-- ENABLE set on a cache in bypass applies the held regions and ways with every line invalid; ENABLE cleared enters
bypass with every line invalid when none is dirty, and starts a drain when one is; either write while the cache drains
is kept until the drain's end. The drain's end finds the parity errors of the lines, leaves the cache in bypass with
no line and raises DRAIN_DONE; a maintenance operation that was held runs then, and the cache is enabled when ENABLE
was set meanwhile. REG_SEL loads the selected region into the region registers, and REG_ATTR commits them to it.
(15_caches.md R571, R579, R580, R585, R589.) -/
def Obligations.CacheControlCompletes : Prop :=
  (∀ (p : Path) (c : CacheId) (v : Nat) (s : State), RegOpen s p c.page 0 →
    let s1 := storeCtrl s p c.page 0 (putBits v 0 0 1 % 2 ^ 32); let s0 := storeCtrl s p c.page 0 (putBits v 0 0 0 % 2 ^ 32)
    let ans (u : State) (off : Nat) : State := emit u (.access (regAddr c.page 0 off) 0 0)
    (getF s1 c.page 0 F.CACHE_CTRL_ENABLE = 1 → getF s1 c.page 0 F.CACHE_STAT_ENABLED = 0 → getF s1 c.page 0 F.CACHE_STAT_DRAINING = 0 →
      exec (.cacheEnable p c v) s = .next (settle (ans (setF (wr (setCache s1 c { cacheAt s c with
        lines := [], lru := [], bad := [], enable := false, active := (cacheAt s c).regions,
        ways := waysAct (getF s1 c.page 0 F.CACHE_CTRL_WAYS) }) c.page 0 0x114 0) c.page 0 F.CACHE_STAT_ENABLED 1) 0x010))) ∧
    (getF s0 c.page 0 F.CACHE_CTRL_ENABLE = 0 → getF s0 c.page 0 F.CACHE_STAT_ENABLED = 1 → getF s0 c.page 0 F.CACHE_STAT_DRAINING = 0 →
      exec (.cacheDisable p c v) s = .next (settle (ans (
        if (cacheAt s c).lines.any (fun q => q.2.dirty) then setF s0 c.page 0 F.CACHE_STAT_DRAINING 1
        else setF (setCache s0 c { cacheAt s c with lines := [], lru := [] }) c.page 0 F.CACHE_STAT_ENABLED 0) 0x010))) ∧
    (getF s1 c.page 0 F.CACHE_CTRL_ENABLE = 1 → getF s1 c.page 0 F.CACHE_STAT_DRAINING = 1 →
      exec (.cacheEnable p c v) s = .next (settle (ans (setCache s1 c { cacheAt s c with enable := true }) 0x010))) ∧
    (getF s0 c.page 0 F.CACHE_CTRL_ENABLE = 0 → getF s0 c.page 0 F.CACHE_STAT_DRAINING = 1 →
      exec (.cacheDisable p c v) s = .next (settle (ans (setCache s0 c { cacheAt s c with enable := false }) 0x010))) ∧
    (let t := storeWord s c.page 0 0x100 (v % 2 ^ 32); let r := mgetD (cacheAt s c).regions (getF t c.page 0 F.CACHE_REG_SEL_INDEX) {};
      exec (.regionSelect p c v) s = .next (settle (ans (wr (wr (wr (wr t c.page 0 0x104 (r.base % 2 ^ 32)) c.page 0 0x108
        (r.base / 2 ^ 32 % 256)) c.page 0 0x10C r.pages) c.page 0 0x110 r.policy) 0x100))) ∧
    (let t := storeWord s c.page 0 0x110 (v % 2 ^ 32);
      exec (.regionCommit p c v) s = .next (settle (ans (setCache t c { cacheAt s c with
        regions := mput (cacheAt s c).regions (getF t c.page 0 F.CACHE_REG_SEL_INDEX) {}
          (CRegion.mk (getF t c.page 0 F.CACHE_REG_BASE_HI_BASE_HI * 2 ^ 32 + getF t c.page 0 F.CACHE_REG_BASE_LO_BASE_LO * 4096)
            (getF t c.page 0 F.CACHE_REG_SIZE_PAGES) (getF t c.page 0 F.CACHE_REG_ATTR_POLICY)) }) 0x110)))) ∧
  (∀ (c : CacheId) (bad : List Nat) (s : State), let t := addBad c bad s; let k := cacheAt t c
    getF t c.page 0 F.CACHE_STAT_DRAINING = 1 → (getF t c.page 0 F.CACHE_STAT_MAINT_BUSY = 0 ∨ k.held.isSome = true) →
    let t1 := k.bad.foldl (fun s b => parityCheck s c (badKey b)) t
    let t2 := raise (setF (setF (setCache t1 c { cacheAt t1 c with lines := [], lru := [], held := none, enable := false })
      c.page 0 F.CACHE_STAT_DRAINING 0) c.page 0 F.CACHE_STAT_ENABLED 0) c.page 0 F.CACHE_INT_RAW_DRAIN_DONE
    let t3 := k.held.elim t2 (fun m => runMaint c m t2)
    exec (.cacheDrainDone c bad) s = .next (settle (if k.enable then cacheOn c t3 else t3)))

/-- Basil and transit SRAM. A request of 1 byte to 256 KiB for 1 to 255 holders, with the minimum pool of its client,
takes a free buffer (which one, no value is stated of) of the smallest pool that may serve it and has one, counted as
a fallback when a smaller pool might have served it, with the count of its holders; one that no pool can serve stalls,
is counted and raises STALL. A share adds to the count modulo 256. A release of a buffer whose count, with the shares
of the same cycle, is 0 changes nothing; any other subtracts 1, and at 0 frees a buffer in use: the oldest stalled
request that may take it does, else it returns to its pool; then what waited for it goes on. An uncorrectable word of
transit SRAM is counted, reported with cause 0x01 and raises UNC; then a capsule's connection is lost, read data are
read again, a parity accumulation closes its band after the row, and a word of Basil's tables leads to a FATAL reset.
(14_memories_buffers_dram.md R528, R530–R533, R535, R559.) -/
def Obligations.TransitBuffersComplete : Prop :=
  (∀ (client : Client) (size holders : Nat) (s : State), let r : BasilReq := ⟨client, size, holders⟩
    1 ≤ size → size ≤ 262144 → 1 ≤ holders → holders ≤ 255 →
    (∀ p, (eligible r).find? (fun p => decide (0 < poolFree s p)) = some p → ∃ i, i < poolCount p ∧ s.basil.used.contains (bufKey p i) = false ∧
      let s1 := if (eligible r).head? = some p then { s with free := s.free + 1 } else bump { s with free := s.free + 1 } .bas 0 F.BAS_FALLBACK_COUNT
      let s2 := { s1 with basil := { s.basil with count := mset s.basil.count (bufKey p i) holders, used := bufKey p i :: s.basil.used } }
      exec (.basilAllocate client size client.minPool holders) s = .next (settle (emit
        (match client with
          | .parity h code => setAcc s2 h code (fun a => { a with place := .buffer (bufKey p i) })
          | _ => s2) (.buffer client p i)))) ∧
    ((∀ p ∈ eligible r, poolFree s p = 0) → exec (.basilAllocate client size client.minPool holders) s = .next (settle (raise (bump
      { s with basil := { s.basil with stalled := s.basil.stalled ++ [r] } } .bas 0 F.BAS_STALLS_COUNT) .bas 0 F.BAS_INT_RAW_STALL)))) ∧
  (∀ (pool off n : Nat) (s : State), let b := bufAt pool off; let c := mgetD s.basil.count b 0
    let left : State := { s with basil := { s.basil with count := mput s.basil.count b 0 ((c + n - 1) % 256) } }
    let freed : State := { left with basil := { left.basil with used := s.basil.used.erase b } }
    let waits := s.basil.stalled.find? (fun r => (eligible r).contains (b / 2 ^ 20))
    exec (.basilShare pool off n) s = .next (settle
      { s with basil := { s.basil with count := mput s.basil.count b 0 ((c + n) % 256) } }) ∧
    (c + n = 0 → exec (.basilRelease pool off n) s = .next (settle (pump s))) ∧
    (1 ≤ c + n → (c + n - 1) % 256 ≠ 0 → exec (.basilRelease pool off n) s = .next (settle (pump left))) ∧
    (1 ≤ c + n → (c + n - 1) % 256 = 0 → s.basil.used.contains b = true →
      (waits = none → exec (.basilRelease pool off n) s = .next (settle (pump freed))) ∧
      (∀ r, waits = some r → exec (.basilRelease pool off n) s = .next (settle (pump (giveBuffer
        { freed with basil := { freed.basil with stalled := s.basil.stalled.erase r } } r (b / 2 ^ 20) (b % 2 ^ 20))))))) ∧
  (∀ (off : Nat) (s : State),
    let s1 := raise (blockError (bump s .bas 0 F.BAS_ECC_UNC) .bas 0 1 0 (off % 2 ^ 32) 0) .bas 0 F.BAS_INT_RAW_UNC
    (∀ conn, exec (.transitSramUe off (.capsule conn)) s = .next (settle (connLost s1 conn))) ∧
    (∀ conn cid o, exec (.transitSramUe off (.readData conn cid o)) s = .next (settle (pump (readLost s1 conn cid o)))) ∧
    (∀ h code, exec (.transitSramUe off (.parity h code)) s = .next (settle (closeAfterRow s1 h code))) ∧
    exec (.transitSramUe off .tables) s = .next (settle { s1 with doom := some (s1.doom.getD (pageNo .bas 0, off % 2 ^ 32, 0)) }))

/-- DRAM. A retrain pause that is due in RUN, GUARD or SERVICE with retraining enabled is counted and its length kept.
A corrected error of a rank that is neither absent nor retired is counted and its time kept among those of CE_WIN_H
hours: with no more of them than CE_THR the rank is below the threshold; when they come to exceed it the error is
reported with cause 0x02, CE_THR is raised and the rank fails; while they exceed it already nothing else follows. The
copy's end, not before the rank's bytes at 2 bytes a nanosecond, puts the spare into service, retires the failed rank
and raises SPARE_DONE. An uncorrectable line that accesses reach is counted and reported with cause 0x01; where
neither a dirty copy in MCC nor a write of the same cycle replaces it, it is counted by its content, reported by DRX
with cause 0x02, and its content's outcome follows; then the rank fails. (14_memories_buffers_dram.md R541, R544–R547,
R550, R562.) -/
def Obligations.DramCompletes : Prop :=
  (∀ (ch : Fin 8) (ns : Nat) (s : State), let p := max 8 (getF s .drx 0 F.DRX_RETRAIN_PERIOD_MS) * 1000000; let n := (s.now - ch.val * p / 8) / p + 1
    getF s .drx 0 F.DRX_RETRAIN_ENABLE = 1 → (s.mode = .run ∨ s.mode = .guard ∨ s.mode = .service) → ch.val * p / 8 ≤ s.now →
    mgetD s.dram.pauses ch.val 0 < n →
    exec (.dramRetrain ch ns) s = .next (settle (setF (bump { s with dram := { s.dram with pauses := mset s.dram.pauses ch.val n } }
      .drc ch.val F.DRC_RETRAIN_STAT_COUNT) .drc ch.val F.DRC_RETRAIN_STAT_LAST_NS (min 1500 ns)))) ∧
  (∀ (r : Fin 16) (s : State), rankState s r ≠ 0 → rankState s r ≠ 4 →
    let thr := getF s .drx 0 F.DRX_SPARE_CTRL_CE_THR
    let s1 := bump s .drc (r.val / 2) (rankFld r F.DRC_CE_RANK0 F.DRC_CE_RANK1)
    let times := (mgetD s.dram.ce r []).filter (fun t => s.now < t + ceWindow s)
    let s2 (above : List Nat) : State := { s1 with dram := { s.dram with ce := mset s.dram.ce r (s.now :: times), above := above } }
    (times.length + 1 ≤ thr → exec (.dramCorrectedError r) s = .next (settle (s2 (s.dram.above.filter (· ≠ r.val))))) ∧
    (thr < times.length + 1 → (times.length ≤ thr ∨ s.dram.above.contains r.val = false) → exec (.dramCorrectedError r) s = .next (settle
      (rankFail (raise (blockError (s2 (r.val :: s.dram.above.filter (· ≠ r.val))) .drc (r.val / 2) 2 (r.val % 2) 0 0) .drc (r.val / 2)
        F.DRC_INT_RAW_CE_THR) r))) ∧
    (thr < times.length → s.dram.above.contains r.val = true → exec (.dramCorrectedError r) s = .next (settle (s2 s.dram.above)))) ∧
  (∀ s : State, getF s .drx 0 F.DRX_SPARE_STATE = 1 → rankBytes s ≤ 2 * (s.now - s.dram.copyAt) →
    let s2 := setRank (setRank s (failedRank s) 4) (spareRank s) 1
    exec .spareCopyDone s = .next (settle (raise (setF (setF s2 .drx 0 F.DRX_COPY_PTR_PIECES (rankBytes s / 4096)) .drx 0
      F.DRX_SPARE_STATE 2) .drx 0 F.DRX_INT_RAW_SPARE_DONE))) ∧
  (∀ (r : Fin 16) (a : Nat) (c : DramContent) (replaced : Bool) (s : State), reached s r a = true →
    let s1 := raise (blockError (bump s .drc (r.val / 2) (rankFld r F.DRC_UE_RANK0 F.DRC_UE_RANK1)) .drc (r.val / 2) 1 (r.val % 2)
      (a % 2 ^ 32) (a / 2 ^ 32)) .drc (r.val / 2) F.DRC_INT_RAW_UE
    let addr := insvcAddr s r a; let m := mccLost addr s1
    exec (.dramUe r a c replaced) s = .next (settle (rankFail (if m.1 || replaced then m.2
      else lostLine c addr (raise (blockError (bump m.2 .drx 0 c.count) .drx 0 2 c.row (addr % 2 ^ 32) (addr / 2 ^ 32)) .drx 0
        F.DRX_INT_RAW_LOST)) r)))

/-- An uncorrectable byte of a sealed memory takes a part reset of kind SEALED that names memory and offset. While
PERIOD_H is not 0 the patrol reads the next byte of a memory, which in MRAM is the one at POS, and POS moves on by 1
modulo 128 MiB. Outside the test window a good byte changes nothing, one with a single error is corrected, counted for
its memory, reported with cause 0x01 and raises CE, and an uncorrectable one takes the reset. A byte of the window has
no error, one that is corrected, or one that takes the reset, as 0, 1 or more of its check bits are inverted.
(14_memories_buffers_dram.md R552, R554–R556; 19_faults_and_resets.md R678, R679.) -/
def Obligations.SealedMemoriesComplete : Prop :=
  ∀ (m : Fin 7) (off : Nat) (s : State),
    exec (.sealedUe m off) s = .next (settle (partReset 4 m off 0 s)) ∧
    (getF s .sea 0 F.SEA_SCRUB_CTRL_PERIOD_H ≠ 0 →
      let pos := getF s .sea 0 F.SEA_SCRUB_STAT_POS
      let o := if m.val = 0 then pos else off
      let s1 := if m.val = 0 then setF s .sea 0 F.SEA_SCRUB_STAT_POS ((pos + 1) % 0x08000000) else s
      let base := if m.val = 0 then 0x07F00000 else sealedSize m
      let reads (r : ReadFinds) (u : State) : State := match r with
        | .good => u
        | .corrected => raise (blockError (bump u .sea 0 (ceFld m)) .sea 0 1 m o 0) .sea 0 F.SEA_INT_RAW_CE
        | .uncorrectable => partReset 4 m o 0 u
      (o < base ∨ base + 64 ≤ o → ∀ r, exec (.scrubRead m off r) s = .next (settle (reads r s1))) ∧
      (base ≤ o → o < base + 64 → ∀ r, let b := winAt s m (o - base)
        (b.flips = 0 → exec (.scrubRead m off r) s = .next (settle (setWin s1 m (o - base) b))) ∧
        (b.flips = 1 → exec (.scrubRead m off r) s = .next (settle (reads .corrected (setWin s1 m (o - base) { b with flips := 0 })))) ∧
        (2 ≤ b.flips → exec (.scrubRead m off r) s = .next (settle (reads .uncorrectable (setWin s1 m (o - base) b))))))

/-- A Connect by a connection that is ready and belongs to no controller yet, in RUN or SERVICE with fabrics commands
taken. To the discovery controller on its service it gives an admin queue. To MF or a tenant: with the CNTLID of the
subsystem, a tenant that is in use and served, the interface a management one for MF and one of the tenant's
otherwise, an allowed host and the TLS and the secret the tenant asks for (that the TLS key be the tenant's own, log
164, is the model's reading), an admin queue of 2 to 32 entries finds no association or one whose admin connection is
lost and whose host is the same, and an I/O queue of 2 to 1,024 entries has a number within the grant that is not in
use and the host of the association. The queue is created, the command counted in ADMITTED and answered with the
CNTLID; an admin queue makes the association with its keep-alive timeout rounded up to 100 ms, and keeps how far that
host's authentication had come. Where a check fails the command is refused with that check's status and nothing is
created. Disconnect of a queue whose controller has no authentication outstanding completes, and the connection is
lost. A keep-alive timeout that has passed resets the controller. (03_ethernet_transport.md R111, R121–R123, R125,
R127, R136; 05_tenant_functions.md R215.) -/
def Obligations.ConnectCompletes : Prop :=
  ∀ (q : Capsule) (c : Conn) (s : State), connOf s q.conn = some c → PduGood s q → s.fwHold = none → (∀ h ∈ s.held, h.1 ≠ q.conn) →
    (s.mode = .run ∨ s.mode = .service) → s.plRun = none → s.pwr.entry = none → q.reserved = false → q.unknown = false →
    (∀ d : ConnectData, c.ready = true → c.fn = none →
      let t := tenant s d.subsys; let k := ctrl s d.subsys
      let joined : State := setConn s q.conn { c with fn := some d.subsys, qid := d.qid, hostNqn := d.hostNqn, sqsize := d.sqsize, recvBufs := d.sqsize + 2 }
      let reach : Prop := d.cntlid = d.subsys + 1 ∧
        (d.subsys < 512 → s.mode ≠ .service ∧ t.state ≠ .free ∧ t.state ≠ .removing ∧ (ifAt s c.ifIdx).mgmt = false ∧
          t.par.ifMask / 2 ^ c.ifIdx % 2 = 1 ∧ d.hostNqn ≠ 0 ∧ t.par.allow.contains d.hostNqn = true ∧
          (t.par.flags % 2 = 1 → c.tls.isSome = true ∧ ∃ i, c.hello = some i ∧ (mget t.psk i).isSome = true) ∧
          (t.par.flags / 2 % 2 = 1 → t.secrets.any (fun p => p.1 = d.hostNqn) = true)) ∧
        (d.subsys = 512 → (ifAt s c.ifIdx).mgmt = true)
      (d.subsys = 513 → c.disc = true → d.qid = 0 → exec (.connect q d) s = .next (settle (postOk
        (setConn (fabricsIn s) q.conn { c with fn := some 513, hostNqn := d.hostNqn, recvBufs := d.sqsize + 2 }) q.conn q.cid 0 []))) ∧
      (d.subsys ≤ 512 → c.disc = false → reach →
        (d.qid = 0 → (∀ a, k.assoc = some a → a.conn = none ∧ a.hostNqn = d.hostNqn ∧ a.hostId = d.hostId) → 1 ≤ d.sqsize → d.sqsize ≤ 31 →
          exec (.connect q d) s = .next (settle (postOk (fabricsIn (setCtrl joined d.subsys
            { k with assoc := some { conn := some q.conn, hostNqn := d.hostNqn, hostId := d.hostId, kato := ceilDiv d.kato 100 * 100, kaAt := s.now,
                                     authStep := k.assoc.elim 0 (·.authStep), authDone := k.assoc.elim false (·.authDone), lostAt := none } })) q.conn q.cid (d.subsys + 1) []))) ∧
        (d.qid ≠ 0 → d.subsys < 512 → d.qid ≤ t.par.ioqGrant → 1 ≤ d.sqsize → d.sqsize ≤ 1023 → mget k.ioqs d.qid = none →
          (∃ a, k.assoc = some a ∧ a.conn.isSome = true ∧ a.hostNqn = d.hostNqn ∧ a.hostId = d.hostId) →
          exec (.connect q d) s = .next (settle (postOk (fabricsIn (setCtrl joined d.subsys
            { k with ioqs := mset k.ioqs d.qid q.conn })) q.conn q.cid (d.subsys + 1) [])))) ∧
      (∀ st, d.subsys ≤ 512 → c.disc = false → connectCheck s c d = some st → exec (.connect q d) s = .next (settle (refuse s q st 0)))) ∧
    (∀ f, c.fn = some f → f < 513 → (s.mode = .service → f = 512) → (adminFn s q.conn = some f → AdminTurn s f) → authMissing s f = false →
      exec (.disconnect q) s = .next (settle (connLost (postOk (fabricsIn s) q.conn q.cid 0 []) q.conn))) ∧
    (∀ f a, (ctrl s f).assoc = some a → a.kato ≠ 0 → a.since + a.kato * 1000000 ≤ s.now →
      exec (.keepAliveTimeout f) s = .next (settle (ctrlReset s f true true)))

/-- Properties. A get of CAP, VS, CC or CSTS answers its value (the high dword of CAP is not stated). A set of CC that
clears EN begins the reset; one with a shutdown code makes CSTS.SHST read 0b01 and asks for the shutdown; any other
sets CC, and RDY as EN, and on setting EN clears SHST. CC_EN_CLEAR begins the reset: the controller's commands that
are not dispatched, its event requests and its waiting admin commands are dropped and its reads stop. CC_SHUTDOWN
writes its value with the shutdown code 1 where it has 0. Once no command of a controller in reset is left, the reset
takes effect. Authentication, on an association. A negotiation without secure channel concatenation that offers a hash
function and a DH group the part supports agrees on the first of each (the model's choice, log 165) and, with a secret
for the host, waits for the challenge, else for the failure; any other goes to the failure. The challenge, once
negotiated, is a random value with what was agreed on. A reply to the challenge that is right goes to the success
message, with the host's own challenge kept, and one that is wrong to the failure. The success message ends a
unidirectional exchange with success and carries the response to the host's challenge in a bidirectional one, which
the host's success message ends. A failure message, or the controller's, ends the association.
(03_ethernet_transport.md R140; 04_commands_and_ordering.md R158, R185, R187; 12_sorrel_keys_cipher.md R475.) -/
def Obligations.PropertiesComplete : Prop :=
  (∀ (q : Capsule) (f : Nat) (s : State), Ready s q f → f ≤ 512 → let s1 := served s f; let k := ctrl s1 f; let ok := postOk s1 q.conn q.cid 0 []
    let get (lo hi : Nat) : Host.Outcome State Fault Refusal := .next (settle (post s1 q.conn q.cid stOk lo hi []))
    let cleared : State := stopReads (dropCmds (dropAdmin (setCtrl ok f { k with cc := k.cc - k.cc % 2, resetting := true }) f) (fun c => c.fn = f)) f
    let shut (v : Nat) : State := setCtrl ok f { k with cc := v % 2 ^ 32, shst := 1, shutdown := true }
    (q.dw11 = 0x00 → exec (.propertyGet q) s = get (1023 + 2 ^ 16 + 4 * 2 ^ 24) (Config.freeWord 0).toNat) ∧
    (q.dw11 = 0x08 → exec (.propertyGet q) s = get 0x00020000 0) ∧
    (q.dw11 = 0x14 → exec (.propertyGet q) s = get k.cc 0) ∧
    (q.dw11 = 0x1C → exec (.propertyGet q) s = get (k.rdy.toNat + k.shst * 4) 0) ∧
    (q.dw11 = 0x14 → let clears : Prop := k.cc % 2 = 1 ∧ q.dw12 % 2 = 0
      (clears → exec (.propertySet q) s = .next (settle cleared)) ∧
      (¬ clears → bitsOf q.dw12 15 14 ≠ 0 → exec (.propertySet q) s = .next (settle (shut q.dw12))) ∧
      (¬ clears → bitsOf q.dw12 15 14 = 0 → exec (.propertySet q) s = .next (settle (setCtrl ok f
        { k with cc := q.dw12 % 2 ^ 32, rdy := q.dw12 % 2 = 1, shst := if q.dw12 % 2 = 1 ∧ k.cc % 2 = 0 then 0 else k.shst })))) ∧
    exec (.ccEnClear q) s = .next (settle cleared) ∧
    exec (.ccShutdown q) s = .next (settle (shut (putBits q.dw12 15 14 (max 1 (bitsOf q.dw12 15 14)))))) ∧
  (∀ (f : Nat) (s : State), (ctrl s f).resetting = true → (∀ p ∈ s.cmds, p.2.fn ≠ f) →
    exec (.controllerResetDone f) s = .next (settle (ctrlReset s f false false))) ∧
  (∀ (q : Capsule) (f : Nat) (s : State), AuthReady s q f → f ≤ 512 → let s1 := served s f; let k := ctrl s1 f;
    ∀ a, k.assoc = some a →
      let put (b : Assoc) : State := setCtrl s1 f { k with assoc := some b }
      let ok (u : State) : State := postOk u q.conn q.cid 0 []
      (∀ hashes groups h g, hashes.find? ([1, 2, 3].contains ·) = some h → groups.find? ([0, 1, 2, 3].contains ·) = some g →
        exec (.authenticationSend q (.negotiate hashes groups false)) s = .next (settle (ok (put
          { a with authHash := h, authDh := g, authStep := if hasSecret s1 f then 1 else 9, authDone := false })))) ∧
      (∀ hashes groups secure, secure = true ∨ hashes.find? ([1, 2, 3].contains ·) = none ∨ groups.find? ([0, 1, 2, 3].contains ·) = none →
        exec (.authenticationSend q (.negotiate hashes groups secure)) s = .next (settle (ok (put { a with authStep := 9, authDone := false })))) ∧
      (∀ good ch, a.authStep = 2 → exec (.authenticationSend q (.reply good ch)) s = .next (settle (ok (put
        { a with authStep := if good then 3 else 9, authDone := false, authChallenge := ch })))) ∧
      (a.authDone = true ∨ (a.authStep = 4 ∧ a.authChallenge.isSome = true) → exec (.authenticationSend q .success) s = .next (settle (ok (put
        { a with authStep := 4, authDone := true })))) ∧
      exec (.authenticationSend q .failure) s = .next (settle (endAssoc (ok s1) f)) ∧
      (a.authStep = 1 → exec (.authenticationReceive q) s = .next (settle (postOk
        { put { a with authStep := 2, authDone := false } with free := s1.free + 1 }
        q.conn q.cid 0 [a.authHash, a.authDh, (Config.freeRandom s1.free).toNat]))) ∧
      (a.authStep = 3 → exec (.authenticationReceive q) s = .next (settle (postOk
        (put { a with authStep := 4, authDone := a.authChallenge.isNone }) q.conn q.cid 0
        (match a.authChallenge with
          | some c => [Config.chap (mgetD (tenant s1 f).secrets a.hostNqn 0) [a.authHash, a.authDh, c]]
          | none => [])))) ∧
      (a.authStep = 9 → exec (.authenticationReceive q) s = .next (settle (endAssoc (ok s1) f))))

/-- The other commands of a controller. Keep Alive completes. The discovery log, asked of the discovery controller
with a length of at most 2 MiB that the buffer holds and an offset within the page, is answered. A feature that may be
set is the one got: Number of Queues is the grant, the keep-alive timeout is rounded up to 100 ms and its timer
restarts, a host identifier is kept in the length that EXHID says, and any other feature is its dword 11. An
Asynchronous Event Request completes with the oldest event waiting, or is held where none waits and fewer than 4 are
held. (03_ethernet_transport.md R123, R127; 04_commands_and_ordering.md R158, R159.) -/
def Obligations.ControllersComplete : Prop :=
  ∀ (q : Capsule) (f : Nat) (s : State), Ready s q f →
    let s1 := served s f; let k := ctrl s1 f; let fid := bitsOf q.dw10 7 0
    let ok (u : State) (v : Nat) : State := postOk u q.conn q.cid v []
    (OnlyBits q [0, 0, 0, 0, 0, 0] → exec (.keepAlive q) s = .next (settle (ok (bump (touch s f) .cfe 0 F.CFE_ADMITTED) 0))) ∧
    (f = 513 → OnlyBits q logMasks → logLid q = 0x70 → logLen q ≤ 2097152 → logLen q ≤ q.len →
      let p := discoveryPage s1 ((connOf s1 q.conn).elim 0 (·.hostNqn))
      logOff q ≤ p.len → exec (.discoveryGetLogPage q) s = .next (settle (postOk { s1 with free := s1.free + 1 } q.conn q.cid 0
        (pageBytes p (65536 + s1.free) (logOff q) (logLen q))))) ∧
    (f ≤ 512 → OnlyBits q [0x800000FF, 0xFFFFFFFF, 0xFFFFFFFF, 0xFFFFFFFF, 0x7F, 0xFFFFFFFF] → bitsOf q.dw10 31 31 = 0 → ∀ hostId,
      (fid = 0x07 → exec (.setFeatures ⟨q, hostId⟩) s = .next (settle (ok s1 (queuesValue s1 f)))) ∧
      (fid = 0x0F → exec (.setFeatures ⟨q, hostId⟩) s = .next (settle (ok (setCtrl s1 f { k with assoc := k.assoc.map (fun a =>
        { a with kato := ceilDiv q.dw11 100 * 100, kaAt := s1.now }) }) 0))) ∧
      (fid = 0x81 → hostIdLen q ≤ q.len → exec (.setFeatures ⟨q, hostId⟩) s = .next (settle (ok (setCtrl s1 f
        { k with hostId := some (hostId % 2 ^ (8 * hostIdLen q)) }) 0))) ∧
      (fid = 0x01 ∨ fid = 0x0B → exec (.setFeatures ⟨q, hostId⟩) s = .next (settle (ok (setCtrl s1 f { k with feats := mset k.feats fid q.dw11 }) 0)))) ∧
    (f ≤ 512 → OnlyBits q [0x7FF, 0xFFFFFFFF, 0, 0, 0x7F, 0] →
      (fid = 0x07 → exec (.getFeatures q) s = .next (settle (ok s1 (queuesValue s1 f)))) ∧
      (fid = 0x0F → exec (.getFeatures q) s = .next (settle (ok s1 (match k.assoc with | some a => a.kato | none => 0)))) ∧
      (fid = 0x81 → hostIdLen q ≤ q.len → exec (.getFeatures q) s = .next (settle (postOk s1 q.conn q.cid 0 (leBytes (hostIdLen q) (hostIdOf s1 f))))) ∧
      (fid = 0x01 ∨ fid = 0x0B → exec (.getFeatures q) s = .next (settle (ok s1 (mgetD k.feats fid 0))))) ∧
    (f ≤ 512 → OnlyBits q [0, 0, 0, 0, 0, 0] → k.aers.length < 4 →
      (k.events = [] → exec (.asynchronousEventRequest q) s = .next (settle (setCtrl s1 f { k with aers := k.aers ++ [(q.conn, q.cid)] }))) ∧
      (∀ e t, k.events = e :: t → exec (.asynchronousEventRequest q) s = .next (settle (ok (setCtrl s1 f { k with events := t }) e))))

/-- A Zone Management Send that passes the checks and is not held, with no other I/O command in the part. Of one zone:
Open makes the zone Explicitly Opened and the command is ready to complete. Close makes an open zone Closed, or Empty
at its start, and programs its partial unit with filler (the model's reading, log 168); a zone that is not open stays.
Finish, Reset and Offline stage a ZONE record with the zone's epoch (Reset the next one, and at the last one the event
that makes the zone Read Only) and its event, and wait for it; the change of the zone follows the record. Finish of a
Full zone, Reset of an Empty one and Offline of an Offline one leave it as it is and are ready to complete. With
Select All set, each of the five acts on the zones its selection names (dispatchZone). (06_zones_and_placement.md
R243, R244, R246, R248, R250; 08_map_durability.md R338.) -/
def Obligations.ZoneActionsComplete : Prop :=
  ∀ (q : Capsule) (f slot : Nat) (n : Ns) (s : State), IoReady s q f slot n → n.zoned = true →
    let k := cmdKey s; let at' := q.dw10 + q.dw11 * 2 ^ 32; let z := at' / zoneSize n; let x := zoneOf n z
    let cmd (act : Nat) (all : Bool) : Cmd := ioCmd s q f slot n (.zmSend act all) at' 0 false [] []
    let ends (r u : State) : State := if jCount u = jCount r then finishCmd u k stOk 0 0
      else modCmd u k (fun c => { c with phase := .dispatched, recNo := jCount u, dw0 := 0 })
    let staged (r : State) (rec : JRec) (act : JAct) : State := let u := jStage r [rec]
      { u with jr := { u.jr with acts := u.jr.acts ++ [(jCount u, act)] } }
    (bitsOf q.dw13 8 8 = 0 →
      (Passes s (cmd 3 false) → ∃ a, exec (.zoneOpen q) s = .next (settle (afterDispatch
        (finishCmd (setZone (admitted s (cmd 3 false) a) slot z { x with state := .explicit }) k stOk 0 0)))) ∧
      (Passes s (cmd 1 false) → ∃ a, let r := admitted s (cmd 1 false) a
        exec (.zoneClose q) s = .next (settle (afterDispatch (ends r (if x.state.isOpen then
          forceUnits (setZone r slot z { x with state := if x.wp = 0 then .empty else .closed }) (partialOf r slot n z) else r))))) ∧
      (Passes s (cmd 2 false) → ∃ a, let r := admitted s (cmd 2 false) a
        exec (.zoneFinish q) s = .next (settle (afterDispatch (ends r (if x.state = .full then r else
          staged r (.zone slot z x.epoch 2) (.zoneFinish slot z)))))) ∧
      (Passes s (cmd 4 false) → ∃ a, let r := admitted s (cmd 4 false) a
        exec (.zoneReset q) s = .next (settle (afterDispatch (ends r (if x.state = .empty then r
          else if x.epoch + 1 = 0xFFFFFFFF then staged r (.zone slot z (x.epoch + 1) 4) (.zoneReadOnly slot z)
          else staged r (.zone slot z (x.epoch + 1) 1) (.zoneReset slot z)))))) ∧
      (Passes s (cmd 5 false) → ∃ a, let r := admitted s (cmd 5 false) a
        exec (.zoneOffline q) s = .next (settle (afterDispatch (ends r (if x.state = .offline then r else
          staged r (.zone slot z x.epoch 3) (.zoneOffline slot z))))))) ∧
    (bitsOf q.dw13 8 8 = 1 →
      let done' (i : Instr) (act : Nat) : Prop := Passes s (cmd act true) → ∃ a, exec i s = .next (settle (afterDispatch
        (dispatchZone (admitted s (cmd act true) a) k slot n (asAdmitted s (cmd act true) a) act true)))
      done' (.zoneOpen q) 3 ∧ done' (.zoneClose q) 1 ∧ done' (.zoneFinish q) 2 ∧ done' (.zoneReset q) 4 ∧ done' (.zoneOffline q) 5)

/-- A command that passes the checks and is not held, with no other I/O command in the part. A Read takes its map
lookups, sector by sector in order, each sector read from where it is found. A Flush, of one namespace or of all of
the tenant's, has the units that hold acknowledged data of what it names programmed, and waits for them. A Deallocate
unmaps its ranges, each under a write sequence of its own, and waits for their DEALLOC and SEQ records; a Dataset
Management without Deallocate is ready to complete. Report Zones is ready to complete with its report.
(04_commands_and_ordering.md R160, R165, R171; 06_zones_and_placement.md R241; 07_translation_and_wear.md R294.) -/
def Obligations.ReadsAndDeallocationsComplete : Prop :=
  ∀ (q : Capsule) (f slot : Nat) (n : Ns) (s : State),
    (∀ bad corr, let s0 := addBad .mcc bad (bumpBy s .bas 0 F.BAS_ECC_CORR corr); let nlb := bitsOf q.dw12 15 0 + 1
      let c := ioCmd s0 q f slot n .read (q.dw10 + q.dw11 * 2 ^ 32) nlb false [] [];
      IoReady s0 q f slot n → Passes s0 c → ∃ a, exec (.read q bad corr) s = .next (settle (afterDispatch
        ((List.range nlb).foldl (readOff (cmdKey s0) (asAdmitted s0 c a) slot n)
          (modCmd (admitted s0 c a) (cmdKey s0) (fun c => { c with phase := .dispatched, left := List.range nlb })))))) ∧
    (IoServed s q f → q.nsid = 0xFFFFFFFF → nsSlot s f q.nsid = none →
      let c := { ioCmd s q f slot n .flush 0 0 false [] [] with nsk := none, cls := 0 };
      Passes s c → ∃ a, let r := admitted s c a; let us := ackedUnits r ((r.nss.filter (fun p => p.2.tenant = f)).map Prod.fst);
        exec (.flush q) s = .next (settle (afterDispatch (modCmd (forceUnits r us) (cmdKey s)
          (fun c => { c with phase := .dispatched, units := us, dw0 := 0 }))))) ∧
    (IoReady s q f slot n → let k := cmdKey s;
      (let c := ioCmd s q f slot n .flush 0 0 false [] [];
        Passes s c → ∃ a, let r := admitted s c a; exec (.flush q) s = .next (settle (afterDispatch
          (modCmd (forceUnits r (ackedUnits r [slot])) k (fun c => { c with phase := .dispatched, units := ackedUnits r [slot], dw0 := 0 }))))) ∧
      (∀ ranges, let rs := ranges.take (bitsOf q.dw10 7 0 + 1); let c := ioCmd s q f slot n .dsm 0 0 false [] rs;
        n.zoned = false → Passes s c → ∃ a, let r := admitted s c a; let d := deallocAll r slot n.wseq.next rs;
          (bitsOf q.dw11 2 2 = 1 → exec (.datasetManagement q ranges) s = .next (settle (afterDispatch
            (modCmd d k (fun c => { c with phase := .dispatched, recNo := jCount d, dw0 := 0 }))))) ∧
          (bitsOf q.dw11 2 2 = 0 → exec (.datasetManagement q ranges) s = .next (settle (afterDispatch (finishCmd r k stOk 0 0))))) ∧
      (let c := ioCmd s q f slot n .zmRecv (q.dw10 + q.dw11 * 2 ^ 32) 0 false [] [];
        n.zoned = true → Passes s c → ∃ a, exec (.reportZones q) s = .next (settle (afterDispatch
          (dispatchReport (admitted s c a) k n (asAdmitted s c a))))))

/-- A write that passes the checks and is not held, with no other I/O command in the part. In a zone a Write or Write
Zeroes that starts at the write pointer and stays within the zone, and a Zone Append that does, placed at the write
pointer, move the pointer past themselves and open or fill the zone; one that leaves the zone ends with Zone Boundary
Error, and one that starts elsewhere with Zone Invalid Write, which is counted. In both kinds of namespace the sectors
are encrypted and staged, and the command waits for its acknowledgement (dispatchProgram); a Zone Append's entry names
its first sector. Write Zeroes with DEAC in a conventional namespace deallocates. (06_zones_and_placement.md R245,
R254–R258; 07_translation_and_wear.md R293, R294.) -/
def Obligations.WritesComplete : Prop :=
  ∀ (q : Capsule) (f slot : Nat) (n : Ns) (s0 : State) (data : List Nat) (corr : Nat), let s := bumpBy s0 .bas 0 F.BAS_ECC_CORR corr
    IoReady s q f slot n → let at' := q.dw10 + q.dw11 * 2 ^ 32; let nlb := bitsOf q.dw12 15 0 + 1; let fua : Bool := bitsOf q.dw12 30 30 = 1
    let k := cmdKey s; let z := at' / zoneSize n; let x := zoneOf n z
    let zone (wp : Nat) : Zone :=
      { x with wp := wp, state := if wp = zoneSize n then .full else if x.state.isOpen then x.state else .implicit }
    let fails (i : Instr) (s0 : State) (r : State) (st : Status) : Prop := exec i s0 = .next (settle (afterDispatch (finishCmd r k st 0 0)))
    let takes (i : Instr) (s0 : State) (c : Cmd) (off dw0 dw1 : Nat) : Prop := Passes s c → ∃ a, let r := admitted s c a;
      (n.zoned = true →
        (zoneSize n < off + nlb → fails i s0 r stZoneBoundary) ∧
        (off + nlb ≤ zoneSize n → off ≠ x.wp → fails i s0 (bump r .zne 0 F.ZNE_ZIW) stZoneInvalidWrite) ∧
        (off + nlb ≤ zoneSize n → off = x.wp → let u := setZone r slot z (zone (off + nlb))
          ∃ n', nsAt u slot = some n' ∧ exec i s0 = .next (settle (afterDispatch
            (dispatchProgram u k (asAdmitted s c a) slot n' (z * zoneSize n + off) dw0 dw1))))) ∧
      (n.zoned = false → ∃ n', nsAt r slot = some n' ∧ exec i s0 = .next (settle (afterDispatch
        (dispatchProgram r k (asAdmitted s c a) slot n' at' 0 0))))
    takes (.write q data corr) s0 (ioCmd s q f slot n .write at' nlb fua data []) (at' % zoneSize n) 0 0 ∧
    (n.zoned = true ∨ bitsOf q.dw12 25 25 = 0 →
      takes (.writeZeroes q) s (ioCmd s q f slot n (.writeZeroes (bitsOf q.dw12 25 25 = 1)) at' nlb fua [] []) (at' % zoneSize n) 0 0) ∧
    (n.zoned = false → bitsOf q.dw12 25 25 = 1 → let c := ioCmd s q f slot n (.writeZeroes true) at' nlb fua [] [];
      Passes s c → ∃ a, let d := deallocAll (admitted s c a) slot n.wseq.next [(at', nlb)];
        exec (.writeZeroes q) s = .next (settle (afterDispatch
          (modCmd d k (fun c => { c with phase := .dispatched, recNo := jCount d, dw0 := 0 }))))) ∧
    (n.zoned = true → let alba := z * zoneSize n + x.wp;
      takes (.zoneAppend q data) s (ioCmd s q f slot n .append at' nlb fua data []) x.wp (alba % 2 ^ 32) (alba / 2 ^ 32))

/-- Get Log Page of a page that the function has, of at most 2 MiB, from an offset within the page, into a buffer that
holds it: the bytes asked for are answered, as the fields of the page give them. With Retain Asynchronous Event clear,
reading 0xE0 re-arms the register-interrupt event, reading 0xC0 empties the page and re-arms its event, reading 0xBF
of a zoned namespace that passes the checks on it empties the namespace's list and re-arms its event, and reading 0x02
re-arms the event of the function's critical warnings; bit 0 of the Log Specific Field clears the tenant recorder.
Pages 0x03, 0x81 and the device recorder change nothing. (02_register_pages.md R97, R98; 04_commands_and_ordering.md
R159, R180, R181; 05_tenant_functions.md R233, R234; 06_zones_and_placement.md R743; 18_recorder_and_metering.md
R653.) -/
def Obligations.LogPagesComplete : Prop :=
  ∀ (q : Capsule) (f : Nat) (s : State), Ready s q f → f ≤ 512 → OnlyBits q logMasks → let s1 := served s f
    let lid := bitsOf q.dw10 7 0; let lsp := bitsOf q.dw10 14 8; let lsi := bitsOf q.dw11 31 16
    let len := (bitsOf q.dw10 31 16 + bitsOf q.dw11 15 0 * 65536 + 1) * 4
    let rae : Bool := bitsOf q.dw10 15 15 = 1; let off := q.dw12 % 2 ^ 32 + q.dw13 % 2 ^ 32 * 2 ^ 32; let s2 := { s1 with free := s1.free + 1 }
    let ans (i : Instr) (bytes : Nat) (fields : List (Nat × Nat × Nat)) (rest : Bool) (u : State) : Prop := off ≤ bytes →
      exec i s = .next (settle (postOk u q.conn q.cid 0 (pageBytes ⟨bytes, fields, rest, id⟩ (65536 + s1.free) off len)))
    len ≤ 2097152 → len ≤ q.len →
    (f = fnMF → lid = 0xE0 → ans (.getLogRegInterrupts q) 96 (intFields s1) false
      (if rae then s2 else { s2 with mgmt := { s2.mgmt with aenArmed := true } })) ∧
    (f < 512 → lid = 0xC0 → ans (.getLogDeferredErrors q) 2064 (deferFields (tenant s1 f)) false
      (if rae then s2 else setTenant s2 f { tenant s1 f with defer := [], deferLost := 0, deferArmed := true })) ∧
    (f < 512 → lid = 0xC1 → lsi = 0 → lsp ≤ 1 → ans (.getLogTenantStatus q) 16384 (statusFields s1 f) false
      (if lsp = 1 then trecClear s2 f else s2)) ∧
    (f < 512 → lid = 0xC1 → lsi = 1 → lsp = 0 → ans (.getLogDeviceRecorder q) 1048576 (devFields s1.recd) false s2) ∧
    (∀ k n, f < 512 → lid = 0xBF → nsSlot s1 f q.nsid = some k → nsAt s1 k = some n → n.zoned = true → nsChecks s1 f q.nsid = none →
      ans (.getLogChangedZoneList q) 4096 (changedFields n) false
        (if rae then s2 else modNs s2 k (fun n => { n with changed := [], changedOver := false, noticeArmed := true }))) ∧
    (lid = 0x02 → ans (.getLogPage q) 513 (healthFields s1 f) true (if rae then s2 else setCtrl s2 f { ctrl s1 f with notice := true })) ∧
    (f = fnMF → lid = 0x03 → ans (.getLogPage q) 512 (slotFields s1) true s2) ∧
    (f < 512 → lid = 0x81 → ans (.getLogPage q) 512
      ((if (tenant s1 f).sanitize % 8 = 2 then [] else [(0, 2, 0xFFFF)]) ++ [(2, 2, (tenant s1 f).sanitize)]) true s2) ∧
    (logHas f lid = true → lid = 0x01 ∨ lid = 0x04 ∨ lid = 0x05 → ans (.getLogPage q) 4096 [] true s2)

/-- Identify, into a buffer of 4,096 bytes, answers the structure its CNS names: that of the controller, of a
namespace that passes the checks on it, of its command set, or a list of namespaces. Abort, with fewer than four
outstanding, finds its target among the Asynchronous Event Requests held or the commands of the queue it names: a held
request, or a command before its dispatch point, completes with Command Abort Requested and the Abort is counted as
ABORTED; any other target, or none, leaves it as it is and the Abort is counted as NOT_ABORTED, which bit 0 of its
dword 0 says; its own entry waits for its commit. A completion entry commits: the command leaves the part, its entry
goes out or, where the TLS record numbers do not suffice, is counted as discarded, its times are accounted, and what
it held lets others in. Buckets that refill let waiting commands be taken. (04_commands_and_ordering.md R158, R159,
R182–R184, R198; 03_ethernet_transport.md R139; 11_cirrus_latency.md R448.) -/
def Obligations.AdminServiceCompletes : Prop :=
  (∀ (q : Capsule) (f : Nat) (s : State), Ready s q f → f ≤ 512 → let s1 := served s f
    (OnlyBits q [0xFFFF00FF, 0xFF00FFFF, 0, 0, 0x7F, 0] → 4096 ≤ q.len → let cns := bitsOf q.dw10 7 0; let csi := bitsOf q.dw11 31 24
      let opens (fs : List (Nat × Nat × Nat)) : Prop := exec (.identify q) s = .next (settle (postOk s1 q.conn q.cid 0 (overlay 4096 (1024 + cns) fs)))
      let list (l : List Nat) : Prop := exec (.identify q) s = .next (settle (postOk s1 q.conn q.cid 0 (zeroOverlay 4096 (idList l))))
      (cns = 0x01 → opens (identifyCtrl s1 f)) ∧
      (cns = 0x02 → list (nsidsAbove s1 f q.nsid none)) ∧
      (cns = 0x06 → opens (if csi = 2 then [(0, 1, 7)] else [])) ∧
      (cns = 0x07 → list (nsidsAbove s1 f q.nsid (some csi))) ∧
      (cns = 0x1C → opens [(0, 8, 1), (8, 8, 5)]) ∧
      (∀ k n, f < 512 → nsSlot s1 f q.nsid = some k → nsAt s1 k = some n → nsChecks s1 f q.nsid = none →
        (cns = 0x00 → opens (identifyNs n)) ∧
        (cns = 0x03 → opens [(0, 1, 4), (1, 1, 1), (4, 1, if n.zoned then 2 else 0)]) ∧
        (cns = 0x05 → opens (if n.zoned ∧ csi = 2 then identifyZns s1 n else [])))) ∧
    (OnlyBits q [0xFFFFFFFF, 0, 0, 0, 0, 0] → (s1.cmds.filter (fun c => c.2.fn = f && c.2.op = .abort)).length < 4 →
      let sqid := bitsOf q.dw10 15 0; let cid := bitsOf q.dw10 31 16
      let target := (mget (ctrl s1 f).ioqs sqid).bind (fun id => s1.cmds.find? (fun c => c.2.conn = id && c.2.cid = cid))
      let ends (aborted : Bool) (u : State) : Prop :=
        let v := bump u .cfe 0 (if aborted then F.CFE_ABORTS_ABORTED else F.CFE_ABORTS_NOT_ABORTED)
        exec (.abort q) s = .next (settle { v with
          nextCmd := v.nextCmd + 1, cmds := mset v.cmds v.nextCmd
            { conn := q.conn, cid := q.cid, fn := f, nsid := 0, nsk := none, op := .abort, slba := 0, nlb := 0, fua := false,
              cls := 0, life := 0, group := 0, reserved := false, len := 0, keyed := 0, dwords := [], phase := .ready,
              arrived := u.now, admitted := u.now, dw0 := (!aborted).toNat } })
      (sqid = 0 →
        (∀ a, (ctrl s1 f).aers.find? (fun a => a.2 = cid) = some a → ends true
          (postSt (modCtrl s1 f (fun k => { k with aers := k.aers.filter (· ≠ a) })) a.1 a.2 stAbortRequested)) ∧
        ((ctrl s1 f).aers.find? (fun a => a.2 = cid) = none → ends false s1)) ∧
      (sqid ≠ 0 →
        (∀ k c, target = some (k, c) → c.past = false → ends true (pump (postSt (delCmd s1 k) c.conn c.cid stAbortRequested))) ∧
        (∀ k c, target = some (k, c) → c.past = true → ends false s1) ∧
        (target = none → ends false s1)))) ∧
  (∀ (conn cid k : Nat) (c : Cmd) (s : State), s.plRun = none →
    s.cmds.find? (fun p => p.2.conn = conn && p.2.cid = cid && p.2.phase = .ready) = some (k, c) →
    let d := cqeData s c; let u := delCmd d.2 k; let e := postN u c.conn c.cid c.st c.dw0 c.dw1 d.1 (c.dataBytes d.1)
    exec (.completionCommit conn cid) s = .next (settle (pump (account
      (if (connOf u c.conn).any (fun x => !tlsRoom x (c.dataBytes d.1 + 24)) then countDiscards e 1 else e) c)))) ∧
  (∀ s : State, exec .bucketRefill s = .next (settle (pump s)))

/-- The other admin commands. Format NVM that passes its checks starts a crypto-erase of its namespace and waits for
its end. Sanitize that passes its checks starts one of every bound namespace of the tenant and completes; its exit
from failure mode completes. POWER_STATE of 0 to 2 sets the state in force. FAULT_READ of 1 to 8,192 entries within
the log's 8,192, into a buffer that holds them, answers them, and FAULT_READ_CLEAR empties the log with it. The next
queued entry is written to the log under the next sequence number, or with 8,192 entries in it is dropped, counted and
raises FAULT_DROP. DEVICE_RESET completes and then stops the part in order, at once with FORCE; while a Firmware
Commit holds admission both complete with Command Sequence Error. (04_commands_and_ordering.md R161;
12_sorrel_keys_cipher.md R484, R485; 16_power_modes.md R593; 19_faults_and_resets.md R675–R677, R683.) -/
def Obligations.MaintenanceCommandsComplete : Prop :=
  (∀ (q : Capsule) (f : Nat) (s : State), Ready s q f → f < 512 → let s1 := served s f
    (∀ k, OnlyBits q [0x3FFF, 0, 0, 0, 0, 0] → formatChk q f s1 = none → nsSlot s1 f q.nsid = some k → exec (.formatNvm q) s = .next (settle
      (let s2 := eraseStart s1 k .format; { s2 with adminWaits := s2.adminWaits ++ [(q.conn, q.cid, .format k)] }))) ∧
    (OnlyBits q [0x7FF, 0xFFFFFFFF, 0, 0, 0, 0] →
      (sanitizeChk q 4 f s1 = none → let ks := ((tenantNs s1 f).map Prod.fst).filter (fun k => (mget s1.nsKeys k).isSome)
        exec (.sanitizeCryptoErase q) s = .next (settle (postSt (modTenant (ks.foldl (fun s k => eraseStart s k .sanitize) s1) f
          (fun t => { t with sanitize := if ks.isEmpty then 1 else 2 })) q.conn q.cid stOk))) ∧
      (sanitizeChk q 1 f s1 = none → exec (.sanitizeExitFailure q) s = .next (settle (postSt s1 q.conn q.cid stOk))))) ∧
  (∀ (q : Capsule) (s : State), Ready s q fnMF → let s1 := served s fnMF
    (OnlyBits q [0xFFFFFFFF, 0, 0, 0, 0, 0] → q.dw10 < 3 →
      exec (.powerState q) s = .next (settle (postSt (setF s1 .pwr 0 F.PWR_MODE_CTRL_PS q.dw10) q.conn q.cid stOk))) ∧
    (OnlyBits q [0x1FFF, 0x3FFF, 1, 0, 0, 0] → let first := bitsOf q.dw10 12 0; let count := bitsOf q.dw11 13 0
      count ≠ 0 → first + count ≤ 8192 → 64 + 64 * count ≤ q.len →
      let ans := postOk s1 q.conn q.cid 0 (faultData s1 first count)
      exec (.faultRead q) s = .next (settle ans) ∧
      exec (.faultReadClear q) s = .next (settle { ans with flog := { ans.flog with log := [], dropped := 0 } })) ∧
    (OnlyBits q [1, 0, 0, 0, 0, 0] →
      exec (.deviceReset q) s = .next (settle (orderlyStop 7 0 (postSt s1 q.conn q.cid stOk))) ∧
      exec (.deviceResetForce q) s = .next (settle (partReset 7 1 0 0 (postSt s1 q.conn q.cid stOk))))) ∧
  (∀ (q : Capsule) (s : State), Ready { s with fwHold := none } q fnMF → s.fwHold.isSome = true → OnlyBits q [1, 0, 0, 0, 0, 0] →
    let t := postSt (served s fnMF) q.conn q.cid stSequenceError
    exec (.deviceReset q) s = .next (settle t) ∧ exec (.deviceResetForce q) s = .next (settle t)) ∧
  (∀ (e : FaultEntry) (rest : List FaultEntry) (s : State), s.flog.queue = e :: rest → let s1 := { s with flog := { s.flog with queue := rest } }
    (s.flog.log.length < 8192 → exec .faultLogWrite s = .next (settle { s1 with flog := { s1.flog with
      log := s.flog.log ++ [{ e with seq := s.flog.nextSeq }], nextSeq := s.flog.nextSeq + 1 } })) ∧
    (8192 ≤ s.flog.log.length → exec .faultLogWrite s = .next (settle (raise (bump { s1 with flog := { s1.flog with
      dropped := min 0xFFFFFFFF (s.flog.dropped + 1) } } .dir 0 F.DIR_FAULT_OVF) .dir 0 F.DIR_INT_RAW_FAULT_DROP))))

/-- MF's commands on a tenant, with their data in a buffer that holds it. TENANT_CREATE of a FREE tenant with a good
block makes it ACTIVE with the block's parameters and version 1, a cleared recorder and QUIESCE 0. TENANT_MODIFY with
a good block replaces the parameters and raises the version, when the change needs no quiesce or the tenant is
quiesced (its buckets keep their levels, and metering that is turned on begins a minute), and otherwise is reported
with cause 3 and completes with Command Sequence Error. TENANT_RESET and TENANT_REMOVE of a quiesced tenant without a
migration end its connections, a removal its keys too, and complete later; of a tenant that is not quiesced they are
reported and complete with Tenant Not Quiesced. A credential blob that opens under the tenant's key, names the tenant
and is in range is installed in its list and in its record. CONFIG_SAVE commits the interface table and the registers
it names. When the commands that a quiesce waited for have left the part, the tenant is QUIESCED and its bit is
raised. (05_tenant_functions.md R209, R211–R215, R220, R226–R229; 12_sorrel_keys_cipher.md R473, R474.) -/
def Obligations.TenantCommandsComplete : Prop :=
  (∀ (q : Capsule) (s : State), Ready s q fnMF → let s1 := served s fnMF; let t := bitsOf q.dw10 8 0; let x := tenant s1 t
    let ok (u : State) : State := postSt u q.conn q.cid stOk
    let ends (u : State) (st : TState) (f : Tenant → Tenant) : State := modTenant (connsLost u (connsOf u t)) t (fun x =>
      f { x with state := st, cmd := some (q.conn, q.cid) })
    (OnlyBits q [0x1FF, 0, 0, 0, 0, 0] →
      (∀ b, x.state = .free → 4096 ≤ q.len → tenantBlockBad s1 t b false = none → exec (.tenantCreate q b) s = .next (settle (ok
        (setF (trecClear (setTenant s1 t { state := .active, par := tenantPar b, ver := 1 }) t) .tf t F.TF_CTRL_QUIESCE 0)))) ∧
      (x.state ≠ .free →
        (∀ b, 4096 ≤ q.len → tenantBlockBad s1 t b true = none →
          (needsQuiesce x.par (tenantPar b) = false ∨ x.quiesced = true →
            let s2 := modTenant (rebaseTenant s1 t) t (fun x => { x with par := tenantPar b, ver := (x.ver + 1) % 2 ^ 32 })
            exec (.tenantModify q b) s = .next (settle (pump (ok (if meterEn (tenant s2 t) && !meterEn x then
              modAcc s2 t (fun a => { ({} : MtrAcc) with timeSet := a.timeSet }) else s2))))) ∧
          (needsQuiesce x.par (tenantPar b) = true → x.quiesced = false →
            exec (.tenantModify q b) s = .next (settle (postSt (tfError s1 t 3 q.cid) q.conn q.cid stSequenceError)))) ∧
        (x.state = .quiesced → x.quiesced = true → (migOf s1 t).logs = false →
          exec (.tenantReset q) s = .next (settle (ends (if (ctrl s1 t).resetting then ctrlReset s1 t false false else s1) .resetting id)) ∧
          exec (.tenantRemove q) s = .next (settle (endKeys (ends s1 .removing (fun x => { x with removeStep := 1 })) t))) ∧
        (x.state ≠ .quiesced ∨ x.quiesced = false →
          exec (.tenantReset q) s = .next (settle (post (tfError s1 t 1 q.cid) q.conn q.cid stNotQuiesced t 0 [])) ∧
          exec (.tenantRemove q) s = .next (settle (post (tfError s1 t 2 q.cid) q.conn q.cid stNotQuiesced t 0 []))) ∧
        (∀ data e sec m, let b := fitBytes 368 data
          368 ≤ q.len → x.enroll = some e → credOpen (kWrap t e) b = some sec → credTenant b = t → credOk b = true →
          putCred (if credKind b = 1 then x.psk else x.secrets) b sec = some m →
          let y := if credKind b = 1 then { x with psk := m } else { x with secrets := m }
          exec (.tenantCred q data) s = .next (settle (ok (setTenant (recPut s1 (credRec t) (.creds y.psk y.secrets)) t y)))))) ∧
    (OnlyBits q [0, 0, 0, 0, 0, 0] → exec (.configSave q) s = .next (settle (ok { s1 with
      savedIfs := s1.ifs,
      savedRegs := savedWords.foldl (fun m w => mset m (pageBase w.1 w.2.1 + w.2.2) (BitVec.ofNat 32 (rd s1 w.1 w.2.1 w.2.2))) s1.savedRegs })))) ∧
  (∀ (t : Nat) (s : State), (tenant s t).state = .quiescing → cmdsGone s (tenant s t).drain = true → tenantWaits s t = false →
    exec (.quiesceComplete t) s = .next (settle (raise (setTenant s t
      { tenant s t with state := .quiesced, quiesced := true, drain := [] }) .tf t F.TF_INT_RAW_QUIESCED)))

/-- Namespaces, die sets, and the ends of a reset and a removal. NS_CREATE of a good block puts the namespace under
the lowest free key slot. NS_DELETE of a namespace of which no command is in the part, in a tenant without a
migration, destroys the slot and releases it. DIESET_CREATE of a good block takes its members, their system blocks and
their spare pools; DIESET_DELETE of a set without namespaces releases its bands and its members' blocks, and writes
checkpoint copies that lay on them elsewhere; DIESET_INFO and the population report are answered. The end of a
TENANT_RESET counts it, gives the controller its values at a reset, and makes the tenant QUIESCED again, or ends the
quiesce that was to end; the end of a TENANT_REMOVE releases what the tenant held. (05_tenant_functions.md R216–R219,
R226, R228; 06_zones_and_placement.md R266–R271; 07_translation_and_wear.md R308, R309.) -/
def Obligations.NamespaceAndDieSetCommandsComplete : Prop :=
  (∀ (q : Capsule) (s : State), Ready s q fnMF → let s1 := served s fnMF
    let ok (u : State) : State := postSt u q.conn q.cid stOk
    (let t := bitsOf q.dw10 8 0; (tenant s1 t).state ≠ .free →
      (∀ b k, OnlyBits q [0x1FF, 0, 0, 0, 0, 0] → 256 ≤ q.len → nsBlockBad s1 t b = none → freeNsSlot s1 = some k →
        let n : Ns :=
          { tenant := t, nsid := blkField b 0 4, zoned := blkField b 4 1 = 1, zsize := blkField b 5 1, parity := blkField b 6 1,
            cls := blkField b 7 1, dieSet := blkField b 8 2, capacity := blkField b 0x10 8, eraseCut := jCount s1 }
        exec (.nsCreate q b) s = .next (settle (ok { s1 with nss := mset s1.nss k n }))) ∧
      (∀ k, OnlyBits q [0x1FF, 0x1F, 0, 0, 0, 0] → nsSlot s1 t (bitsOf q.dw11 4 0) = some k → nsCmds s1 k = [] →
        (∀ w ∈ s1.adminWaits, w.2.2 ≠ .format k) → (migOf s1 t).logs = false →
        exec (.nsDelete q) s = .next (settle (pump (ok (releaseNs (destroySlot s1 k) k)))))) ∧
    (let d := bitsOf q.dw10 6 0;
      (∀ b, OnlyBits q [0x7F, 0, 0, 0, 0, 0] → dsAt s1 d = none → 256 ≤ q.len → let count := blkField b 4 1
        let ms := chooseMembers ((presentDies s1).filter (dieFree s1)) (maskLanes (blkField b 8 8)) count count
        dsBlockBad s1 b ms = none →
        let bb := minOf (ms.map (fun m => (goodBlocks s1 m).length - 16 - getF s1 .mape 0 F.MAPE_SPARE_CTRL_SPARE_RES))
        let pool := ms.map (fun m => (goodBlocks s1 m).length - 16 - bb)
        let x : DieSet :=
          { mode := blkField b 0 1, parity := blkField b 1 1, owner := blkField b 2 2, opPct := blkField b 5 1,
            streams := blkField b 6 1, flags := blkField b 7 1, laneMask := blkField b 8 8,
            streamMap := (List.range 192).map (fun i => (mgetD b (0x20 + i) 0).toNat), members := ms, bandBlocks := bb,
            initSpare := pool, spare := pool }
        let s2 := ms.foldl takeSystem s1
        exec (.diesetCreate q b) s = .next (settle (ok { s2 with diesets := mset s1.diesets d { x with freeWas := freeBands s2 x } }))) ∧
      (∀ x, dsAt s1 d = some x →
        (OnlyBits q [0x7F, 0, 0, 0, 0, 0] → (∀ n ∈ s1.nss, n.2.dieSet ≠ d) →
          let s2 := ((s1.bands.filter (fun b => b.2.dieSet = d)).map Prod.fst).foldl (fun s h => releaseBand s h) (discardUnits s1 (fun u => u.dieSet = d))
          exec (.diesetDelete q) s = .next (settle (ok
            (rehome { (x.members.foldl freeMember s2) with diesets := mdel s2.diesets d } x.members)))) ∧
        (OnlyBits q [0xFF, 0, 0, 0, 0, 0] → bitsOf q.dw10 7 7 = 0 → 4096 ≤ q.len →
          exec (.diesetInfo q) s = .next (settle (postOk s1 q.conn q.cid 0 (diesetReport s1 d x)))))) ∧
    (OnlyBits q [0xFF, 0, 0, 0, 0, 0] → 4096 ≤ q.len → let pres := presentDies s1
      exec (.diesetPopulation q) s = .next (settle (postOk s1 q.conn q.cid 0
        (dieBitmap (fun d => pres.contains d && !dieOut s1 d) ++ dieBitmap (((s1.diesets.map (fun x => x.2.members)).flatten).contains ·) ++
          dieBitmap (fun d => pres.contains d && dieOut s1 d) ++ List.replicate 3328 0))))) ∧
  (∀ (t : Nat) (s : State), let x := tenant s t;
    (x.state = .resetting →
      let s2 := modTenant (bump (setCtrl s t { critWarn := (ctrl s t).critWarn }) .tf t F.TF_RESETS_TENANT) t
        (fun x => { x with state := .quiesced, cmd := none, resets := x.resets + 1 })
      let s3 := x.cmd.elim s2 (fun w => postSt s2 w.1 w.2 stOk)
      exec (.tenantResetDone t) s = .next (settle (if x.endHeld then quiesceOver s3 t else s3))) ∧
    (x.state = .removing → x.removeStep = 2 → let s2 := removeRest s t;
      exec (.tenantRemoveDone t) s = .next (settle (pump (x.cmd.elim s2 (fun w => postSt s2 w.1 w.2 stOk))))))

/-- Security Receive of a ready function: protocol 0 returns the list of protocols, 0xE8 the answer to the last SPDM
request, and 0xF0 the answer of key agreement once it is ready. A Security Send of protocol 0xE8 of at most 4,096
bytes that brings an SPDM request completes and is counted, and the answer waits: GET_VERSION begins the exchange and
answers the two versions; GET_CAPABILITIES takes one of them; in the version in force, NEGOTIATE_ALGORITHMS,
GET_DIGESTS, GET_CERTIFICATE of a part of the chain of slot 0, CHALLENGE for slot 0 and GET_MEASUREMENTS, signed or
not, are answered as the operations of the model build those answers, and any other request ends in
UnsupportedRequest. The bytes of the messages are those of log 172, and the keys, nonces and certificates in them the
values of log 11. (12_sorrel_keys_cipher.md R461, R462, R466, R467.) -/
def Obligations.AttestationCompletes : Prop :=
  ∀ (q : Capsule) (f : Nat) (s : State), Ready s q f → f ≤ 512 → OnlyBits q secMasks → q.dw11 ≤ 2097152 →
    let s1 := served s f;
    (bitsOf q.dw10 31 24 = 0 →
      exec (.securityReceive q) s = .next (settle (postOk s1 q.conn q.cid 0 [0, 0, 0, 0, 0, 0, 0, 3, 0x00, 0xE8, 0xF0]))) ∧
    (∀ r, bitsOf q.dw10 31 24 = 0xE8 → mget s1.secs (f * 2) = some r → exec (.securityReceive q) s = .next (settle
      (postOk { s1 with secs := mdel s1.secs (f * 2) } q.conn q.cid 0 r.body))) ∧
    (∀ r, bitsOf q.dw10 31 24 = 0xF0 → bitsOf q.dw10 23 8 = 0 → mget s1.secs (f * 2 + 1) = some r → r.ready = true → r.due ≤ s1.now →
      exec (.securityReceive q) s = .next (settle
        (postOk { s1 with secs := mdel s1.secs (f * 2 + 1) } q.conn q.cid 0 (kaBytes s1 f r)))) ∧
    (∀ req, bitsOf q.dw10 31 24 = 0xE8 → q.len ≤ 4096 →
      let s2 := postSt s1 q.conn q.cid stOk;
      let x := spdmOf s2 f;
      let v := req.getD 0 0;
      let op := req.getD 3 0;
      let versions := [0x10, 0x04, 0, 0, 0, 2, 0x00, 0x11, 0x00, 0x12];
      exec (.spdmGetVersion ⟨q, req⟩) s = .next (settle (spdmGive s2 f { vca := req ++ versions } versions)) ∧
      (v = 0x11 ∨ v = 0x12 →
        let r := [v, 0x61, 0, 0, 0, 0, 0, 0] ++ leBytes 4 0x16 ++ (if v = 0x12 then leBytes 4 4096 ++ leBytes 4 4096 else []);
        exec (.spdmGetCapabilities ⟨q, req⟩) s = .next (settle (spdmGive s2 f { x with ver := v, vca := x.vca ++ req ++ r } r))) ∧
      (let r := [x.ver, 0x63, 0, 0, 36, 0, 1, 0] ++ leBytes 4 0x04 ++ leBytes 4 0x80 ++ leBytes 4 0x02 ++ List.replicate 16 0;
        v = x.ver → exec (.spdmNegotiateAlgorithms ⟨q, req⟩) s = .next (settle (spdmGive s2 f { x with vca := x.vca ++ req ++ r } r))) ∧
      (let r := [x.ver, 0x01, 0, 1] ++ sha384 spdmChain;
        v = x.ver → exec (.spdmGetDigests ⟨q, req⟩) s = .next (settle (spdmGive s2 f { x with certs := x.certs ++ req ++ r } r))) ∧
      (let off := ofLe ((req.drop 4).take 2);
        let p := (spdmChain.drop off).take (ofLe ((req.drop 6).take 2));
        let r := [x.ver, 0x02, 0, 0] ++ leBytes 2 p.length ++ leBytes 2 (spdmChain.length - off - p.length) ++ p;
        v = x.ver → req.getD 2 0 % 16 = 0 → off < spdmChain.length →
          ∀ a b, req = a ++ b → exec (.spdmGetCertificate q a b) s = .next (settle (spdmGive s2 f { x with certs := x.certs ++ req ++ r } r))) ∧
      (let n := spdmNonce s2;
        let sum := if op = 0 then [] else sha384 ((if op = 1 then [1] else measIdx).map (fun i => measBlock s2 f i)).flatten;
        let r := [x.ver, 0x03, 0, 1] ++ sha384 spdmChain ++ n.1 ++ sum ++ [0, 0];
        let g := spdmSign n.2 x.ver "responder-challenge_auth signing" (x.vca ++ x.certs ++ req ++ r);
        v = x.ver → req.getD 2 0 = 0 →
          exec (.spdmChallenge q req) s = .next (settle (spdmGive g.2 f { x with certs := [] } (r ++ g.1)))) ∧
      (let is := if op = 0xFF then measIdx else if op = 0 then [] else [op];
        let b := (is.map (measBlock s2 f)).flatten;
        let n := spdmNonce s2;
        let r := [x.ver, 0x60, if op = 0 then measIdx.length else 0, 0, is.length] ++ leBytes 3 b.length ++ b ++ n.1 ++ [0, 0];
        let log := x.meas ++ req ++ r;
        v = x.ver → (op = 0 ∨ op = 0xFF ∨ op ∈ measIdx) →
          (∀ a c, req = a ++ c → req.getD 2 0 % 2 = 0 → exec (.spdmGetMeasurements q a c) s = .next (settle (spdmGive n.2 f { x with meas := log } r))) ∧
          (let g := spdmSign n.2 x.ver "responder-measurements signing" ((if x.ver = 0x12 then x.vca else []) ++ log);
            ∀ a c, req = a ++ c → req.getD 2 0 % 2 = 1 → exec (.spdmGetMeasurements q a c) s = .next (settle (spdmGive g.2 f { x with meas := [] } (r ++ g.1))))) ∧
      exec (.spdmUnsupportedRequest q req) s = .next (settle (spdmGive s2 f x [x.ver, 0x7F, 0x07, req.getD 1 0])))

/-- Key agreement. ENROLL with a point of the curve, of a tenant that is not enrolled or of MF, records TPK with a new
SPK and CTR 0 in the function's key record and answers both with the part's signature; MF's brings a new MK. An
accepted request (its MAC the function's, its CTR above the last) takes its CTR: BIND of an unbound slot puts a fresh
key of generation 1 into it and restarts its nonces, and STATUS answers the states of the key slots.
(12_sorrel_keys_cipher.md R468–R472.) -/
def Obligations.KeyAgreementCompletes : Prop :=
  (∀ (q : Capsule) (f : Nat) (s : State), Ready s q f → f ≤ 512 → OnlyBits q secMasks → q.dw11 ≤ 2097152 →
    bitsOf q.dw10 31 24 = 0xF0 → bitsOf q.dw10 23 8 = 0 → let s1 := postSt (served s f) q.conn q.cid stOk
    ∀ ctr form xy, (f = fnMF ∨ enrollOf s f = none) → let tpk := form :: xy; (ecPoint tpk).isSome = true →
      let r := freshScalar s1;
      let s2 := setEnroll r.2 f ⟨tpk, r.1, 0⟩;
      let g := dikSign (if f = fnMF then mkNew s2 else s2) (enrollHead f r.1 ++ tpk);
      exec (.enroll q ctr form xy) s = .next (settle (setResp g.2 f false ⟨1, 0, ctr, enrollHead f r.1 ++ g.1, true, 0⟩))) ∧
  (∀ (q : Capsule) (f : Nat) (h : KaHdr) (e : Enroll) (s : State), let s1 := kaTaken s q f h e;
    (∀ nsid k, KaAccepts s q f 2 h (leBytes 4 nsid) e → f ≠ fnMF → nsSlot s1 f nsid = some k →
      ((migOf s1 f).state = .importing && (migOf s1 f).names nsid) = false → (nsAt s1 k).any (·.erase.isSome) = false → slotState s1 k = 1 →
      let r := freshKey s1
      exec (.bind q h nsid) s = .next (settle (kaAnswer (modNs (bindSlot r.2 k r.1 1) k (fun n => { n with nonce := {} })) f 2 0 h.ctr []
        true s.now))) ∧
    (KaAccepts s q f 3 h [] e →
      exec (.status q h) s = .next (settle (kaAnswer s1 f 3 0 h.ctr
        (((List.range 16).map (fun i => if f = fnMF then List.replicate 8 0 else statusEntry s1 f (i + 1))).flatten ++ leBytes 8 h.ctr)
        true s.now))))

/-- A crypto-erase. Once the commands that were in the part before it have completed, its commit binds the slot to a
fresh key of the next generation and sets the erase cut to the journal's count of records; its end then makes the
namespace empty: the map, zones, pending nonces, write protection and deferred errors go, staged units without a slot
go and those with one are stale, and whoever began it learns of it. (12_sorrel_keys_cipher.md R484, R485, R486.) -/
def Obligations.CryptoEraseCompletes : Prop :=
  ∀ (k : Nat) (n : Ns) (s : State), nsAt s k = some n → n.erase.isSome = true →
    (n.eraseDone = false → (∀ i ∈ n.eraseWait, mget s.cmds i = none) →
      let r := freshKey s;
      let s1 := modNs r.2 k (fun n => { n with eraseDone := true, eraseCut := jCount s });
      exec (.cryptoEraseCommit k) s = .next (settle (bindSlot (dropKey s1 k) k r.1 (mgetD s.keyGen k 0 + 1)))) ∧
    (n.eraseDone = true → exec (.cryptoEraseDone k) s = .next (settle (pump (eraseTell (modTenant
      (modNs (staleUnits s k) k (fun n => { n with
        erase := none, eraseWait := [], eraseDone := false, map := [], dirty := [], zones := [], nonce := {}, wp := false, defer := false }))
      n.tenant (fun t => { t with defer := t.defer.filter (fun e => e.nsid ≠ n.nsid) })) k n))))

/-- Cipher jobs. A job that finds a core free goes to the first free one that holds its key, else to the first free
one, which loads it: a job with operands of its own, and the decryption of a sector whose ciphertext a read has. When
a job ends, its core takes the next; a decryption whose tag verifies under the slot's present key is counted and gives
the sector to its read. Which of eight cached keys gives way is the model's choice (log 13). (12_sorrel_keys_cipher.md
R479, R488–R491.) -/
def Obligations.CipherJobsComplete : Prop :=
  (∀ (r : JobReq) (j : CJob) (c : Nat) (s : State),
    (match r with
      | .other id addr cls blocks => j = { what := .other id, addr := addr, cls := min 2 cls, blocks := blocks }
      | .dec conn cid off => ∃ k x, s.cmds.find? (fun q => q.2.conn = conn && q.2.cid = cid && (mget q.2.plain off).isSome) = some (k, x) ∧
          j = { what := .dec k off, addr := x.nsk.getD 0, cls := x.cls, blocks := 256 } ∧ (allJobs s).all (fun j => j.what ≠ .dec k off) = true) →
    let free := (coresOk s).filter (fun c => (coreAt s c).job.isNone);
    (free.find? (fun c => (coreAt s c).cache.contains j.addr) = some c → exec (.cipherJobArrival r) s =
      .next (settle (setCore s c { coreAt s c with job := some (j, s.now) }))) ∧
    (free.find? (fun c => (coreAt s c).cache.contains j.addr) = none → free.head? = some c → exec (.cipherJobArrival r) s =
      .next (settle (bump
        (setCore s c { job := some (j, s.now), cache := (j.addr :: (coreAt s c).cache).take 8 }) .csx 0 F.CSX_KEY_LOADS_COUNT)))) ∧
  (∀ (core t : Nat) (j : CJob) (s : State), (coreAt s core).job = some (j, t) →
    let s1 := setCore s core { coreAt s core with job := none };
    (∀ id intact, j.what = .other id → exec (.cipherJobDone core intact) s = .next (settle (coreNext s1 core))) ∧
    (∀ k off c sl x key v, j.what = .dec k off → mget s.cmds k = some c → c.nsk = some sl → mget c.plain off = some x →
      mget s.nsKeys sl = some key → x.opened key ((nsAt s sl).elim 0 (·.nsid)) = some v →
      exec (.cipherJobDone core true) s = .next (settle (coreNext (readGive (bump s1 .csx 0 F.CSX_SECT_DEC_COUNT) k off v) core))))

/-- The source of a migration: a tenant whose request is accepted. MIG_BEGIN of namespaces of an idle tenant with room
for the log begins COPYING with a full log. While the log is kept, MIG_SWAP makes the live log the snapshot and clears
it, MIG_EXPORT answers the records that its visit of the units of a migrating namespace builds, which are being
prepared until the next nanosecond, MIG_EVENTS the snapshot ring, MIG_ZONES the descriptors of the zones it names,
none in a conventional namespace, and MIG_ABORT ends the migration, as the vendor command does for a tenant that is
not FREE. MIG_FREEZE freezes a copying migration, and its response becomes ready when the commands then in the part
have completed; MIG_KEY_EXPORT after that, to a destination that proves itself, answers the key package and hands the
tenant off. The generator's values are those of log 11. (13_tenant_migration.md R504, R507–R509, R512–R514, R519–R522,
R524, R525.) -/
def Obligations.MigrationSourceCompletes : Prop :=
  (∀ (q : Capsule) (f : Nat) (h : KaHdr) (e : Enroll) (s : State), f ≠ fnMF → let s1 := kaTaken s q f h e;
    let st := (migOf s1 f).state;
    let ans (u : State) (op : Nat) (l : List Nat) : Host.Outcome State Fault Refusal := .next (settle (kaAnswer u f op 0 h.ctr l true s.now));
    (∀ mask, KaAccepts s q f 0x10 h (leBytes 2 mask ++ [0, 0]) e → st = .idle → maskNamed s1 f mask = true →
      mapHeld s1 f + logMib s1 f mask ≤ (tenant s1 f).par.mapMib →
      exec (.migBegin q h mask) s = ans (modMig s1 f (fun _ => { state := .copying, mask := mask, live := fullLog mask })) 0x10 []) ∧
    (KaAccepts s q f 0x11 h [] e → st.logging = true →
      exec (.migSwap q h) s = ans (modMig s1 f (fun m => { m with snap := (migOf s1 f).live, live := {} })) 0x11
        (((List.range 16).map (fun i => leBytes 8 (bitsSet s1 f (i + 1) (migOf s1 f).live))).flatten ++
          leBytes 4 (migOf s1 f).live.ring.length ++ [(migOf s1 f).live.ovf.toNat, 0, 0, 0])) ∧
    (∀ nsid k n, migTarget s1 f nsid = .inr (k, n) → st.logging = true →
      (∀ flags first last maxb visits bad,
        KaAccepts s q f 0x12 h (leBytes 4 nsid ++ leBytes 4 flags ++ leBytes 8 first ++ leBytes 8 last ++ leBytes 4 maxb) e →
        let b := mgetD (migOf s1 f).snap.bits nsid {};
        let r := exportFrom s1 k n bad (fun u => flags % 2 = 1 || b.full || b.units.contains u) last (min maxb 2097088) visits first 16 [];
        exec (.migExport q h nsid flags first last maxb visits bad) s = .next (settle (kaAnswer s1 f 0x12 0 h.ctr
          (leBytes 8 r.1 ++ leBytes 4 r.2.length ++ [0, 0, 0, 0] ++ (r.2.map MigRec.toBytes).flatten) true (s.now + 1)))) ∧
      (∀ first count, KaAccepts s q f 0x14 h (leBytes 4 nsid ++ leBytes 4 first ++ leBytes 4 count) e →
        exec (.migZones q h nsid first count) s = ans s1 0x14
          ((if n.zoned then ((List.range (min count 65536)).map (first + ·)).filter (· < zoneCount n) else []).map (migDescriptor n)).flatten)) ∧
    (KaAccepts s q f 0x13 h [] e → st.logging = true → let l := (migOf s1 f).snap.ring;
      exec (.migEvents q h) s = ans s1 0x13 (leBytes 4 l.length ++ List.replicate 12 0 ++
        (l.map (fun e => leBytes 2 e.nsid ++ [e.event, 0] ++ leBytes 4 e.zone ++ leBytes 4 e.epoch ++ [0, 0, 0, 0])).flatten)) ∧
    (KaAccepts s q f 0x15 h [] e → st = .copying → let w := ((migNs s1 f).map (fun x => nsCmds s1 x.1)).flatten.eraseDups;
      exec (.migFreeze q h) s = .next (settle (kaAnswer (modMig s1 f (fun m => { m with state := .frozen, draining := true, waitFor := w }))
        f 0x15 0 h.ctr [] false s.now))) ∧
    (∀ x, KaAccepts s q f 0x16 h x e → st = .frozen → (migOf s1 f).draining = false → tokenOk (migOf s1 f) x = true →
      (ecPoint (tokEpk x)).isSome = true → let d := freshScalar s1; let v := drawBits d.2;
      exec (.migKeyExport q h x) s = ans
        (modMig v.2 f (fun m => { m with state := .handedOff, peer := some (tokEpk x), live := {}, snap := {} })) 0x16
        (makePkg d.1 (v.1 % 2 ^ 96) (tokEpk x) (pkgText s1 f (tokSerial x) (tokTenant x)))) ∧
    (KaAccepts s q f 0x17 h [] e → st.abortable = true → exec (.migAbort q h) s = ans (migEnd s1 f) 0x17 [])) ∧
  (∀ (t : Nat) (s : State), (migOf s t).state = .frozen → (migOf s t).draining = true → (∀ i ∈ (migOf s t).waitFor, mget s.cmds i = none) →
    exec (.migFreezeDone t) s = .next (settle (readyResp (modMig s t (fun m => { m with draining := false, waitFor := [] })) t))) ∧
  (∀ (q : Capsule) (s : State), Ready s q fnMF → OnlyBits q [tenantMask, 0, 0, 0, 0, 0] → let s1 := served s fnMF; let t := cmdTenant q;
    (tenant s1 t).state ≠ .free → (migOf s1 t).state.abortable = true →
    exec (.migAbortCmd q) s = .next (settle (postSt (migEnd s1 t) q.conn q.cid stOk)))

/-- The destination of a migration: a tenant whose request is accepted. IMPORT_BEGIN of importable namespaces of an
idle tenant, with no debug token since the last power-on reset, keeps a new ephemeral key and answers its point with
the part's signature. While it imports, IMPORT_DATA applies its records in order up to the first that fails and
answers how many it applied, with RESULT 0x000D where one failed; IMPORT_ZONE sets zones from descriptors up to the
first that fails, with the same RESULT; and IMPORT_COMMIT and IMPORT_KEY begin to program what was imported, their
responses not yet ready. (13_tenant_migration.md R515–R518, R523.) -/
def Obligations.MigrationDestinationCompletes : Prop :=
  ∀ (q : Capsule) (f : Nat) (h : KaHdr) (e : Enroll) (s : State), f ≠ fnMF → let s1 := kaTaken s q f h e;
    let st := (migOf s1 f).state;
    let ans (u : State) (op res : Nat) (l : List Nat) (ready : Bool) : Host.Outcome State Fault Refusal :=
      .next (settle (kaAnswer u f op res h.ctr l ready s.now));
    (∀ mask, KaAccepts s q f 0x18 h (leBytes 2 mask ++ [0, 0]) e → st = .idle → maskNamed s1 f mask = true →
      (maskIds mask).all (importable s1 f) = true → getF s1 .dbg 0 F.DBG_TOKEN_SINCE_POR ≠ 1 →
      let r := freshScalar s1;
      let g := dikSign (recPut r.2 (ekRec f) (.ek r.1)) (importSigned Config.serial f mask (ecPublic r.1));
      exec (.importBegin q h mask) s = ans
        (modMig g.2 f (fun _ => { state := .importing, mask := mask, ek := some r.1, commitAt := jCount s1 }))
        0x18 0 (ecPublic r.1 ++ [0, 0, 0] ++ g.1) true) ∧
    (st = .importing →
      (∀ nsid k n, migTarget s1 f nsid = .inr (k, n) →
        (∀ recs, KaAccepts s q f 0x19 h (leBytes 4 nsid ++ [0, 0, 0, 0] ++ recs) e →
          let r := applyRecords k n (parseRecs (recs.length / 16) recs) 0 s1;
          exec (.importData q h nsid recs) s = ans (pump r.2.2) 0x19 (if r.2.1 then 0 else 0xD) (leBytes 4 r.1) true) ∧
        (∀ first count ds, KaAccepts s q f 0x1A h (leBytes 4 nsid ++ leBytes 4 first ++ leBytes 4 count ++ ds) e →
          let r := setZones k n ((chunks 16 (min count (ds.length / 16)) ds).map zoneDesc) first s1;
          exec (.importZone q h nsid ⟨first, count⟩ ds) s = ans r.2 0x1A (if r.1 then 0 else 0xD) [] true)) ∧
      (KaAccepts s q f 0x1B h [] e → exec (.importCommit q h) s = ans (beginCommit s1 f none) 0x1B 0 [] false) ∧
      (∀ p, KaAccepts s q f 0x1C h p e → exec (.importKey q h p) s = ans (beginCommit s1 f (some p)) 0x1C 0 [] false))

/-- Cirrus and the suspensions. The first operation that is fed to a flash die enters its queue when that holds fewer
than 256: it takes its deadline and the present BG_CTRL, a read near its deadline gains SUSPEND and is counted in the
gathering, the peak follows, and the places are filled; a full queue stalls what feeds it, counted once for an
operation. When gathering ends or a program's deadline passes, the places are filled. BULK reads that have come near
their deadline gain SUSPEND. At the end of a window the counts begin anew, and each background operation that does not
fit has failed one window more. A SUSPEND that the flash die accepts counts, and leaves it in ES or PS with the
operation suspended once more. At RUN_MIN the waiting read is evaluated again, and after the hold time the flash die
takes its next step. (09_flash_lanes_thyme.md R381, R384–R386; 11_cirrus_latency.md R436–R438, R440, R442–R446, R454.)
-/
def Obligations.CirrusCompletes : Prop :=
  ∀ (d : Nat) (s : State), let x := dieAt s d;
    (∀ o, nextFeed s d = some o → 256 ≤ x.queue.length → o.stalled = false → exec (.operationQueued d) s = .next (settle
      (bump { s with feeds := s.feeds.map (fun p => if p = o then { p with stalled := true } else p) } .qeng 0 F.QENG_QUEUE_STALLS))) ∧
    (∀ o, nextFeed s d = some o → x.queue.length < 256 →
      let dl := if o.atEntry then s.now else if o.deadline = 0 then s.now + clsTarget s o.cls else o.deadline;
      let o1 : FlashOp := { o with deadline := dl, entered := s.now, ctl := rd s .qeng 0 F.QENG_BG_CTRL_BATCH.off };
      let o2 : FlashOp := { o1 with susp := o1.isRead && (o1.susp || bulkSusp s o1) };
      let s0 : State := match o.owner with
        | .climb g => { s with climbs := s.climbs.map (fun (q : Nat × Climb) =>
            if q.2.desc = g && q.2.deadline = 0 then (q.1, { q.2 with deadline := dl }) else q) }
        | _ => s;
      let s1 := modDie { s0 with feeds := dropOp s0.feeds o } d (fun x => { x with queue := x.queue ++ [o2] });
      let n := (dieAt s1 d).queue.length;
      let s2 := if getF s1 .qeng 0 F.QENG_QUEUE_PEAK < n then setF s1 .qeng 0 F.QENG_QUEUE_PEAK n else s1;
      exec (.operationQueued d) s = .next (settle (fillPlaces (if o2.susp then gather s2 d else s2) d))) ∧
    exec (.gatherExpiry d) s = .next (settle (fillPlaces s d)) ∧
    exec (.programDeadlinePassed d) s = .next (settle (fillPlaces s d)) ∧
    (let n := (x.queue.filter (fun o => bulkSusp s o && !o.susp)).length;
      n ≠ 0 → exec (.bulkEscalation d) s = .next (settle (fillPlaces ((List.range n).foldl (fun s _ => gather s d)
        (modDie s d (fun x => { x with queue := x.queue.map (fun o => if bulkSusp s o then { o with susp := true } else o) }))) d))) ∧
    (x.winAt + max 1 (getF s .qeng 0 F.QENG_BG_CTRL_BG_WIN_MS) * 1000000 ≤ s.now →
      let y := { x with lastReads := x.winReads, winReads := 0, winProgs := 0, winHost := 0, winAt := s.now };
      exec (.bgWindowEnd d) s = .next (settle (fillPlaces (modDie s d (fun _ => { y with
        queue := y.queue.map (fun o => if o.bg && !o.isRead then { o with strikes := if bgFits s y o then 0 else o.strikes + 1 } else o) })) d))) ∧
    (∀ o, x.cur = some o → x.suspSent = true →
      exec (.suspendAccepted d) s = .next (settle (nextOp (modDie
        (bump s .lan (laneOfDie d) (if o.kind = .erase then F.LAN_SUSPENDS_ERASE else F.LAN_SUSPENDS_PROGRAM)) d (fun x => { x with
          st := if o.kind = .erase then .es else .ps, cur := none, suspSent := false, susAt := s.now, gatherAt := none,
          sus := some { o with nsusp := o.nsusp + 1, ran := o.ran + (s.now - o.since) } })) d))) ∧
    exec (.runMinExpiry d) s = .next (settle (evalRead s d)) ∧
    exec (.suspendHoldExpiry d) s = .next (settle (nextOp s d))

/-- What ends on a lane. While the tile's link is up, the oldest descriptor on its way arrives and the places are
filled. A read that is ready crosses the bus, is counted at its block, and goes to whoever asked. A program or an
erase that has ended reaches the hub with its result, or waits for the end of the link's retrain, and one that failed
is reported with cause 0x01 or 0x02. An operation over its time ends with cause 0x03 and its LUN is reset; a LUN that
is ready lets the flash die go on, and one that is not ready 10 ms later is reported with cause 0x04 and leaves
service. A lane in service calibrates each populated CE_n every 128 ms, and trains one when the temperature, in units
of 1/128 °C, has moved 8 °C. What a result does in the hub is as the operations of the model say.
(01_part_and_chiplets.md R34; 09_flash_lanes_thyme.md R371, R379–R381, R388.) -/
def Obligations.LanesComplete : Prop :=
  ∀ (d : Nat) (s : State), let x := dieAt s d; let l := laneOfDie d;
    (∀ o t, x.descs = o :: t → linkCarries s d = true →
      exec (.laneDescriptor d) s = .next (settle (fillPlaces (arrive (modDie s d (fun x => { x with descs := t })) d o) d))) ∧
    (∀ o, x.cur = some o → o.kind = .read → let s1 := countRead (busOut (endCur s d) d (readCycles s d o)) o.pua;
      exec (.readComplete d) s = .next (settle (nextOp (match o.owner with
        | .climb g => descReadDone s1 g
        | .raw h w pos => { s1 with raws := s1.raws.map (fun x => if x.band = h && x.row = w && x.mem = pos then { x with left := x.left - 1 } else x) }
        | .diag => { s1 with lanes := mset s1.lanes l { mgetD s1.lanes l {} with diagRead := true } }
        | _ => s1) d))) ∧
    (∀ o h r pos ok, x.cur = some o → o.owner = .prog h r pos →
      let s1 := if ok then endCur s d else blockError (bump (endCur s d) .lan l F.LAN_FAILS_PROGRAM) .lan l 1 1 (o.pua % 2 ^ 32) (o.pua / 2 ^ 32);
      exec (.programComplete d ok) s = .next (settle (nextOp
        (if resultsWait s d then holdResult s1 d (.prog h r pos ok) else pump (progResult s1 h r pos ok)) d))) ∧
    (∀ o die blk ok, x.cur = some o → o.owner = .erase die blk → let p := mkPua d 0 blk 0;
      let s1 := if ok then endCur s d else blockError (bump (endCur s d) .lan l F.LAN_FAILS_ERASE) .lan l 2 2 (p % 2 ^ 32) (p / 2 ^ 32);
      exec (.eraseComplete d ok) s = .next (settle (nextOp
        (if resultsWait s d then holdResult s1 d (.erase die blk ok) else pump (eraseResult s1 die blk ok)) d))) ∧
    (∀ o, x.cur = some o → timedOut s d = true → x.resetAt = none →
      let s1 := modDie (blockError (bump s .lan l F.LAN_TIMEOUTS_COUNT) .lan l 3 3 (o.pua % 2 ^ 32) (o.pua / 2 ^ 32)) d
        (fun x => { x with cur := none, sus := none, suspSent := false, resetAt := some s.now, gatherAt := none });
      exec (.operationTimeout d) s = .next (settle (pump ((o :: x.sus.toList).foldl opEnds (emit (busOut s1 d [0xFA]) (.lane l "reset" d)))))) ∧
    (x.resetAt ≠ none → exec (.resetLunReady d) s = .next (settle (nextOp (modDie s d (fun x => { x with resetAt := none, st := .idle })) d))) ∧
    (∀ t, x.resetAt = some t → t + 10000000 ≤ s.now → exec (.lunStuck d) s = .next (settle (pump (dieLeaves (raise (blockError s .lan l 4 6
      (d * 2 ^ 26 % 2 ^ 32) (d * 2 ^ 26 / 2 ^ 32)) .lan l F.LAN_INT_RAW_DIE_FAULT) d)))) ∧
    (∀ n, laneInService s n = true → let y := mgetD s.lanes n {};
      (y.zqAt + 128000000 ≤ s.now → exec (.zqCalShort n) s = .next (settle ((cePop s n).foldl
        (fun s c => emit (emit s (.bus n [0xD9])) (.lane n "ZQ_SHORT" c)) { s with lanes := mset s.lanes n { y with zqAt := s.now } }))) ∧
      (∀ ce ∈ cePop s n, ∀ temp : Int, (∀ t, mget y.trainedAtC ce = some t → 1024 ≤ (temp - t).natAbs) →
        exec (.readDqTrain n ce temp) s = .next (settle (emit { s with lanes := mset s.lanes n { y with
          trainedAtC := mset y.trainedAtC ce temp } } (.lane n "READ_DQ_TRAIN" ce)))))

/-- A lane's sequencer executes one microword of the context that has the bus. A context that does not wait acts
first, and one that waits has acted. A word that is no safe point then goes where its FLOW says: to NEXT, to a branch
of it by its four conditions, into a routine of the stack, back from one, to a wait for its condition, or to the end
with its status code; FLOW 6 and 7, a full stack and an empty one abort the operation. In particular FLOW 0 goes to
NEXT and FLOW 5 ends the routine with the code in bits 25–22. What a microword's environment shows, the command
brings. (09_flash_lanes_thyme.md R390–R392.) -/
def Obligations.SequencersComplete : Prop :=
  ∀ (l d : Nat) (e : ThymeEnv) (s : State), let s3 := laneGranted s l e; let x := thymeOf s3 d; let w := fetchWord s3 x.pc;
    runningCtx s3 l = some d → uw w 89 89 = 0 →
    let a := if x.waiting then (s3, x) else thymeActs s3 l x e w; let t := setThyme a.1 d a.2;
    exec (.thymeMicroword l e) s = .next (settle (flowGo t l d a.2 w (flowOf t l d a.2 e w))) ∧
    (uw w 112 110 = 0 → exec (.thymeMicroword l e) s = .next (settle (setThyme t d { a.2 with pc := uw w 127 113, waiting := false }))) ∧
    (uw w 112 110 = 5 → exec (.thymeMicroword l e) s = .next (settle (emit (setThyme t d { a.2 with
      running := false, ready := false, waiting := false, stack := [] }) (.lane l "status" (uw w 25 22)))))

/-- A diagnostic read whose codeword has come ends with what its hard decode found: erased, corrected with a number of
bits, or not decoded; one that has not come within 100 ms ends without it, and its read leaves what feeds the queues,
and the queues. (09_flash_lanes_thyme.md R396, R402.) -/
def Obligations.DiagnosticReadsComplete : Prop :=
  ∀ (l t : Nat) (r : DiagResult) (s : State), let x := mgetD s.lanes l {}; let thr := getF s .sig (l / 16) F.SIG_DET_CTRL_ERASED_THR;
    x.diag = some t →
    (x.diagRead = true → r.zeros ≤ thr → exec (.diagReadDone l r) s = .next (settle (diagEnd s l 2 0))) ∧
    (x.diagRead = true → thr < r.zeros → ∀ n, r.corrected = some n → exec (.diagReadDone l r) s = .next (settle (diagEnd s l 0 n))) ∧
    (x.diagRead = true → thr < r.zeros → r.corrected = none → exec (.diagReadDone l r) s = .next (settle (diagEnd s l 1 0))) ∧
    (x.diagRead = false → t + 100000000 ≤ s.now → let keep (o : FlashOp) : Bool := !(o.owner = .diag && laneOfDie o.die = l);
      exec (.diagReadDone l r) s = .next (settle (diagEnd { s with
        feeds := s.feeds.filter keep
        dies := s.dies.map (fun q => (q.1, { q.2 with queue := q.2.queue.filter keep })) } l 7 0)))

/-- Decoding. A hard decode at step 1 to 3 of a climb: an erased codeword ends it at step 8, or quietly when only
patrols wait for it; one that converges to a codeword that verifies for every reader ends it there, and the tracked
set's run ends (step 1) or the set counts a hit; any other fails the step. A soft pass that converges to such a
codeword ends the climb and stores the blended tables, one that does not asks for another pass, or fails the step at
the last, and the decoder takes what waits. A word line's sample is counted: with no more differing bits than allowed
and every codeword decoded the units of its group are given up once its last sample has passed, else it is counted and
reported with cause 0x02, the block is suspect and its units are placed anew. While the tile's link retrains each of
the three results waits for its end. (01_part_and_chiplets.md R34; 10_signal_channel.md R414, R416–R421, R425, R426.)
-/
def Obligations.DecodingCompletes : Prop :=
  (∀ (id : Nat) (c : Climb) (conv : Bool) (z : Nat) (s : State), mget s.climbs id = some c → c.decoding = true → c.step ≤ 3 →
    let w := climbWord s c; let d := puaDie c.pua; let good := conv && c.readers.all (verifies s w);
    (resultsWait s d = true → exec (.hardDecodeDone id conv z) s =
      .next (settle (holdResult (modClimb s id (fun c => { c with decoding := false })) d (.hard id conv z)))) ∧
    (resultsWait s d = false →
      (z ≤ c.erasedThr → exec (.hardDecodeDone id conv z) s =
        .next (settle (if c.readers.all (·.isPatrol) then dropClimb s id else climbUnc s id c true))) ∧
      (c.erasedThr < z → good = true → exec (.hardDecodeDone id conv z) s = .next (settle (climbOk
        (if c.step = 1 then trackReset s d else trackHit s d (if c.step = 2 then 0 else c.set) c.trackHits) id c w))) ∧
      (c.erasedThr < z → good = false → exec (.hardDecodeDone id conv z) s = .next (settle (climbFail s id))))) ∧
  (∀ (id : Nat) (c : Climb) (conv : Bool) (counts : List (Nat × Nat)) (s : State), mget s.climbs id = some c → c.onSoft = true →
    let w := climbWord s c; let d := puaDie c.pua; let good := conv && c.readers.all (verifies s w);
    let fresh := counts.map (fun q => refinedEntry q.1 q.2);
    (resultsWait s d = true → exec (.softPassDone id conv counts) s =
      .next (settle (softServe (holdResult (modClimb s id (fun c => { c with decoding := false })) d (.soft id conv counts)) c.tile))) ∧
    (resultsWait s d = false →
      (good = true → exec (.softPassDone id conv counts) s = .next (settle (softServe
        (climbOk (blendTables s c (if c.refined = [] then fresh else c.refined)) id c w) c.tile))) ∧
      (good = false → c.passes + 1 < c.passMax → exec (.softPassDone id conv counts) s = .next (settle (softServe
        (softAsk (modClimb s id (fun c => { c with passes := c.passes + 1, refined := fresh })) id c) c.tile))) ∧
      (good = false → c.passMax ≤ c.passes + 1 → exec (.softPassDone id conv counts) s =
        .next (settle (softServe (climbFail s id) c.tile))))) ∧
  (∀ (h w pos diff : Nat) (ok : Bool) (b : Band) (s : State), bandAt s h = some b → let die := b.die pos; let t := tileOfDie die; let p := b.puaOf w pos 0;
    (resultsWait s die = true → exec (.rawSampleDone h w pos diff ok) s =
      .next (settle (holdResult s die (.sample h w pos diff ok)))) ∧
    (∀ x, resultsWait s die = false → s.raws.find? (fun x => x.band = h && x.row = w && x.mem = pos && x.left = 0) = some x →
      let s1 := bump { s with raws := s.raws.filter (· ≠ x) } .sig t F.SIG_RAW_SAMPLES_COUNT;
      let us := unitsAt s h b (groupRows s b w) pos;
      (diff ≤ x.thr → ok = true → exec (.rawSampleDone h w pos diff ok) s = .next (settle
        (if s1.raws.any (fun y => y.band = h && y.mem = pos && (groupRows s b w).contains y.row) then s1 else pump (releaseUnits s1 us)))) ∧
      (x.thr < diff ∨ ok = false → exec (.rawSampleDone h w pos diff ok) s = .next (settle (pump (placeAnew (modBlk (raise (blockError
        (bump s1 .sig t F.SIG_RAW_FAILS_COUNT) .sig t 2 (min 0xFFFF diff) (p % 2 ^ 32) (p / 2 ^ 32)) .sig t F.SIG_INT_RAW_RAW_FAIL)
          die (b.blk pos) (fun k => { k with suspect := k.suspect + 1 })) us))))))

/-- The journal. With no flush under way, what has been staged for 64 µs goes on its way and the flush is counted. A
flush that ends is in the ring, and what waited for it goes on. A checkpoint of a segment whose turn it is writes that
segment, in a conventional namespace once its writes are quiet, and no segment of one that is being erased; a
checkpoint of the tables writes the tables; then bands settle, the tail advances and waiting records are taken up. A
mark that is durable becomes its counter's mark, and what waited for it goes on. (08_map_durability.md R338–R345,
R352.) -/
def Obligations.JournalCompletes : Prop :=
  ∀ s : State,
    (∀ t, s.jr.oldest = some t → t + 64000 ≤ s.now → s.jr.flushing = [] → s.jr.staged ≠ [] →
      exec .journalFlushTimer s = .next (settle (bump { s with jr := { s.jr with flushing := s.jr.staged, staged := [], oldest := none } }
        .mrj 0 F.MRJ_FLUSHES_COUNT))) ∧
    (s.jr.flushing ≠ [] →
      let s1 := { s with jr := { s.jr with ring := msetList s.jr.ring s.jr.head s.jr.flushing, head := s.jr.head + s.jr.flushing.length, flushing := [] } };
      exec .journalFlushDone s = .next (settle (pump (runActs (jFull s1) (jFull s1).jr.acts)))) ∧
    (let after (u : State) : State := let t := settleBands u; pump (releaseWaits (tailAdvance t (t.jr.ring.length + 1)));
      (∀ k g, segTurn s k g = true → exec (.segmentCheckpoint (some (k, g))) s = .next (settle (after (ckptSeg s k g)))) ∧
      exec (.segmentCheckpoint none) s = .next (settle (after (ckptTables s)))) ∧
    (let go (u : State) : State := pump (runActs u u.jr.acts);
      (∀ m, s.bandCtr.wanted = some m → exec (.markDurable .band) s = .next (settle (go
        { s with bandCtr := { s.bandCtr with mark := m, wanted := none, waits := false } }))) ∧
      (∀ m, s.sealCtr.wanted = some m → exec (.markDurable .sealing) s = .next (settle (go
        { s with sealCtr := { s.sealCtr with mark := m, wanted := none, waits := false } }))) ∧
      (∀ k m, (∀ q ∈ s.nss, q.1 = k → q.2.wseq.wanted = some m) → exec (.markDurable (.wseq k)) s = .next (settle (go
        (modNs s k (fun n => { n with wseq := { n.wseq with mark := m, wanted := none, waits := false } }))))) ∧
      (∀ k m, (∀ q ∈ s.nss, q.1 = k → q.2.nonce.wanted = some m) → exec (.markDurable (.nonce k)) s = .next (settle (go
        (modNs s k (fun n => { n with nonce := { n.nonce with mark := m, wanted := none, waits := false } }))))) ∧
      (∀ f m t, mget s.tenants f = some t → t.deferSeq.wanted = some m → exec (.markDurable (.deferSeq f)) s = .next (settle (go
        (modTenant s f (fun t => { t with deferSeq := { t.deferSeq with mark := m, wanted := none, waits := false } }))))))

/-- Relocation and patrol. In a die set with no copy begun the next victim, if there is one, begins: its live plane
pages are read, or, where nothing is live, it is released as R317 says; in one with copies begun each victim takes its
next step. When the patrol period has passed, bands age, and in each closed band the first codeword of row 0 of each
member in service that is not staged is read. (07_translation_and_wear.md R314, R317–R322; 08_map_durability.md R350.)
-/
def Obligations.RelocationsComplete : Prop :=
  (∀ (d : Nat) (ds : DieSet) (s : State), let s1 := judgeReloc s d; dsAt s1 d = some ds →
    let begun := s1.bands.filter (fun q => q.2.dieSet = d && q.2.victim.isSome);
    (∀ h b, begun = [] → nextVictim s1 d ds = some (h, b) → exec (.relocation d) s = .next (settle (pump (beginCopy s1 ds h b)))) ∧
    (begun = [] → nextVictim s1 d ds = none → exec (.relocation d) s = .next (settle s1)) ∧
    (begun ≠ [] → exec (.relocation d) s = .next (settle (pump (begun.foldl (fun s q => match bandAt s q.1 with
      | some b => (match b.victim with
        | some v => relocStep s q.1 b v
        | none => s)
      | none => s) s1))))) ∧
  (∀ s : State, let h := getF s .mape 0 F.MAPE_RETAIN_PATROL_H; let s1 := ageBands { s with patrolAt := s.now };
    h ≠ 0 → s.patrolAt + h * 3600000000000 ≤ s.now → exec .patrolTimer s = .next (settle ((s1.bands.filter (fun q => q.2.closed)).foldl
      (fun s q => (List.range q.2.size).foldl (fun s pos =>
        if dieOut s (q.2.die pos) || (stagedAtPua s (q.2.puaOf 0 pos 0)).isSome then s
        else startClimb s (q.2.puaOf 0 pos 0) 0 0 0 (.patrol q.1)) s) s1)))

/-- The sense inputs and GUARD, in a part that is not in its reset. A sample of VIN_SENSE, in mV and at most 1,000, is
kept, recorded and reported when it is low; the fifth in a row below PFW_MV begins the power-loss sequence when
PF_WARN is armed and has not been raised, and abandons a mode entry; any other lets GUARD be judged. A sample of
HOLD_SENSE is kept and recorded: the second in a row below its reset level resets the part, one that newly lies below
READY_MV raises HOLD_LOW and places the units not acknowledged, and one that no longer does ends what held admission.
GUARD ends EXIT_S after its last cause. (08_map_durability.md R355; 16_power_modes.md R610–R612; 17_thermal.md R631.)
-/
def Obligations.SupplySensesComplete : Prop :=
  (∀ (v : Nat) (s : State), s.mode ≠ .reset → let mv := min 1000 v; let s1 := guardJudge s;
    let t := modSense (recSupply (setF s1 .pwr 0 F.PWR_SENSE_VIN_MV mv) 17 mv) (senseVin s1 mv);
    let t2 := if mv < vinWarn s1 then raise t .pwr 0 F.PWR_INT_RAW_VIN_WARN else t;
    let x := t2.pwr.sense;
    (x.vinLow < 5 ∨ x.armed = false ∨ x.raised = true → exec (.vinSample v) s = .next (settle (guardJudge t2))) ∧
    (5 ≤ x.vinLow → x.armed = true → x.raised = false → let u := modSense t2 (fun x => { x with raised := true });
      exec (.vinSample v) s = .next (settle (lossStart .pfWarn none (if u.pwr.entry.isSome then entryAbort u else u))))) ∧
  (∀ (v : Nat) (s : State), s.mode ≠ .reset → let mv := min 1000 v; let s1 := recSupply (setF s .pwr 0 F.PWR_SENSE_HOLD_MV mv) 18 mv;
    (mv < holdReset s → s1.pwr.sense.holdRst = 0 → mv < holdReady s → s.holdLow = true →
      exec (.holdSample v) s = .next (settle { modSense s1 (fun x => { x with holdRst := x.holdRst + 1 }) with holdLow := true })) ∧
    (mv < holdReset s → 1 ≤ s1.pwr.sense.holdRst → exec (.holdSample v) s = .next (settle
      (partReset 3 0x20 0 0 (modSense s1 (fun x => { x with holdRst := x.holdRst + 1 }))))) ∧
    (holdReset s ≤ mv → let t := { modSense s1 (fun x => { x with holdRst := 0 }) with holdLow := decide (mv < holdReady s) };
      (s.holdLow = decide (mv < holdReady s) → exec (.holdSample v) s = .next (settle t)) ∧
      (s.holdLow = true → holdReady s ≤ mv → exec (.holdSample v) s = .next (settle (pump t))) ∧
      (s.holdLow = false → mv < holdReady s → let u := raise t .pwr 0 F.PWR_INT_RAW_HOLD_LOW;
        exec (.holdSample v) s = .next (settle (forceUnits u (unackedUnits u)))))) ∧
  (∀ s : State, s.mode = .guard → guardCause s = false →
    s.pwr.guardAt + max 1 (getF s .pwr 0 F.PWR_GUARD_CTRL_EXIT_S) * 1000000000 ≤ s.now →
    exec .guardExitTimer s = .next (settle (pump (raise (setF (setMode s .run) .qeng 0 F.QENG_THROTTLE_ACTIVE 0) .pwr 0 F.PWR_INT_RAW_GUARD_EXIT))))

/-- The power-loss sequence and the rails. Once the programs of the sequence have ended, what is staged in the journal
is flushed, the final marks are written and the fifth step begins; an orderly stop's part reset follows. The restart
of PF_WARN is a part reset of kind SUPPLY. A rail that is good lets the next of the sequence come on; when one is not
good after 2 ms those already on go off, and the part is reset. A regulator that answers without a fault bit is fine;
one that answers with one, or fails to answer twice in a row, is counted, reported with cause 0x02 and told to clear
it. A monitored rail's sample is recorded once the rail is armed; one low for 1 µs below its reset level resets the
part, one low for 10 µs below its warning level is reported, and any other lets GUARD be judged. (08_map_durability.md
R355, R356; 16_power_modes.md R605–R609, R613.) -/
def Obligations.RailsComplete : Prop :=
  (∀ (p : PlRun) (s : State), s.plRun = some p → p.step = 3 → p.ended = false → programsLeft s = false →
    let s1 := finalMarks (flushAll s (s.jr.staged.length + s.jr.flushing.length + 2)); let p1 := { p with step := 5, step4End := some s.now };
    exec .plProgramsDone s = .next (settle (lossEnd { s1 with
      plStat := ⟨true, true, 5, min 0xFFFF (ceilDiv (s.now - p.began) 1000000), 1⟩, plRun := some p1 } p1))) ∧
  (∀ (p : PlRun) (t o : Nat) (s : State), s.plRun = some p → p.cause = .pfWarn → p.step4End = some t → s.pwr.sense.okSince = some o →
    max t (o + 1000000) + 10000000 ≤ s.now → exec .plRestartTimer s = .next (settle (partReset 3 0x22 0 0 s))) ∧
  (∀ (i : Nat) (l : List Nat) (s : State), s.pwr.seq = i :: l →
    (let s1 := railOn s i;
      exec (.railGood i) s = .next (settle { s1 with pwr := { s1.pwr with seq := l, seqAt := s.now } })) ∧
    (s.pwr.seqAt + 2000000 ≤ s.now → exec .railGoodTimeout s = .next (settle (partReset 3 0x21 0 0 (blockError
      (railsOff s (railOrder.filter (fun i => (railAt s (railMon i)).on))) .pwr 0 3 0 i 0))))) ∧
  (∀ (addr page : Nat) (s : State), pmbPolled s addr page = true → let key := addr * 256 + page;
    let told (n w : Nat) : State := emit (raise (blockError (bump { s with pwr := { s.pwr with nacks := mput s.pwr.nacks key 0 n } } .pwr 0
      F.PWR_PMB_FAULTS_COUNT) .pwr 0 2 w key 0) .pwr 0 F.PWR_INT_RAW_PMB_FAULT) (.board "CLEAR_FAULTS" key);
    (∀ w, w &&& 0xF73F = 0 → exec (.pmbusPoll addr page (some w)) s =
      .next (settle { s with pwr := { s.pwr with nacks := mput s.pwr.nacks key 0 0 } })) ∧
    (∀ w, w &&& 0xF73F ≠ 0 → exec (.pmbusPoll addr page (some w)) s = .next (settle (told 0 w))) ∧
    (mgetD s.pwr.nacks key 0 = 0 → exec (.pmbusPoll addr page none) s =
      .next (settle { s with pwr := { s.pwr with nacks := mput s.pwr.nacks key 0 1 } })) ∧
    (mgetD s.pwr.nacks key 0 = 1 → exec (.pmbusPoll addr page none) s = .next (settle (told 0 0xFFFF)))) ∧
  (∀ (i mv : Nat) (s0 : State), let s := guardJudge s0; let r := railAt s i; railWatched s i = true → r.on = true →
    let r1 := railNext s i mv r; let s1 := setRail (if railArmed s r then recSupply s i mv else s) i r1;
    ((∃ t, r1.resetSince = some t ∧ t + 1000 ≤ s.now) → exec (.railSample i mv) s0 =
      .next (settle (if i = 0 then partReset 1 0 0 0 s1 else partReset 3 i 0 0 s1))) ∧
    ((∀ t, r1.resetSince = some t → s.now < t + 1000) →
      ((∃ t, r1.warnSince = some t ∧ t + 10000 ≤ s.now) → r1.warned = false →
        let s2 := raise (blockError (setRail s1 i { r1 with warned := true }) .pwr 0 1 mv i 0) .pwr 0 F.PWR_INT_RAW_RAIL_WARN;
        exec (.railSample i mv) s0 = .next (settle (resumeAfter s2 (guardJudge (wakeEvent 6 s2))))) ∧
      ((∀ t, r1.warnSince = some t → s.now < t + 10000) ∨ r1.warned = true →
        exec (.railSample i mv) s0 = .next (settle (guardJudge s1)))))

/-- Entering DOZE and HOLD. With DOZE or HOLD asked for and nothing under way for DOZE_IDLE_MS the entry begins: the
flash stops, its erases go back to be given again, and units not programmed are placed. Once the programs have ended,
what is staged in the journal is flushed, the connections of a HOLD entry end, and the mode is entered, or the entry
is abandoned when WAKE_N, whose level is not stated (log 190), is low by then and would wake the part.
(16_power_modes.md R594–R596, R603, R614.) -/
def Obligations.ModeEntriesComplete : Prop :=
  ∀ s : State,
    (let t := getF s .pwr 0 F.PWR_MODE_CTRL_PS;
      t = 1 ∨ t = 2 → entryIdle s = true →
      let s1 := stopReloc (stopFlash { s with pwr := { s.pwr with entry := some t } });
      let s2 := { s1 with feeds := s1.feeds ++ (allErases s).map (fun o => { o with since := 0, ran := 0, nsusp := 0, entered := 0, counted := false }) };
      exec .modeEntryStart s = .next (settle (forceUnits s2 (lossUnits s2)))) ∧
    (∀ t, s.pwr.entry = some t → programsLeft s = false → let low : Prop := (Config.freeWord s.free).toNat % 2 = 0;
      let s1 := flushAll { s with free := s.free + 1 } (s.jr.staged.length + s.jr.flushing.length + 2); let s2 := if t = 2 then dropHosts s1 else s1;
      (¬ low ∨ wakeSource s t 4 = false → exec .modeEntryCommit s = .next (settle (entryEnd s2 t))) ∧
      (low → wakeSource s t 4 = true → exec .modeEntryCommit s = .next (settle (resumeAfter s (entryAbort s2)))))

/-- Wakes. A frame on an enabled port with FRAME_WAKE whose key is the port's committed one wakes the part from DOZE
while the link is up, and from HOLD when energy has started the port. Energy on a lane with ENERGY_WAKE wakes it from
HOLD; with FRAME_WAKE alone it starts that port for 100 ms, the rails it needs coming on unless the other port runs,
and after the 100 ms the port is off again, and the rails when no other is started. WAKE_N wakes it from both when it
is enabled, and so does the end of the always-on timer, which is recorded in any case. A wake source that would wake
from the mode being entered abandons the entry. A lane that was late at a wake has its flash dies checked as its
training ends. (03_ethernet_transport.md R141–R144; 16_power_modes.md R590, R596, R598–R604.) -/
def Obligations.WakesComplete : Prop :=
  (∀ (p : Fin 2) (key : Nat) (late : List Nat) (s : State),
    (key ≠ 0 → (eth s p).wakeKey = key → getF s .eth p F.ETH_WAKE_CTRL_FRAME_WAKE = 1 → getF s .eth p F.ETH_PORT_CTRL_ENABLE = 1 →
      (s.mode = .doze → (eth s p).linkUp = true → exec (.wakeFrame p key late) s = .next (settle (resumeAfter s (wakeCommon s 3)))) ∧
      (s.mode = .hold → (eth s p).serdesUntil ≠ none → exec (.wakeFrame p key late) s = .next (settle (resumeAfter s (holdWake s 3 late))))) ∧
    (s.mode = .hold → getF s .eth p F.ETH_WAKE_CTRL_ENERGY_WAKE = 1 →
      exec (.energyDetect p late) s = .next (settle (resumeAfter s (holdWake s 2 late)))) ∧
    (s.mode = .hold → getF s .eth p F.ETH_WAKE_CTRL_ENERGY_WAKE = 0 → getF s .eth p F.ETH_WAKE_CTRL_FRAME_WAKE = 1 →
      (eth s p).serdesUntil = none → exec (.energyDetect p late) s = .next (settle
        (modEth (if portsStarted s then s else railsOn s portRails) p (fun e => { e with serdesUntil := some (s.now + 100000000) })))) ∧
    (∀ t, s.mode = .hold → (eth s p).serdesUntil = some t → t ≤ s.now → let s1 := modEth s p (fun e => { e with serdesUntil := none });
      exec (.portWakeTimeout p) s = .next (settle (if portsStarted s1 then s1 else railsOff s1 portRails)))) ∧
  (∀ (late : List Nat) (s : State), getF s .pwr 0 F.PWR_WAKE_EN_WAKE_N = 1 →
    (s.mode = .doze → exec (.wakeN late) s = .next (settle (resumeAfter s (wakeCommon s 4)))) ∧
    (s.mode = .hold → exec (.wakeN late) s = .next (settle (resumeAfter s (holdWake s 4 late)))) ∧
    (∀ t, s.mode = .run → s.pwr.entry = some t → exec (.wakeN late) s = .next (settle (resumeAfter s (entryAbort s))))) ∧
  (∀ (late : List Nat) (t : Nat) (s : State), s.aon.timer = some t → t ≤ s.now →
    let s1 := raise { s with aon := { s.aon with timer := none } } .pwr 0 F.PWR_INT_RAW_TIMER;
    (s.mode = .run → s.pwr.entry = none → exec (.timerExpiry late) s = .next (settle (resumeAfter s1 s1))) ∧
    (getF s1 .pwr 0 F.PWR_WAKE_EN_TIMER = 1 →
      (s.mode = .doze → exec (.timerExpiry late) s = .next (settle (resumeAfter s1 (wakeCommon s1 5)))) ∧
      (s.mode = .hold → exec (.timerExpiry late) s = .next (settle (resumeAfter s1 (holdWake s1 5 late)))))) ∧
  (∀ (f : LaneFind) (s : State), (∃ q ∈ s.dies, q.1 / 32 = f.lane ∧ q.2.st = .bringUp) →
    exec (.warmBringUpDone f) s = .next (settle (pump (laneUp s f))))

/-- Temperatures. A sample of a channel that the part samples is recorded, sets its channel and makes its reports; a
WARN newly reached is a wake source; and the stage is judged; the second sample in a row at or above 115 °C on a
channel of the part itself has the effect of the hard limit besides. When the grace time of NOTIFY has passed with
THROT still reached and no CRIT, the stage becomes ENFORCE. When SHDN_MS has passed since the critical stop began, the
work left is abandoned and THERM_SHDN_N is driven low. How a diode's and a thermistor's measures give a reading, and
how a half is rounded, are the choices of logs 12 and 174. (17_thermal.md R623–R635.) -/
def Obligations.TemperaturesComplete : Prop :=
  (∀ (c : Fin 32) (v : Int) (bad : Bool) (s : State), chSampled s c = true → let s1 := thermTime s;
    let raw := rawReading s1 c v bad; let new := chNext s1 c (faultCode c v bad raw) raw; let old := chAt s1 c;
    let s2 := sampleReports (setCh (recTemp s1 (chGroup s1 c) new.eff 4) c new) c old new;
    let warned := new.got.getD 0 false && !old.got.getD 0 false;
    let s3 := judgeStage (judgeCrit1 (if warned then resumeAfter s2 (wakeEvent 6 s2) else s2));
    (new.limit ≠ 2 → exec (.thmSample c v bad) s = .next (settle s3)) ∧
    (new.limit = 2 → exec (.thmSample c v bad) s = .next (settle (hardLimit s3 c)))) ∧
  (∀ s : State, let s1 := thermTime s;
    s.stage = .notify → anyLevel s1 2 = false → anyLevel s1 1 = true → s1.therm.stageAt + graceNs s1 ≤ s.now →
    exec .graceExpiry s = .next (settle (enterEnforce s1))) ∧
  (∀ (t : Nat) (s : State), s.therm.stop = some t → s.therm.shdn = false →
    t + max 1 (getF s .thm 0 F.THM_THR_CTRL_SHDN_MS) * 1000000 ≤ s.now → exec .shdnBudgetExpiry s = .next (settle
      (shdnLow { s with plRun := s.plRun.map (fun p => { p with ended := true }) })))

/-- Seconds and minutes. A second of POS counts: while the recorder runs it brings metering samples, ages bands and
makes the recorder's copy; elsewhere POS and the count of part cycles are saved, and in DOZE and HOLD the metering
samples are taken. A minute that ends is closed while the recorder runs, noted in DOZE and HOLD, and passed over
elsewhere. A freeze ends FREEZE_MAX_S after it began: the held records follow, and the end is reported. METER_READ
with room for its answer returns the records of its tenants and marks them read. That POS is saved in every second of
DOZE and HOLD is the choice of log 175. (18_recorder_and_metering.md R643–R663.) -/
def Obligations.RecordsComplete : Prop :=
  (∀ s : State, s.aon.posAt + 1000000000 ≤ s.now →
    let s1 := { s with pos := min 0xFFFFFFFFFF (s.pos + 1), aon := { s.aon with posAt := s.aon.posAt + 1000000000 } };
    (recRuns s = true → let s2 := ageBands (meterSecond s1); let groups := ((List.range 32).filter (chOn s2)).map (chGroup s2);
      exec .posTick s = .next (settle (recCopy
        (if s2.pos % (60 * max 1 (getF s2 .recd 0 F.REC_CFG_PERIOD_MIN)) = 0 then periodClose s2 groups else s2)))) ∧
    (recRuns s = false → let s2 := { s1 with recd := { s1.recd with savedPos := s1.pos, savedPcyc := s1.pcyc } };
      exec .posTick s = .next (settle (if s.mode = .doze ∨ s.mode = .hold then meterSecond s2 else s2)))) ∧
  (∀ (w : Nat) (s : State), wallNow s = some w → let m := s.meter.minute; m + 1 ≤ w / 60 →
    let passed (u : State) : State := { u with meter := { u.meter with minute := m + 1 } };
    (recRuns s = true → exec .minuteBoundary s = .next (settle (passed (closeMinute s m false)))) ∧
    (s.mode = .doze ∨ s.mode = .hold → exec .minuteBoundary s = .next (settle (passed (noteMinute s m)))) ∧
    (recRuns s = false → s.mode ≠ .doze → s.mode ≠ .hold → exec .minuteBoundary s = .next (settle (passed s)))) ∧
  (∀ (t : Nat) (s : State), s.recd.frozenAt = some t → t + max 1 (getF s .recd 0 F.REC_CFG_FREEZE_MAX_S) * 1000000000 ≤ s.now →
    exec .freezeTimeout s = .next (settle (raise (recUnfreeze s) .recd 0 F.REC_INT_RAW_FREEZE_END))) ∧
  (∀ (q : Capsule) (s : State), Ready s q fnMF → let s1 := served s fnMF; let first := bitsOf q.dw10 8 0; let count := bitsOf q.dw11 9 0;
    OnlyBits q [0x1FF, 0x3FF, 0, 0, 0, 0] → 0 < count → first + count ≤ 512 → 3856 * count ≤ q.len →
    let s2 := postOk s1 q.conn q.cid 0 (((List.range count).map (fun i => meterTenant s1 (first + i))).flatten);
    exec (.meterRead q) s = .next (settle { s2 with meter := { s2.meter with rings := s2.meter.rings.map (fun p =>
      if first ≤ p.1 && p.1 < first + count then (p.1, p.2.map (fun r => { r with read := true })) else p) } }))

/-- The firmware commands of MF. A download of whole 4 KiB pieces that follows on what the buffer holds, or begins it
anew, is stored, and DL_STAT tells how much. A commit of a good firmware package to the slot that is not running,
whose write reads back, writes the slot, and action 1 makes it NEXT on trial besides; one that selects a valid slot
makes it NEXT; one that activates a good package begins the hold, which ends at most 80 ms later.
(04_commands_and_ordering.md R188; 20_boot_and_firmware.md R701, R702.) -/
def Obligations.FirmwareCommandsComplete : Prop :=
  ∀ (q : Capsule) (s : State), Ready s q fnMF → let s1 := served s fnMF;
    (∀ data, OnlyBits q [0xFFFFFFFF, 0xFFFFFFFF, 0, 0, 0, 0] →
      let n := (q.dw10 + 1) * 4; let held := if q.dw11 = 0 then [] else s1.dlBuf;
      n % 4096 = 0 → q.dw11 % 1024 = 0 → q.dw11 * 4 = held.length → held.length + n ≤ 8388608 → n ≤ 2097152 → n ≤ q.len →
      let b := held ++ fitBytes n data;
      exec (.firmwareImageDownload q data) s = .next (settle (postOk (setF { s1 with dlBuf := b } .fwp 0 F.FWP_DL_STAT_BYTES b.length)
        q.conn q.cid 0 []))) ∧
    (∀ k, OnlyBits q [0x3F, 0, 0, 0, 0, 0] → fwSlot s1 q = some k → let passed := fwPassed s1;
      (k ≠ fwRunning s1 → bufCheck s1 [1] = none → let w := slotWrite (slotClear passed k) k (slotClear passed k).dlBuf;
        (∀ p, bitsOf q.dw10 5 3 = 0 → pkgKind s1.dlBuf ≠ 2 → exec (.fwCommitReplace q p .matched) s = .next (settle (fwDone w q stOk))) ∧
        (bitsOf q.dw10 5 3 = 1 → exec (.fwCommitReplaceTrial q .matched) s = .next (settle (fwDone (fwNext w k true) q stOk)))) ∧
      (bitsOf q.dw10 5 3 = 2 → slotValid s1 k = true → exec (.fwCommitSelectNext q) s =
        .next (settle (fwDone (fwNext s1 k (decide (k ≠ fwRunning s1))) q stOk))) ∧
      (bitsOf q.dw10 5 3 = 3 → k ≠ fwRunning s1 → slotValid s1 k = true → let b := mgetD s1.slots k [];
        pkgReason [1] (svnMin s1) b = none → ∀ us good ue, exec (.fwCommitActivate q us ⟨good, ue⟩) s = .next (settle (setF
          { passed with
            arb := { s1.arb with holdFrom := s1.nextCmd, holdTo := s1.nextCmd }
            fwHold := some ⟨k, good, pkgSvn b, imageBytes b, ue, q.conn, q.cid, s1.now, s1.now + min 80000 us * 1000⟩ }
          .cfe 0 F.CFE_STAT_HOLDING 1))))

/-- SERVICE mode. A good board profile package is sealed for the next start-up; a debug token that verifies zeroes
Sorrel's keys, shows its scope and makes a new challenge, as one that does not verify also does after it is counted;
with no tenant and no die set left, PROVISION_RESET forgets the geometry, the flash dies' records and the units out of
service other than cipher cores, and keeps the erase counts with the unique IDs. (20_boot_and_firmware.md R702, R703,
R705, R706, R708.) -/
def Obligations.ServiceCommandsComplete : Prop :=
  ∀ (q : Capsule) (s : State), ServiceReady s q → let s1 := served s fnMF;
    (∀ p w, OnlyBits q [0x3F, 0, 0, 0, 0, 0] → bitsOf q.dw10 5 3 = 0 → pkgKind s1.dlBuf = 2 → bufCheck s1 [2] = none →
      exec (.fwCommitReplace q p w) s = .next (settle (fwDone { fwPassed s1 with sealedProfile := some p } q stOk))) ∧
    (OnlyBits q [0, 0, 0, 0, 0, 0] →
      (∀ data, 256 ≤ q.len → let t := fitBytes 256 data;
        (debugOk s1 t = true → exec (.debugToken q data) s = .next (settle (postOk (newChallenge (setF (setF (setF (zeroKeys s1)
          .dbg 0 F.DBG_TOKEN_ACCEPTED 1) .dbg 0 F.DBG_TOKEN_SINCE_POR 1) .dbg 0 F.DBG_TOKEN_SCOPE (pkgField t 4 1 % 4))) q.conn q.cid 0 []))) ∧
        (debugOk s1 t = false → exec (.debugToken q data) s =
          .next (settle (postSt (newChallenge (bump s1 .dbg 0 F.DBG_FAILS_COUNT)) q.conn q.cid stInvalidField)))) ∧
      ((∀ t ∈ s.tenants, t.2.state = .free) → s.diesets = [] → exec (.provisionReset q) s = .next (settle (postOk
        { s1 with geometry := false, oos := { cores := s1.oos.cores }, eraseBook := keepErases s1, blks := [], dieRecs := [] } q.conn q.cid 0 []))))

/-- Resets and start-up. RESET_N, POR and, outside the reset, a failed health test take a part reset of their kind; a
watchdog begins an orderly stop; a stop that has lasted STOP_MS before its fourth step ended takes its reset. START_UP
after a part reset starts up: with no image in either slot into SERVICE with cause 7, with an image and a cause into
SERVICE with it, else into RUN; a word of the code SRAM that is uncorrectable as the image starts resets the part
again. A namespace whose recovery ends in RUN or GUARD becomes ready. Which of several causes stands is the choice of
log 15, and that the code SRAM's words are read here that of log 173. (12_sorrel_keys_cipher.md R460;
08_map_durability.md R358, R362; 19_faults_and_resets.md R678, R682; 20_boot_and_firmware.md R688–R696.) -/
def Obligations.ResetsAndStartUpComplete : Prop :=
  (∀ s : State,
    exec .resetN s = .next (settle (partReset 2 0 0 0 s)) ∧ exec .por s = .next (settle (partReset 1 0 0 0 s)) ∧
    (s.mode ≠ .reset → exec .healthTestFail s = .next (settle (partReset 5 0x2000 0 0 s))) ∧
    (∀ core, s.mode = .run ∨ s.mode = .guard ∨ s.mode = .service → exec (.watchdogExpiry core) s =
      .next (settle (lossStart (.orderly 6 (core % 16)) (some (6, core % 16, s.now)) s))) ∧
    (∀ p kind detail t, s.plRun = some p → p.budget = some (kind, detail, t) → p.step < 5 → t + stopBudget s ≤ s.now →
      exec .stopBudgetExpiry s = .next (settle (partReset kind (if kind = 6 then detail + 16 else detail) 0 0 s))) ∧
    (∀ (k : Fin 1024) n, nsAt s k = some n → n.recovered = false → s.mode = .run ∨ s.mode = .guard →
      exec (.namespaceReady k) s = .next (settle (recoveryEnd (modNs s k (fun n => { n with recovered := true })))))) ∧
  (∀ (e : StartEnv) (s : State), s.mode = .reset →
    let s1 := unsealKeys e (e.badCores.eraseDups.foldl coreFails (selfTests e (logReset s)));
    let b := bootImage e.nor ((s1.tenants.map Prod.fst).foldl tenantBack (newChallenge s1));
    (∀ img, b.2 = some img → let s2 := loadConfig (takeProfile e b.1); let cause := svcCause e true s2;
      (∀ off, e.codeUe = some off → exec (.startUp e) s = .next (settle (codeReset off s2))) ∧
      (e.codeUe = none → let s3 := { s2 with pwr := { s2.pwr with seq := [] }, gpioExt := e.gpio % 65536 };
        let ready := gpioFirst (bringUp e cause img (railsOn s3 (startRails cause)));
        (cause = 0 → exec (.startUp e) s = .next (settle (enterRun e ready))) ∧
        (cause ≠ 0 → exec (.startUp e) s = .next (settle (enterService cause ready))))) ∧
    (b.2 = none → let s3 := { b.1 with pwr := { b.1.pwr with seq := [] }, gpioExt := e.gpio % 65536 };
      exec (.startUp e) s = .next (settle (enterService 7 (gpioFirst (railsOn s3 (startRails 7)))))))

/-- WP_n of a tile is high exactly while the tile is in service in RUN or GUARD and step 4 of the power-loss sequence
has not ended. The board's levels at the pads of GPIO, while the page runs and its pads are not held, are sampled into
IN where no enabled output drives them, and each selected edge sets its bit of INT_RAW; while it does not run or they
are held, nothing but the levels at the pads changes. When the sideband hears it, an assigned address is shown and
raises its interrupt, and with an address assigned IBI is enabled or disabled; what it does not hear has no effect.
(02_register_pages.md R92, R95; 09_flash_lanes_thyme.md R372; 16_power_modes.md R603; 21_pins_and_electrical.md
R739–R742.) -/
def Obligations.PinsAndSidebandEventsComplete : Prop :=
  (∀ (t : Fin 4) (s : State), pinState s (.wp t) = .high ↔ (s.mode = .run ∨ s.mode = .guard) ∧ t.val ∉ s.oos.tiles ∧
    ∀ p, s.plRun = some p → p.step4End = none) ∧
  (∀ (levels : BitVec 16) (s : State), s.mode ≠ .hold → s.mode ≠ .reset → getF s .pwr 0 F.PWR_PAD_HOLD_GPIO = 0 →
    let old := getF s .gpio 0 F.GPIO_IN_LEVEL; let en := getF s .gpio 0 F.GPIO_OUT_EN_EN;
    let new := (getF s .gpio 0 F.GPIO_OUT_LEVEL &&& en) + (levels.toNat - (levels.toNat &&& en));
    exec (.gpioEdge levels) s = .next (settle (setF (setF { s with gpioExt := levels.toNat } .gpio 0 F.GPIO_IN_LEVEL new) .gpio 0
      F.GPIO_INT_RAW_EDGE (getF s .gpio 0 F.GPIO_INT_RAW_EDGE ||| ((new - (new &&& old)) &&& getF s .gpio 0 F.GPIO_EDGE_CFG_RISE)
        ||| ((old - (new &&& old)) &&& getF s .gpio 0 F.GPIO_EDGE_CFG_FALL))))) ∧
  (∀ (levels : BitVec 16) (s : State), s.mode = .hold ∨ s.mode = .reset ∨ getF s .pwr 0 F.PWR_PAD_HOLD_GPIO ≠ 0 →
    exec (.gpioEdge levels) s = .next (settle { s with gpioExt := levels.toNat })) ∧
  (∀ s : State, cccHears s = false → (∀ a : Fin 128, exec (.i3cAddressAssign a) s = .next (settle s)) ∧
    ∀ on : Bool, exec (.i3cIbiEnable on) s = .next (settle s)) ∧
  (∀ s : State, cccHears s = true → let i3c := setF s .mgt 0 F.MGT_SB_STAT_MODE 1;
    (∀ a : Fin 128, exec (.i3cAddressAssign a) s = .next (settle (raise (setF (setF i3c .mgt 0 F.MGT_SB_STAT_DYN_ADDR a) .mgt 0
      F.MGT_SB_STAT_DA_VALID 1) .mgt 0 F.MGT_INT_RAW_DA_ASSIGNED))) ∧
    (∀ on : Bool, getF s .mgt 0 F.MGT_SB_STAT_DA_VALID = 1 →
      exec (.i3cIbiEnable on) s = .next (settle (setF i3c .mgt 0 F.MGT_SB_STAT_IBI_ON on.toNat))))
end

