-- ==== Sys2Proof/Laws/Crypto.lean ====
section
/-! SUPPORT. The shape of byte strings: what little- and big-endian bytes and an authentication tag look like. -/

namespace Sys2Proof.Machine

@[simp] theorem leBytes_length (n v : Nat) : (leBytes n v).length = n := by
  induction n generalizing v with
  | zero => rfl
  | succ n ih => simp [leBytes, ih]

theorem leBytes_lt {n v x : Nat} (h : x ∈ leBytes n v) : x < 256 := by
  induction n generalizing v with
  | zero => cases h
  | succ n ih =>
    rcases List.mem_cons.mp h with rfl | h
    · exact Nat.mod_lt _ (by decide)
    · exact ih h

@[simp] theorem beBytes_length (n v : Nat) : (beBytes n v).length = n := by simp [beBytes]

theorem beBytes_lt {n v x : Nat} (h : x ∈ beBytes n v) : x < 256 := leBytes_lt (List.mem_reverse.mp h)

@[simp] theorem gcmTag_length (key iv aad ct : List Nat) : (gcmTag key iv aad ct).length = 16 := by
  unfold gcmTag
  exact beBytes_length ..

theorem gcmTag_lt {key iv aad ct : List Nat} {x : Nat} (h : x ∈ gcmTag key iv aad ct) : x < 256 := by
  unfold gcmTag at h
  exact beBytes_lt h

end Sys2Proof.Machine
end

