-- ==== Sys2Proof/Laws/Store.lean ====
section
/-! SUPPORT. Sparse maps: a read after a write, and that every operation keeps the keys strictly rising. -/

namespace Sys2Proof.Machine

theorem mget_mset_same {α : Type} (m : FMap α) (k : Nat) (v : α) : mget (mset m k v) k = some v := by
  induction m with
  | nil => simp [mset, mget]
  | cons a t ih =>
    unfold mset
    split
    · simp [mget]
    · split
      · simp [mget]
      · rename_i h1 h2
        simp only [mget, if_neg h2]
        exact ih

theorem mget_mset_ne {α : Type} (m : FMap α) (k j : Nat) (v : α) (h : j ≠ k) : mget (mset m k v) j = mget m j := by
  induction m with
  | nil => simp [mset, mget, h]
  | cons a t ih =>
    unfold mset
    split
    · simp [mget, h]
    · split
      · rename_i h1 h2
        subst h2
        simp [mget, h]
      · simp only [mget]
        rw [ih]

theorem mget_mdel_ne {α : Type} (m : FMap α) (k j : Nat) (h : j ≠ k) : mget (mdel m k) j = mget m j := by
  induction m with
  | nil => rfl
  | cons a t ih =>
    unfold mdel at ih ⊢
    rw [List.filter_cons]
    split
    · simp only [mget]
      rw [ih]
    · rename_i h1
      have : a.1 = k := by simpa using h1
      simp only [mget, this, if_neg h]
      exact ih

theorem mget_mdel_same {α : Type} (m : FMap α) (k : Nat) : mget (mdel m k) k = none := by
  induction m with
  | nil => rfl
  | cons a t ih =>
    unfold mdel at ih ⊢
    rw [List.filter_cons]
    split
    · rename_i h1
      have h2 : a.1 ≠ k := by simpa using h1
      simp only [mget, if_neg (Ne.symm h2)]
      exact ih
    · exact ih

@[simp] theorem mgetD_mset_same {α : Type} (m : FMap α) (k : Nat) (v d : α) : mgetD (mset m k v) k d = v := by
  simp [mgetD, mget_mset_same]

theorem mgetD_mset_ne {α : Type} (m : FMap α) (k j : Nat) (v d : α) (h : j ≠ k) : mgetD (mset m k v) j d = mgetD m j d := by
  simp [mgetD, mget_mset_ne m k j v h]

@[simp] theorem mgetD_mput_same {α : Type} [DecidableEq α] (m : FMap α) (k : Nat) (d v : α) : mgetD (mput m k d v) k d = v := by
  unfold mput
  split
  · rename_i h
    simp [mgetD, mget_mdel_same, h]
  · simp

theorem mgetD_mput_ne {α : Type} [DecidableEq α] (m : FMap α) (k j : Nat) (d v e : α) (h : j ≠ k) :
    mgetD (mput m k d v) j e = mgetD m j e := by
  unfold mput
  split
  · simp [mgetD, mget_mdel_ne m k j h]
  · exact mgetD_mset_ne m k j v e h

theorem mget_mput_ne {α : Type} [DecidableEq α] (m : FMap α) (k j : Nat) (d v : α) (h : j ≠ k) : mget (mput m k d v) j = mget m j := by
  unfold mput
  split
  · exact mget_mdel_ne m k j h
  · exact mget_mset_ne m k j v h

/-! ### Strictly rising keys -/

theorem mset_keys {α : Type} (m : FMap α) (k j : Nat) (v : α) (h : j ∈ (mset m k v).map Prod.fst) :
    j = k ∨ j ∈ m.map Prod.fst := by
  induction m with
  | nil => simpa [mset] using h
  | cons a t ih =>
    unfold mset at h
    split at h
    · simpa using h
    · split at h
      · rename_i h2
        rcases List.mem_cons.mp h with h | h
        · exact .inl h
        · exact .inr (List.mem_cons_of_mem _ h)
      · rcases List.mem_cons.mp h with h | h
        · exact .inr (by simp [h])
        · rcases ih h with h | h
          · exact .inl h
          · exact .inr (List.mem_cons_of_mem _ h)

theorem mset_wf {α : Type} (m : FMap α) (k : Nat) (v : α) (h : Mwf m) : Mwf (mset m k v) := by
  induction m with
  | nil => simp [mset, Mwf]
  | cons a t ih =>
    obtain ⟨h1, h2⟩ := List.pairwise_cons.mp h
    unfold mset
    split
    · rename_i hk
      refine List.pairwise_cons.mpr ⟨?_, h⟩
      intro b hb
      rcases List.mem_cons.mp hb with hb | hb
      · rw [hb]
        exact hk
      · exact Nat.lt_trans hk (h1 b hb)
    · split
      · rename_i hk
        refine List.pairwise_cons.mpr ⟨?_, h2⟩
        intro b hb
        rw [hk]
        exact h1 b hb
      · rename_i hk hk'
        refine List.pairwise_cons.mpr ⟨?_, ih h2⟩
        intro b hb
        rcases mset_keys t k b v hb with hb | hb
        · subst hb
          exact Nat.lt_of_le_of_ne (Nat.le_of_not_lt hk) (Ne.symm hk')
        · exact h1 b hb

theorem mdel_wf {α : Type} (m : FMap α) (k : Nat) (h : Mwf m) : Mwf (mdel m k) := by
  unfold Mwf mdel
  exact List.Pairwise.sublist (List.filter_sublist.map Prod.fst) h

theorem mput_wf {α : Type} [DecidableEq α] (m : FMap α) (k : Nat) (d v : α) (h : Mwf m) : Mwf (mput m k d v) := by
  unfold mput
  split
  · exact mdel_wf m k h
  · exact mset_wf m k v h

theorem mmod_wf {α : Type} (m : FMap α) (k : Nat) (f : α → α) (h : Mwf m) : Mwf (mmod m k f) := by
  unfold Mwf mmod
  rw [List.map_map]
  have : (Prod.fst ∘ fun p : Nat × α => if p.1 = k then (p.1, f p.2) else p) = Prod.fst := by
    funext p
    simp only [Function.comp]
    split <;> rfl
  rw [this]
  exact h

end Sys2Proof.Machine
end

