-- ==== Sys2Proof/Laws/State.lean ====
section
/-! SUPPORT. What each update of the state leaves alone: one lemma per field and update, true by definition; and what a
register word or field reads after a write of it. -/

namespace Sys2Proof.Machine

/-! ### emit -/

@[simp] theorem emit_pending (s : State) (o : Out) : (emit s o).pending = s.pending := rfl
@[simp] theorem emit_now (s : State) (o : Out) : (emit s o).now = s.now := rfl
@[simp] theorem emit_free (s : State) (o : Out) : (emit s o).free = s.free := rfl
@[simp] theorem emit_regs (s : State) (o : Out) : (emit s o).regs = s.regs := rfl
@[simp] theorem emit_mode (s : State) (o : Out) : (emit s o).mode = s.mode := rfl
@[simp] theorem emit_pos (s : State) (o : Out) : (emit s o).pos = s.pos := rfl
@[simp] theorem emit_pcyc (s : State) (o : Out) : (emit s o).pcyc = s.pcyc := rfl
@[simp] theorem emit_flog (s : State) (o : Out) : (emit s o).flog = s.flog := rfl
@[simp] theorem emit_oos (s : State) (o : Out) : (emit s o).oos = s.oos := rfl
@[simp] theorem emit_mgmt (s : State) (o : Out) : (emit s o).mgmt = s.mgmt := rfl
@[simp] theorem emit_nims (s : State) (o : Out) : (emit s o).nims = s.nims := rfl
@[simp] theorem emit_eth (s : State) (o : Out) : (emit s o).eth = s.eth := rfl
@[simp] theorem emit_ifs (s : State) (o : Out) : (emit s o).ifs = s.ifs := rfl
@[simp] theorem emit_conns (s : State) (o : Out) : (emit s o).conns = s.conns := rfl
@[simp] theorem emit_txWait (s : State) (o : Out) : (emit s o).txWait = s.txWait := rfl
@[simp] theorem emit_tslots (s : State) (o : Out) : (emit s o).tslots = s.tslots := rfl
@[simp] theorem emit_ctrls (s : State) (o : Out) : (emit s o).ctrls = s.ctrls := rfl
@[simp] theorem emit_tenants (s : State) (o : Out) : (emit s o).tenants = s.tenants := rfl
@[simp] theorem emit_nss (s : State) (o : Out) : (emit s o).nss = s.nss := rfl
@[simp] theorem emit_nsKeys (s : State) (o : Out) : (emit s o).nsKeys = s.nsKeys := rfl
@[simp] theorem emit_keyGen (s : State) (o : Out) : (emit s o).keyGen = s.keyGen := rfl
@[simp] theorem emit_lostSlots (s : State) (o : Out) : (emit s o).lostSlots = s.lostSlots := rfl
@[simp] theorem emit_nextKey (s : State) (o : Out) : (emit s o).nextKey = s.nextKey := rfl
@[simp] theorem emit_keyRecs (s : State) (o : Out) : (emit s o).keyRecs = s.keyRecs := rfl
@[simp] theorem emit_sealCtr (s : State) (o : Out) : (emit s o).sealCtr = s.sealCtr := rfl
@[simp] theorem emit_spdm (s : State) (o : Out) : (emit s o).spdm = s.spdm := rfl
@[simp] theorem emit_mfEnroll (s : State) (o : Out) : (emit s o).mfEnroll = s.mfEnroll := rfl
@[simp] theorem emit_secs (s : State) (o : Out) : (emit s o).secs = s.secs := rfl
@[simp] theorem emit_cores (s : State) (o : Out) : (emit s o).cores = s.cores := rfl
@[simp] theorem emit_cjobs (s : State) (o : Out) : (emit s o).cjobs = s.cjobs := rfl
@[simp] theorem emit_cctx (s : State) (o : Out) : (emit s o).cctx = s.cctx := rfl
@[simp] theorem emit_savedRegs (s : State) (o : Out) : (emit s o).savedRegs = s.savedRegs := rfl
@[simp] theorem emit_savedIfs (s : State) (o : Out) : (emit s o).savedIfs = s.savedIfs := rfl
@[simp] theorem emit_cmds (s : State) (o : Out) : (emit s o).cmds = s.cmds := rfl
@[simp] theorem emit_nextCmd (s : State) (o : Out) : (emit s o).nextCmd = s.nextCmd := rfl
@[simp] theorem emit_held (s : State) (o : Out) : (emit s o).held = s.held := rfl
@[simp] theorem emit_adminWaits (s : State) (o : Out) : (emit s o).adminWaits = s.adminWaits := rfl
@[simp] theorem emit_diesets (s : State) (o : Out) : (emit s o).diesets = s.diesets := rfl
@[simp] theorem emit_bands (s : State) (o : Out) : (emit s o).bands = s.bands := rfl
@[simp] theorem emit_bandCtr (s : State) (o : Out) : (emit s o).bandCtr = s.bandCtr := rfl
@[simp] theorem emit_blks (s : State) (o : Out) : (emit s o).blks = s.blks := rfl
@[simp] theorem emit_staged (s : State) (o : Out) : (emit s o).staged = s.staged := rfl
@[simp] theorem emit_nextUnit (s : State) (o : Out) : (emit s o).nextUnit = s.nextUnit := rfl
@[simp] theorem emit_nextAck (s : State) (o : Out) : (emit s o).nextAck = s.nextAck := rfl
@[simp] theorem emit_flash (s : State) (o : Out) : (emit s o).flash = s.flash := rfl
@[simp] theorem emit_holdLow (s : State) (o : Out) : (emit s o).holdLow = s.holdLow := rfl
@[simp] theorem emit_jr (s : State) (o : Out) : (emit s o).jr = s.jr := rfl
@[simp] theorem emit_ckpts (s : State) (o : Out) : (emit s o).ckpts = s.ckpts := rfl
@[simp] theorem emit_tabCkpt (s : State) (o : Out) : (emit s o).tabCkpt = s.tabCkpt := rfl
@[simp] theorem emit_patrolAt (s : State) (o : Out) : (emit s o).patrolAt = s.patrolAt := rfl
@[simp] theorem emit_feeds (s : State) (o : Out) : (emit s o).feeds = s.feeds := rfl
@[simp] theorem emit_dies (s : State) (o : Out) : (emit s o).dies = s.dies := rfl
@[simp] theorem emit_tileRes (s : State) (o : Out) : (emit s o).tileRes = s.tileRes := rfl
@[simp] theorem emit_lanes (s : State) (o : Out) : (emit s o).lanes = s.lanes := rfl
@[simp] theorem emit_climbs (s : State) (o : Out) : (emit s o).climbs = s.climbs := rfl
@[simp] theorem emit_nextClimb (s : State) (o : Out) : (emit s o).nextClimb = s.nextClimb := rfl
@[simp] theorem emit_raws (s : State) (o : Out) : (emit s o).raws = s.raws := rfl
@[simp] theorem emit_llr (s : State) (o : Out) : (emit s o).llr = s.llr := rfl
@[simp] theorem emit_thyme (s : State) (o : Out) : (emit s o).thyme = s.thyme := rfl
@[simp] theorem emit_patch (s : State) (o : Out) : (emit s o).patch = s.patch := rfl
@[simp] theorem emit_matchRegs (s : State) (o : Out) : (emit s o).matchRegs = s.matchRegs := rfl
@[simp] theorem emit_byteBkts (s : State) (o : Out) : (emit s o).byteBkts = s.byteBkts := rfl
@[simp] theorem emit_cmdBkts (s : State) (o : Out) : (emit s o).cmdBkts = s.cmdBkts := rfl
@[simp] theorem emit_readBkt (s : State) (o : Out) : (emit s o).readBkt = s.readBkt := rfl
@[simp] theorem emit_writeBkt (s : State) (o : Out) : (emit s o).writeBkt = s.writeBkt := rfl
@[simp] theorem emit_arb (s : State) (o : Out) : (emit s o).arb = s.arb := rfl
@[simp] theorem emit_stage (s : State) (o : Out) : (emit s o).stage = s.stage := rfl
@[simp] theorem emit_migs (s : State) (o : Out) : (emit s o).migs = s.migs := rfl
@[simp] theorem emit_recd (s : State) (o : Out) : (emit s o).recd = s.recd := rfl
@[simp] theorem emit_trecs (s : State) (o : Out) : (emit s o).trecs = s.trecs := rfl
@[simp] theorem emit_meter (s : State) (o : Out) : (emit s o).meter = s.meter := rfl
@[simp] theorem emit_aon (s : State) (o : Out) : (emit s o).aon = s.aon := rfl
@[simp] theorem emit_plStat (s : State) (o : Out) : (emit s o).plStat = s.plStat := rfl
@[simp] theorem emit_plRun (s : State) (o : Out) : (emit s o).plRun = s.plRun := rfl
@[simp] theorem emit_pwr (s : State) (o : Out) : (emit s o).pwr = s.pwr := rfl
@[simp] theorem emit_therm (s : State) (o : Out) : (emit s o).therm = s.therm := rfl
@[simp] theorem emit_profile (s : State) (o : Out) : (emit s o).profile = s.profile := rfl
@[simp] theorem emit_dieRecs (s : State) (o : Out) : (emit s o).dieRecs = s.dieRecs := rfl
@[simp] theorem emit_models (s : State) (o : Out) : (emit s o).models = s.models := rfl
@[simp] theorem emit_geometry (s : State) (o : Out) : (emit s o).geometry = s.geometry := rfl
@[simp] theorem emit_caches (s : State) (o : Out) : (emit s o).caches = s.caches := rfl
@[simp] theorem emit_basil (s : State) (o : Out) : (emit s o).basil = s.basil := rfl
@[simp] theorem emit_dram (s : State) (o : Out) : (emit s o).dram = s.dram := rfl
@[simp] theorem emit_windows (s : State) (o : Out) : (emit s o).windows = s.windows := rfl
@[simp] theorem emit_doom (s : State) (o : Out) : (emit s o).doom = s.doom := rfl
@[simp] theorem emit_gpioExt (s : State) (o : Out) : (emit s o).gpioExt = s.gpioExt := rfl
@[simp] theorem emit_slots (s : State) (o : Out) : (emit s o).slots = s.slots := rfl
@[simp] theorem emit_dlBuf (s : State) (o : Out) : (emit s o).dlBuf = s.dlBuf := rfl
@[simp] theorem emit_fwHold (s : State) (o : Out) : (emit s o).fwHold = s.fwHold := rfl
@[simp] theorem emit_code (s : State) (o : Out) : (emit s o).code = s.code := rfl
@[simp] theorem emit_sealedProfile (s : State) (o : Out) : (emit s o).sealedProfile = s.sealedProfile := rfl
@[simp] theorem emit_recovAt (s : State) (o : Out) : (emit s o).recovAt = s.recovAt := rfl
@[simp] theorem emit_startMs (s : State) (o : Out) : (emit s o).startMs = s.startMs := rfl
@[simp] theorem emit_eraseBook (s : State) (o : Out) : (emit s o).eraseBook = s.eraseBook := rfl

/-! ### wr -/

@[simp] theorem wr_pending (s : State) (k : PageKind) (i off v : Nat) : (wr s k i off v).pending = s.pending := rfl
@[simp] theorem wr_out (s : State) (k : PageKind) (i off v : Nat) : (wr s k i off v).out = s.out := rfl
@[simp] theorem wr_now (s : State) (k : PageKind) (i off v : Nat) : (wr s k i off v).now = s.now := rfl
@[simp] theorem wr_free (s : State) (k : PageKind) (i off v : Nat) : (wr s k i off v).free = s.free := rfl
@[simp] theorem wr_mode (s : State) (k : PageKind) (i off v : Nat) : (wr s k i off v).mode = s.mode := rfl
@[simp] theorem wr_pos (s : State) (k : PageKind) (i off v : Nat) : (wr s k i off v).pos = s.pos := rfl
@[simp] theorem wr_pcyc (s : State) (k : PageKind) (i off v : Nat) : (wr s k i off v).pcyc = s.pcyc := rfl
@[simp] theorem wr_flog (s : State) (k : PageKind) (i off v : Nat) : (wr s k i off v).flog = s.flog := rfl
@[simp] theorem wr_oos (s : State) (k : PageKind) (i off v : Nat) : (wr s k i off v).oos = s.oos := rfl
@[simp] theorem wr_mgmt (s : State) (k : PageKind) (i off v : Nat) : (wr s k i off v).mgmt = s.mgmt := rfl
@[simp] theorem wr_nims (s : State) (k : PageKind) (i off v : Nat) : (wr s k i off v).nims = s.nims := rfl
@[simp] theorem wr_eth (s : State) (k : PageKind) (i off v : Nat) : (wr s k i off v).eth = s.eth := rfl
@[simp] theorem wr_ifs (s : State) (k : PageKind) (i off v : Nat) : (wr s k i off v).ifs = s.ifs := rfl
@[simp] theorem wr_conns (s : State) (k : PageKind) (i off v : Nat) : (wr s k i off v).conns = s.conns := rfl
@[simp] theorem wr_txWait (s : State) (k : PageKind) (i off v : Nat) : (wr s k i off v).txWait = s.txWait := rfl
@[simp] theorem wr_tslots (s : State) (k : PageKind) (i off v : Nat) : (wr s k i off v).tslots = s.tslots := rfl
@[simp] theorem wr_ctrls (s : State) (k : PageKind) (i off v : Nat) : (wr s k i off v).ctrls = s.ctrls := rfl
@[simp] theorem wr_tenants (s : State) (k : PageKind) (i off v : Nat) : (wr s k i off v).tenants = s.tenants := rfl
@[simp] theorem wr_nss (s : State) (k : PageKind) (i off v : Nat) : (wr s k i off v).nss = s.nss := rfl
@[simp] theorem wr_nsKeys (s : State) (k : PageKind) (i off v : Nat) : (wr s k i off v).nsKeys = s.nsKeys := rfl
@[simp] theorem wr_keyGen (s : State) (k : PageKind) (i off v : Nat) : (wr s k i off v).keyGen = s.keyGen := rfl
@[simp] theorem wr_lostSlots (s : State) (k : PageKind) (i off v : Nat) : (wr s k i off v).lostSlots = s.lostSlots := rfl
@[simp] theorem wr_nextKey (s : State) (k : PageKind) (i off v : Nat) : (wr s k i off v).nextKey = s.nextKey := rfl
@[simp] theorem wr_keyRecs (s : State) (k : PageKind) (i off v : Nat) : (wr s k i off v).keyRecs = s.keyRecs := rfl
@[simp] theorem wr_sealCtr (s : State) (k : PageKind) (i off v : Nat) : (wr s k i off v).sealCtr = s.sealCtr := rfl
@[simp] theorem wr_spdm (s : State) (k : PageKind) (i off v : Nat) : (wr s k i off v).spdm = s.spdm := rfl
@[simp] theorem wr_mfEnroll (s : State) (k : PageKind) (i off v : Nat) : (wr s k i off v).mfEnroll = s.mfEnroll := rfl
@[simp] theorem wr_secs (s : State) (k : PageKind) (i off v : Nat) : (wr s k i off v).secs = s.secs := rfl
@[simp] theorem wr_cores (s : State) (k : PageKind) (i off v : Nat) : (wr s k i off v).cores = s.cores := rfl
@[simp] theorem wr_cjobs (s : State) (k : PageKind) (i off v : Nat) : (wr s k i off v).cjobs = s.cjobs := rfl
@[simp] theorem wr_cctx (s : State) (k : PageKind) (i off v : Nat) : (wr s k i off v).cctx = s.cctx := rfl
@[simp] theorem wr_savedRegs (s : State) (k : PageKind) (i off v : Nat) : (wr s k i off v).savedRegs = s.savedRegs := rfl
@[simp] theorem wr_savedIfs (s : State) (k : PageKind) (i off v : Nat) : (wr s k i off v).savedIfs = s.savedIfs := rfl
@[simp] theorem wr_cmds (s : State) (k : PageKind) (i off v : Nat) : (wr s k i off v).cmds = s.cmds := rfl
@[simp] theorem wr_nextCmd (s : State) (k : PageKind) (i off v : Nat) : (wr s k i off v).nextCmd = s.nextCmd := rfl
@[simp] theorem wr_held (s : State) (k : PageKind) (i off v : Nat) : (wr s k i off v).held = s.held := rfl
@[simp] theorem wr_adminWaits (s : State) (k : PageKind) (i off v : Nat) : (wr s k i off v).adminWaits = s.adminWaits := rfl
@[simp] theorem wr_diesets (s : State) (k : PageKind) (i off v : Nat) : (wr s k i off v).diesets = s.diesets := rfl
@[simp] theorem wr_bands (s : State) (k : PageKind) (i off v : Nat) : (wr s k i off v).bands = s.bands := rfl
@[simp] theorem wr_bandCtr (s : State) (k : PageKind) (i off v : Nat) : (wr s k i off v).bandCtr = s.bandCtr := rfl
@[simp] theorem wr_blks (s : State) (k : PageKind) (i off v : Nat) : (wr s k i off v).blks = s.blks := rfl
@[simp] theorem wr_staged (s : State) (k : PageKind) (i off v : Nat) : (wr s k i off v).staged = s.staged := rfl
@[simp] theorem wr_nextUnit (s : State) (k : PageKind) (i off v : Nat) : (wr s k i off v).nextUnit = s.nextUnit := rfl
@[simp] theorem wr_nextAck (s : State) (k : PageKind) (i off v : Nat) : (wr s k i off v).nextAck = s.nextAck := rfl
@[simp] theorem wr_flash (s : State) (k : PageKind) (i off v : Nat) : (wr s k i off v).flash = s.flash := rfl
@[simp] theorem wr_holdLow (s : State) (k : PageKind) (i off v : Nat) : (wr s k i off v).holdLow = s.holdLow := rfl
@[simp] theorem wr_jr (s : State) (k : PageKind) (i off v : Nat) : (wr s k i off v).jr = s.jr := rfl
@[simp] theorem wr_ckpts (s : State) (k : PageKind) (i off v : Nat) : (wr s k i off v).ckpts = s.ckpts := rfl
@[simp] theorem wr_tabCkpt (s : State) (k : PageKind) (i off v : Nat) : (wr s k i off v).tabCkpt = s.tabCkpt := rfl
@[simp] theorem wr_patrolAt (s : State) (k : PageKind) (i off v : Nat) : (wr s k i off v).patrolAt = s.patrolAt := rfl
@[simp] theorem wr_feeds (s : State) (k : PageKind) (i off v : Nat) : (wr s k i off v).feeds = s.feeds := rfl
@[simp] theorem wr_dies (s : State) (k : PageKind) (i off v : Nat) : (wr s k i off v).dies = s.dies := rfl
@[simp] theorem wr_tileRes (s : State) (k : PageKind) (i off v : Nat) : (wr s k i off v).tileRes = s.tileRes := rfl
@[simp] theorem wr_lanes (s : State) (k : PageKind) (i off v : Nat) : (wr s k i off v).lanes = s.lanes := rfl
@[simp] theorem wr_climbs (s : State) (k : PageKind) (i off v : Nat) : (wr s k i off v).climbs = s.climbs := rfl
@[simp] theorem wr_nextClimb (s : State) (k : PageKind) (i off v : Nat) : (wr s k i off v).nextClimb = s.nextClimb := rfl
@[simp] theorem wr_raws (s : State) (k : PageKind) (i off v : Nat) : (wr s k i off v).raws = s.raws := rfl
@[simp] theorem wr_llr (s : State) (k : PageKind) (i off v : Nat) : (wr s k i off v).llr = s.llr := rfl
@[simp] theorem wr_thyme (s : State) (k : PageKind) (i off v : Nat) : (wr s k i off v).thyme = s.thyme := rfl
@[simp] theorem wr_patch (s : State) (k : PageKind) (i off v : Nat) : (wr s k i off v).patch = s.patch := rfl
@[simp] theorem wr_matchRegs (s : State) (k : PageKind) (i off v : Nat) : (wr s k i off v).matchRegs = s.matchRegs := rfl
@[simp] theorem wr_byteBkts (s : State) (k : PageKind) (i off v : Nat) : (wr s k i off v).byteBkts = s.byteBkts := rfl
@[simp] theorem wr_cmdBkts (s : State) (k : PageKind) (i off v : Nat) : (wr s k i off v).cmdBkts = s.cmdBkts := rfl
@[simp] theorem wr_readBkt (s : State) (k : PageKind) (i off v : Nat) : (wr s k i off v).readBkt = s.readBkt := rfl
@[simp] theorem wr_writeBkt (s : State) (k : PageKind) (i off v : Nat) : (wr s k i off v).writeBkt = s.writeBkt := rfl
@[simp] theorem wr_arb (s : State) (k : PageKind) (i off v : Nat) : (wr s k i off v).arb = s.arb := rfl
@[simp] theorem wr_stage (s : State) (k : PageKind) (i off v : Nat) : (wr s k i off v).stage = s.stage := rfl
@[simp] theorem wr_migs (s : State) (k : PageKind) (i off v : Nat) : (wr s k i off v).migs = s.migs := rfl
@[simp] theorem wr_recd (s : State) (k : PageKind) (i off v : Nat) : (wr s k i off v).recd = s.recd := rfl
@[simp] theorem wr_trecs (s : State) (k : PageKind) (i off v : Nat) : (wr s k i off v).trecs = s.trecs := rfl
@[simp] theorem wr_meter (s : State) (k : PageKind) (i off v : Nat) : (wr s k i off v).meter = s.meter := rfl
@[simp] theorem wr_aon (s : State) (k : PageKind) (i off v : Nat) : (wr s k i off v).aon = s.aon := rfl
@[simp] theorem wr_plStat (s : State) (k : PageKind) (i off v : Nat) : (wr s k i off v).plStat = s.plStat := rfl
@[simp] theorem wr_plRun (s : State) (k : PageKind) (i off v : Nat) : (wr s k i off v).plRun = s.plRun := rfl
@[simp] theorem wr_pwr (s : State) (k : PageKind) (i off v : Nat) : (wr s k i off v).pwr = s.pwr := rfl
@[simp] theorem wr_therm (s : State) (k : PageKind) (i off v : Nat) : (wr s k i off v).therm = s.therm := rfl
@[simp] theorem wr_profile (s : State) (k : PageKind) (i off v : Nat) : (wr s k i off v).profile = s.profile := rfl
@[simp] theorem wr_dieRecs (s : State) (k : PageKind) (i off v : Nat) : (wr s k i off v).dieRecs = s.dieRecs := rfl
@[simp] theorem wr_models (s : State) (k : PageKind) (i off v : Nat) : (wr s k i off v).models = s.models := rfl
@[simp] theorem wr_geometry (s : State) (k : PageKind) (i off v : Nat) : (wr s k i off v).geometry = s.geometry := rfl
@[simp] theorem wr_caches (s : State) (k : PageKind) (i off v : Nat) : (wr s k i off v).caches = s.caches := rfl
@[simp] theorem wr_basil (s : State) (k : PageKind) (i off v : Nat) : (wr s k i off v).basil = s.basil := rfl
@[simp] theorem wr_dram (s : State) (k : PageKind) (i off v : Nat) : (wr s k i off v).dram = s.dram := rfl
@[simp] theorem wr_windows (s : State) (k : PageKind) (i off v : Nat) : (wr s k i off v).windows = s.windows := rfl
@[simp] theorem wr_doom (s : State) (k : PageKind) (i off v : Nat) : (wr s k i off v).doom = s.doom := rfl
@[simp] theorem wr_gpioExt (s : State) (k : PageKind) (i off v : Nat) : (wr s k i off v).gpioExt = s.gpioExt := rfl
@[simp] theorem wr_slots (s : State) (k : PageKind) (i off v : Nat) : (wr s k i off v).slots = s.slots := rfl
@[simp] theorem wr_dlBuf (s : State) (k : PageKind) (i off v : Nat) : (wr s k i off v).dlBuf = s.dlBuf := rfl
@[simp] theorem wr_fwHold (s : State) (k : PageKind) (i off v : Nat) : (wr s k i off v).fwHold = s.fwHold := rfl
@[simp] theorem wr_code (s : State) (k : PageKind) (i off v : Nat) : (wr s k i off v).code = s.code := rfl
@[simp] theorem wr_sealedProfile (s : State) (k : PageKind) (i off v : Nat) : (wr s k i off v).sealedProfile = s.sealedProfile := rfl
@[simp] theorem wr_recovAt (s : State) (k : PageKind) (i off v : Nat) : (wr s k i off v).recovAt = s.recovAt := rfl
@[simp] theorem wr_startMs (s : State) (k : PageKind) (i off v : Nat) : (wr s k i off v).startMs = s.startMs := rfl
@[simp] theorem wr_eraseBook (s : State) (k : PageKind) (i off v : Nat) : (wr s k i off v).eraseBook = s.eraseBook := rfl

/-! ### setF -/

@[simp] theorem setF_pending (s : State) (k : PageKind) (i : Nat) (f : Fld) (v : Nat) : (setF s k i f v).pending = s.pending := rfl
@[simp] theorem setF_out (s : State) (k : PageKind) (i : Nat) (f : Fld) (v : Nat) : (setF s k i f v).out = s.out := rfl
@[simp] theorem setF_now (s : State) (k : PageKind) (i : Nat) (f : Fld) (v : Nat) : (setF s k i f v).now = s.now := rfl
@[simp] theorem setF_free (s : State) (k : PageKind) (i : Nat) (f : Fld) (v : Nat) : (setF s k i f v).free = s.free := rfl
@[simp] theorem setF_mode (s : State) (k : PageKind) (i : Nat) (f : Fld) (v : Nat) : (setF s k i f v).mode = s.mode := rfl
@[simp] theorem setF_pos (s : State) (k : PageKind) (i : Nat) (f : Fld) (v : Nat) : (setF s k i f v).pos = s.pos := rfl
@[simp] theorem setF_pcyc (s : State) (k : PageKind) (i : Nat) (f : Fld) (v : Nat) : (setF s k i f v).pcyc = s.pcyc := rfl
@[simp] theorem setF_flog (s : State) (k : PageKind) (i : Nat) (f : Fld) (v : Nat) : (setF s k i f v).flog = s.flog := rfl
@[simp] theorem setF_oos (s : State) (k : PageKind) (i : Nat) (f : Fld) (v : Nat) : (setF s k i f v).oos = s.oos := rfl
@[simp] theorem setF_mgmt (s : State) (k : PageKind) (i : Nat) (f : Fld) (v : Nat) : (setF s k i f v).mgmt = s.mgmt := rfl
@[simp] theorem setF_nims (s : State) (k : PageKind) (i : Nat) (f : Fld) (v : Nat) : (setF s k i f v).nims = s.nims := rfl
@[simp] theorem setF_eth (s : State) (k : PageKind) (i : Nat) (f : Fld) (v : Nat) : (setF s k i f v).eth = s.eth := rfl
@[simp] theorem setF_ifs (s : State) (k : PageKind) (i : Nat) (f : Fld) (v : Nat) : (setF s k i f v).ifs = s.ifs := rfl
@[simp] theorem setF_conns (s : State) (k : PageKind) (i : Nat) (f : Fld) (v : Nat) : (setF s k i f v).conns = s.conns := rfl
@[simp] theorem setF_txWait (s : State) (k : PageKind) (i : Nat) (f : Fld) (v : Nat) : (setF s k i f v).txWait = s.txWait := rfl
@[simp] theorem setF_tslots (s : State) (k : PageKind) (i : Nat) (f : Fld) (v : Nat) : (setF s k i f v).tslots = s.tslots := rfl
@[simp] theorem setF_ctrls (s : State) (k : PageKind) (i : Nat) (f : Fld) (v : Nat) : (setF s k i f v).ctrls = s.ctrls := rfl
@[simp] theorem setF_tenants (s : State) (k : PageKind) (i : Nat) (f : Fld) (v : Nat) : (setF s k i f v).tenants = s.tenants := rfl
@[simp] theorem setF_nss (s : State) (k : PageKind) (i : Nat) (f : Fld) (v : Nat) : (setF s k i f v).nss = s.nss := rfl
@[simp] theorem setF_nsKeys (s : State) (k : PageKind) (i : Nat) (f : Fld) (v : Nat) : (setF s k i f v).nsKeys = s.nsKeys := rfl
@[simp] theorem setF_keyGen (s : State) (k : PageKind) (i : Nat) (f : Fld) (v : Nat) : (setF s k i f v).keyGen = s.keyGen := rfl
@[simp] theorem setF_lostSlots (s : State) (k : PageKind) (i : Nat) (f : Fld) (v : Nat) : (setF s k i f v).lostSlots = s.lostSlots := rfl
@[simp] theorem setF_nextKey (s : State) (k : PageKind) (i : Nat) (f : Fld) (v : Nat) : (setF s k i f v).nextKey = s.nextKey := rfl
@[simp] theorem setF_keyRecs (s : State) (k : PageKind) (i : Nat) (f : Fld) (v : Nat) : (setF s k i f v).keyRecs = s.keyRecs := rfl
@[simp] theorem setF_sealCtr (s : State) (k : PageKind) (i : Nat) (f : Fld) (v : Nat) : (setF s k i f v).sealCtr = s.sealCtr := rfl
@[simp] theorem setF_spdm (s : State) (k : PageKind) (i : Nat) (f : Fld) (v : Nat) : (setF s k i f v).spdm = s.spdm := rfl
@[simp] theorem setF_mfEnroll (s : State) (k : PageKind) (i : Nat) (f : Fld) (v : Nat) : (setF s k i f v).mfEnroll = s.mfEnroll := rfl
@[simp] theorem setF_secs (s : State) (k : PageKind) (i : Nat) (f : Fld) (v : Nat) : (setF s k i f v).secs = s.secs := rfl
@[simp] theorem setF_cores (s : State) (k : PageKind) (i : Nat) (f : Fld) (v : Nat) : (setF s k i f v).cores = s.cores := rfl
@[simp] theorem setF_cjobs (s : State) (k : PageKind) (i : Nat) (f : Fld) (v : Nat) : (setF s k i f v).cjobs = s.cjobs := rfl
@[simp] theorem setF_cctx (s : State) (k : PageKind) (i : Nat) (f : Fld) (v : Nat) : (setF s k i f v).cctx = s.cctx := rfl
@[simp] theorem setF_savedRegs (s : State) (k : PageKind) (i : Nat) (f : Fld) (v : Nat) : (setF s k i f v).savedRegs = s.savedRegs := rfl
@[simp] theorem setF_savedIfs (s : State) (k : PageKind) (i : Nat) (f : Fld) (v : Nat) : (setF s k i f v).savedIfs = s.savedIfs := rfl
@[simp] theorem setF_cmds (s : State) (k : PageKind) (i : Nat) (f : Fld) (v : Nat) : (setF s k i f v).cmds = s.cmds := rfl
@[simp] theorem setF_nextCmd (s : State) (k : PageKind) (i : Nat) (f : Fld) (v : Nat) : (setF s k i f v).nextCmd = s.nextCmd := rfl
@[simp] theorem setF_held (s : State) (k : PageKind) (i : Nat) (f : Fld) (v : Nat) : (setF s k i f v).held = s.held := rfl
@[simp] theorem setF_adminWaits (s : State) (k : PageKind) (i : Nat) (f : Fld) (v : Nat) : (setF s k i f v).adminWaits = s.adminWaits := rfl
@[simp] theorem setF_diesets (s : State) (k : PageKind) (i : Nat) (f : Fld) (v : Nat) : (setF s k i f v).diesets = s.diesets := rfl
@[simp] theorem setF_bands (s : State) (k : PageKind) (i : Nat) (f : Fld) (v : Nat) : (setF s k i f v).bands = s.bands := rfl
@[simp] theorem setF_bandCtr (s : State) (k : PageKind) (i : Nat) (f : Fld) (v : Nat) : (setF s k i f v).bandCtr = s.bandCtr := rfl
@[simp] theorem setF_blks (s : State) (k : PageKind) (i : Nat) (f : Fld) (v : Nat) : (setF s k i f v).blks = s.blks := rfl
@[simp] theorem setF_staged (s : State) (k : PageKind) (i : Nat) (f : Fld) (v : Nat) : (setF s k i f v).staged = s.staged := rfl
@[simp] theorem setF_nextUnit (s : State) (k : PageKind) (i : Nat) (f : Fld) (v : Nat) : (setF s k i f v).nextUnit = s.nextUnit := rfl
@[simp] theorem setF_nextAck (s : State) (k : PageKind) (i : Nat) (f : Fld) (v : Nat) : (setF s k i f v).nextAck = s.nextAck := rfl
@[simp] theorem setF_flash (s : State) (k : PageKind) (i : Nat) (f : Fld) (v : Nat) : (setF s k i f v).flash = s.flash := rfl
@[simp] theorem setF_holdLow (s : State) (k : PageKind) (i : Nat) (f : Fld) (v : Nat) : (setF s k i f v).holdLow = s.holdLow := rfl
@[simp] theorem setF_jr (s : State) (k : PageKind) (i : Nat) (f : Fld) (v : Nat) : (setF s k i f v).jr = s.jr := rfl
@[simp] theorem setF_ckpts (s : State) (k : PageKind) (i : Nat) (f : Fld) (v : Nat) : (setF s k i f v).ckpts = s.ckpts := rfl
@[simp] theorem setF_tabCkpt (s : State) (k : PageKind) (i : Nat) (f : Fld) (v : Nat) : (setF s k i f v).tabCkpt = s.tabCkpt := rfl
@[simp] theorem setF_patrolAt (s : State) (k : PageKind) (i : Nat) (f : Fld) (v : Nat) : (setF s k i f v).patrolAt = s.patrolAt := rfl
@[simp] theorem setF_feeds (s : State) (k : PageKind) (i : Nat) (f : Fld) (v : Nat) : (setF s k i f v).feeds = s.feeds := rfl
@[simp] theorem setF_dies (s : State) (k : PageKind) (i : Nat) (f : Fld) (v : Nat) : (setF s k i f v).dies = s.dies := rfl
@[simp] theorem setF_tileRes (s : State) (k : PageKind) (i : Nat) (f : Fld) (v : Nat) : (setF s k i f v).tileRes = s.tileRes := rfl
@[simp] theorem setF_lanes (s : State) (k : PageKind) (i : Nat) (f : Fld) (v : Nat) : (setF s k i f v).lanes = s.lanes := rfl
@[simp] theorem setF_climbs (s : State) (k : PageKind) (i : Nat) (f : Fld) (v : Nat) : (setF s k i f v).climbs = s.climbs := rfl
@[simp] theorem setF_nextClimb (s : State) (k : PageKind) (i : Nat) (f : Fld) (v : Nat) : (setF s k i f v).nextClimb = s.nextClimb := rfl
@[simp] theorem setF_raws (s : State) (k : PageKind) (i : Nat) (f : Fld) (v : Nat) : (setF s k i f v).raws = s.raws := rfl
@[simp] theorem setF_llr (s : State) (k : PageKind) (i : Nat) (f : Fld) (v : Nat) : (setF s k i f v).llr = s.llr := rfl
@[simp] theorem setF_thyme (s : State) (k : PageKind) (i : Nat) (f : Fld) (v : Nat) : (setF s k i f v).thyme = s.thyme := rfl
@[simp] theorem setF_patch (s : State) (k : PageKind) (i : Nat) (f : Fld) (v : Nat) : (setF s k i f v).patch = s.patch := rfl
@[simp] theorem setF_matchRegs (s : State) (k : PageKind) (i : Nat) (f : Fld) (v : Nat) : (setF s k i f v).matchRegs = s.matchRegs := rfl
@[simp] theorem setF_byteBkts (s : State) (k : PageKind) (i : Nat) (f : Fld) (v : Nat) : (setF s k i f v).byteBkts = s.byteBkts := rfl
@[simp] theorem setF_cmdBkts (s : State) (k : PageKind) (i : Nat) (f : Fld) (v : Nat) : (setF s k i f v).cmdBkts = s.cmdBkts := rfl
@[simp] theorem setF_readBkt (s : State) (k : PageKind) (i : Nat) (f : Fld) (v : Nat) : (setF s k i f v).readBkt = s.readBkt := rfl
@[simp] theorem setF_writeBkt (s : State) (k : PageKind) (i : Nat) (f : Fld) (v : Nat) : (setF s k i f v).writeBkt = s.writeBkt := rfl
@[simp] theorem setF_arb (s : State) (k : PageKind) (i : Nat) (f : Fld) (v : Nat) : (setF s k i f v).arb = s.arb := rfl
@[simp] theorem setF_stage (s : State) (k : PageKind) (i : Nat) (f : Fld) (v : Nat) : (setF s k i f v).stage = s.stage := rfl
@[simp] theorem setF_migs (s : State) (k : PageKind) (i : Nat) (f : Fld) (v : Nat) : (setF s k i f v).migs = s.migs := rfl
@[simp] theorem setF_recd (s : State) (k : PageKind) (i : Nat) (f : Fld) (v : Nat) : (setF s k i f v).recd = s.recd := rfl
@[simp] theorem setF_trecs (s : State) (k : PageKind) (i : Nat) (f : Fld) (v : Nat) : (setF s k i f v).trecs = s.trecs := rfl
@[simp] theorem setF_meter (s : State) (k : PageKind) (i : Nat) (f : Fld) (v : Nat) : (setF s k i f v).meter = s.meter := rfl
@[simp] theorem setF_aon (s : State) (k : PageKind) (i : Nat) (f : Fld) (v : Nat) : (setF s k i f v).aon = s.aon := rfl
@[simp] theorem setF_plStat (s : State) (k : PageKind) (i : Nat) (f : Fld) (v : Nat) : (setF s k i f v).plStat = s.plStat := rfl
@[simp] theorem setF_plRun (s : State) (k : PageKind) (i : Nat) (f : Fld) (v : Nat) : (setF s k i f v).plRun = s.plRun := rfl
@[simp] theorem setF_pwr (s : State) (k : PageKind) (i : Nat) (f : Fld) (v : Nat) : (setF s k i f v).pwr = s.pwr := rfl
@[simp] theorem setF_therm (s : State) (k : PageKind) (i : Nat) (f : Fld) (v : Nat) : (setF s k i f v).therm = s.therm := rfl
@[simp] theorem setF_profile (s : State) (k : PageKind) (i : Nat) (f : Fld) (v : Nat) : (setF s k i f v).profile = s.profile := rfl
@[simp] theorem setF_dieRecs (s : State) (k : PageKind) (i : Nat) (f : Fld) (v : Nat) : (setF s k i f v).dieRecs = s.dieRecs := rfl
@[simp] theorem setF_models (s : State) (k : PageKind) (i : Nat) (f : Fld) (v : Nat) : (setF s k i f v).models = s.models := rfl
@[simp] theorem setF_geometry (s : State) (k : PageKind) (i : Nat) (f : Fld) (v : Nat) : (setF s k i f v).geometry = s.geometry := rfl
@[simp] theorem setF_caches (s : State) (k : PageKind) (i : Nat) (f : Fld) (v : Nat) : (setF s k i f v).caches = s.caches := rfl
@[simp] theorem setF_basil (s : State) (k : PageKind) (i : Nat) (f : Fld) (v : Nat) : (setF s k i f v).basil = s.basil := rfl
@[simp] theorem setF_dram (s : State) (k : PageKind) (i : Nat) (f : Fld) (v : Nat) : (setF s k i f v).dram = s.dram := rfl
@[simp] theorem setF_windows (s : State) (k : PageKind) (i : Nat) (f : Fld) (v : Nat) : (setF s k i f v).windows = s.windows := rfl
@[simp] theorem setF_doom (s : State) (k : PageKind) (i : Nat) (f : Fld) (v : Nat) : (setF s k i f v).doom = s.doom := rfl
@[simp] theorem setF_gpioExt (s : State) (k : PageKind) (i : Nat) (f : Fld) (v : Nat) : (setF s k i f v).gpioExt = s.gpioExt := rfl
@[simp] theorem setF_slots (s : State) (k : PageKind) (i : Nat) (f : Fld) (v : Nat) : (setF s k i f v).slots = s.slots := rfl
@[simp] theorem setF_dlBuf (s : State) (k : PageKind) (i : Nat) (f : Fld) (v : Nat) : (setF s k i f v).dlBuf = s.dlBuf := rfl
@[simp] theorem setF_fwHold (s : State) (k : PageKind) (i : Nat) (f : Fld) (v : Nat) : (setF s k i f v).fwHold = s.fwHold := rfl
@[simp] theorem setF_code (s : State) (k : PageKind) (i : Nat) (f : Fld) (v : Nat) : (setF s k i f v).code = s.code := rfl
@[simp] theorem setF_sealedProfile (s : State) (k : PageKind) (i : Nat) (f : Fld) (v : Nat) : (setF s k i f v).sealedProfile = s.sealedProfile := rfl
@[simp] theorem setF_recovAt (s : State) (k : PageKind) (i : Nat) (f : Fld) (v : Nat) : (setF s k i f v).recovAt = s.recovAt := rfl
@[simp] theorem setF_startMs (s : State) (k : PageKind) (i : Nat) (f : Fld) (v : Nat) : (setF s k i f v).startMs = s.startMs := rfl
@[simp] theorem setF_eraseBook (s : State) (k : PageKind) (i : Nat) (f : Fld) (v : Nat) : (setF s k i f v).eraseBook = s.eraseBook := rfl

/-! ### raise -/

@[simp] theorem raise_pending (s : State) (k : PageKind) (i : Nat) (f : Fld) : (raise s k i f).pending = s.pending := rfl
@[simp] theorem raise_out (s : State) (k : PageKind) (i : Nat) (f : Fld) : (raise s k i f).out = s.out := rfl
@[simp] theorem raise_now (s : State) (k : PageKind) (i : Nat) (f : Fld) : (raise s k i f).now = s.now := rfl
@[simp] theorem raise_free (s : State) (k : PageKind) (i : Nat) (f : Fld) : (raise s k i f).free = s.free := rfl
@[simp] theorem raise_mode (s : State) (k : PageKind) (i : Nat) (f : Fld) : (raise s k i f).mode = s.mode := rfl
@[simp] theorem raise_pos (s : State) (k : PageKind) (i : Nat) (f : Fld) : (raise s k i f).pos = s.pos := rfl
@[simp] theorem raise_pcyc (s : State) (k : PageKind) (i : Nat) (f : Fld) : (raise s k i f).pcyc = s.pcyc := rfl
@[simp] theorem raise_flog (s : State) (k : PageKind) (i : Nat) (f : Fld) : (raise s k i f).flog = s.flog := rfl
@[simp] theorem raise_oos (s : State) (k : PageKind) (i : Nat) (f : Fld) : (raise s k i f).oos = s.oos := rfl
@[simp] theorem raise_mgmt (s : State) (k : PageKind) (i : Nat) (f : Fld) : (raise s k i f).mgmt = s.mgmt := rfl
@[simp] theorem raise_nims (s : State) (k : PageKind) (i : Nat) (f : Fld) : (raise s k i f).nims = s.nims := rfl
@[simp] theorem raise_eth (s : State) (k : PageKind) (i : Nat) (f : Fld) : (raise s k i f).eth = s.eth := rfl
@[simp] theorem raise_ifs (s : State) (k : PageKind) (i : Nat) (f : Fld) : (raise s k i f).ifs = s.ifs := rfl
@[simp] theorem raise_conns (s : State) (k : PageKind) (i : Nat) (f : Fld) : (raise s k i f).conns = s.conns := rfl
@[simp] theorem raise_txWait (s : State) (k : PageKind) (i : Nat) (f : Fld) : (raise s k i f).txWait = s.txWait := rfl
@[simp] theorem raise_tslots (s : State) (k : PageKind) (i : Nat) (f : Fld) : (raise s k i f).tslots = s.tslots := rfl
@[simp] theorem raise_ctrls (s : State) (k : PageKind) (i : Nat) (f : Fld) : (raise s k i f).ctrls = s.ctrls := rfl
@[simp] theorem raise_tenants (s : State) (k : PageKind) (i : Nat) (f : Fld) : (raise s k i f).tenants = s.tenants := rfl
@[simp] theorem raise_nss (s : State) (k : PageKind) (i : Nat) (f : Fld) : (raise s k i f).nss = s.nss := rfl
@[simp] theorem raise_nsKeys (s : State) (k : PageKind) (i : Nat) (f : Fld) : (raise s k i f).nsKeys = s.nsKeys := rfl
@[simp] theorem raise_keyGen (s : State) (k : PageKind) (i : Nat) (f : Fld) : (raise s k i f).keyGen = s.keyGen := rfl
@[simp] theorem raise_lostSlots (s : State) (k : PageKind) (i : Nat) (f : Fld) : (raise s k i f).lostSlots = s.lostSlots := rfl
@[simp] theorem raise_nextKey (s : State) (k : PageKind) (i : Nat) (f : Fld) : (raise s k i f).nextKey = s.nextKey := rfl
@[simp] theorem raise_keyRecs (s : State) (k : PageKind) (i : Nat) (f : Fld) : (raise s k i f).keyRecs = s.keyRecs := rfl
@[simp] theorem raise_sealCtr (s : State) (k : PageKind) (i : Nat) (f : Fld) : (raise s k i f).sealCtr = s.sealCtr := rfl
@[simp] theorem raise_spdm (s : State) (k : PageKind) (i : Nat) (f : Fld) : (raise s k i f).spdm = s.spdm := rfl
@[simp] theorem raise_mfEnroll (s : State) (k : PageKind) (i : Nat) (f : Fld) : (raise s k i f).mfEnroll = s.mfEnroll := rfl
@[simp] theorem raise_secs (s : State) (k : PageKind) (i : Nat) (f : Fld) : (raise s k i f).secs = s.secs := rfl
@[simp] theorem raise_cores (s : State) (k : PageKind) (i : Nat) (f : Fld) : (raise s k i f).cores = s.cores := rfl
@[simp] theorem raise_cjobs (s : State) (k : PageKind) (i : Nat) (f : Fld) : (raise s k i f).cjobs = s.cjobs := rfl
@[simp] theorem raise_cctx (s : State) (k : PageKind) (i : Nat) (f : Fld) : (raise s k i f).cctx = s.cctx := rfl
@[simp] theorem raise_savedRegs (s : State) (k : PageKind) (i : Nat) (f : Fld) : (raise s k i f).savedRegs = s.savedRegs := rfl
@[simp] theorem raise_savedIfs (s : State) (k : PageKind) (i : Nat) (f : Fld) : (raise s k i f).savedIfs = s.savedIfs := rfl
@[simp] theorem raise_cmds (s : State) (k : PageKind) (i : Nat) (f : Fld) : (raise s k i f).cmds = s.cmds := rfl
@[simp] theorem raise_nextCmd (s : State) (k : PageKind) (i : Nat) (f : Fld) : (raise s k i f).nextCmd = s.nextCmd := rfl
@[simp] theorem raise_held (s : State) (k : PageKind) (i : Nat) (f : Fld) : (raise s k i f).held = s.held := rfl
@[simp] theorem raise_adminWaits (s : State) (k : PageKind) (i : Nat) (f : Fld) : (raise s k i f).adminWaits = s.adminWaits := rfl
@[simp] theorem raise_diesets (s : State) (k : PageKind) (i : Nat) (f : Fld) : (raise s k i f).diesets = s.diesets := rfl
@[simp] theorem raise_bands (s : State) (k : PageKind) (i : Nat) (f : Fld) : (raise s k i f).bands = s.bands := rfl
@[simp] theorem raise_bandCtr (s : State) (k : PageKind) (i : Nat) (f : Fld) : (raise s k i f).bandCtr = s.bandCtr := rfl
@[simp] theorem raise_blks (s : State) (k : PageKind) (i : Nat) (f : Fld) : (raise s k i f).blks = s.blks := rfl
@[simp] theorem raise_staged (s : State) (k : PageKind) (i : Nat) (f : Fld) : (raise s k i f).staged = s.staged := rfl
@[simp] theorem raise_nextUnit (s : State) (k : PageKind) (i : Nat) (f : Fld) : (raise s k i f).nextUnit = s.nextUnit := rfl
@[simp] theorem raise_nextAck (s : State) (k : PageKind) (i : Nat) (f : Fld) : (raise s k i f).nextAck = s.nextAck := rfl
@[simp] theorem raise_flash (s : State) (k : PageKind) (i : Nat) (f : Fld) : (raise s k i f).flash = s.flash := rfl
@[simp] theorem raise_holdLow (s : State) (k : PageKind) (i : Nat) (f : Fld) : (raise s k i f).holdLow = s.holdLow := rfl
@[simp] theorem raise_jr (s : State) (k : PageKind) (i : Nat) (f : Fld) : (raise s k i f).jr = s.jr := rfl
@[simp] theorem raise_ckpts (s : State) (k : PageKind) (i : Nat) (f : Fld) : (raise s k i f).ckpts = s.ckpts := rfl
@[simp] theorem raise_tabCkpt (s : State) (k : PageKind) (i : Nat) (f : Fld) : (raise s k i f).tabCkpt = s.tabCkpt := rfl
@[simp] theorem raise_patrolAt (s : State) (k : PageKind) (i : Nat) (f : Fld) : (raise s k i f).patrolAt = s.patrolAt := rfl
@[simp] theorem raise_feeds (s : State) (k : PageKind) (i : Nat) (f : Fld) : (raise s k i f).feeds = s.feeds := rfl
@[simp] theorem raise_dies (s : State) (k : PageKind) (i : Nat) (f : Fld) : (raise s k i f).dies = s.dies := rfl
@[simp] theorem raise_tileRes (s : State) (k : PageKind) (i : Nat) (f : Fld) : (raise s k i f).tileRes = s.tileRes := rfl
@[simp] theorem raise_lanes (s : State) (k : PageKind) (i : Nat) (f : Fld) : (raise s k i f).lanes = s.lanes := rfl
@[simp] theorem raise_climbs (s : State) (k : PageKind) (i : Nat) (f : Fld) : (raise s k i f).climbs = s.climbs := rfl
@[simp] theorem raise_nextClimb (s : State) (k : PageKind) (i : Nat) (f : Fld) : (raise s k i f).nextClimb = s.nextClimb := rfl
@[simp] theorem raise_raws (s : State) (k : PageKind) (i : Nat) (f : Fld) : (raise s k i f).raws = s.raws := rfl
@[simp] theorem raise_llr (s : State) (k : PageKind) (i : Nat) (f : Fld) : (raise s k i f).llr = s.llr := rfl
@[simp] theorem raise_thyme (s : State) (k : PageKind) (i : Nat) (f : Fld) : (raise s k i f).thyme = s.thyme := rfl
@[simp] theorem raise_patch (s : State) (k : PageKind) (i : Nat) (f : Fld) : (raise s k i f).patch = s.patch := rfl
@[simp] theorem raise_matchRegs (s : State) (k : PageKind) (i : Nat) (f : Fld) : (raise s k i f).matchRegs = s.matchRegs := rfl
@[simp] theorem raise_byteBkts (s : State) (k : PageKind) (i : Nat) (f : Fld) : (raise s k i f).byteBkts = s.byteBkts := rfl
@[simp] theorem raise_cmdBkts (s : State) (k : PageKind) (i : Nat) (f : Fld) : (raise s k i f).cmdBkts = s.cmdBkts := rfl
@[simp] theorem raise_readBkt (s : State) (k : PageKind) (i : Nat) (f : Fld) : (raise s k i f).readBkt = s.readBkt := rfl
@[simp] theorem raise_writeBkt (s : State) (k : PageKind) (i : Nat) (f : Fld) : (raise s k i f).writeBkt = s.writeBkt := rfl
@[simp] theorem raise_arb (s : State) (k : PageKind) (i : Nat) (f : Fld) : (raise s k i f).arb = s.arb := rfl
@[simp] theorem raise_stage (s : State) (k : PageKind) (i : Nat) (f : Fld) : (raise s k i f).stage = s.stage := rfl
@[simp] theorem raise_migs (s : State) (k : PageKind) (i : Nat) (f : Fld) : (raise s k i f).migs = s.migs := rfl
@[simp] theorem raise_recd (s : State) (k : PageKind) (i : Nat) (f : Fld) : (raise s k i f).recd = s.recd := rfl
@[simp] theorem raise_trecs (s : State) (k : PageKind) (i : Nat) (f : Fld) : (raise s k i f).trecs = s.trecs := rfl
@[simp] theorem raise_meter (s : State) (k : PageKind) (i : Nat) (f : Fld) : (raise s k i f).meter = s.meter := rfl
@[simp] theorem raise_aon (s : State) (k : PageKind) (i : Nat) (f : Fld) : (raise s k i f).aon = s.aon := rfl
@[simp] theorem raise_plStat (s : State) (k : PageKind) (i : Nat) (f : Fld) : (raise s k i f).plStat = s.plStat := rfl
@[simp] theorem raise_plRun (s : State) (k : PageKind) (i : Nat) (f : Fld) : (raise s k i f).plRun = s.plRun := rfl
@[simp] theorem raise_pwr (s : State) (k : PageKind) (i : Nat) (f : Fld) : (raise s k i f).pwr = s.pwr := rfl
@[simp] theorem raise_therm (s : State) (k : PageKind) (i : Nat) (f : Fld) : (raise s k i f).therm = s.therm := rfl
@[simp] theorem raise_profile (s : State) (k : PageKind) (i : Nat) (f : Fld) : (raise s k i f).profile = s.profile := rfl
@[simp] theorem raise_dieRecs (s : State) (k : PageKind) (i : Nat) (f : Fld) : (raise s k i f).dieRecs = s.dieRecs := rfl
@[simp] theorem raise_models (s : State) (k : PageKind) (i : Nat) (f : Fld) : (raise s k i f).models = s.models := rfl
@[simp] theorem raise_geometry (s : State) (k : PageKind) (i : Nat) (f : Fld) : (raise s k i f).geometry = s.geometry := rfl
@[simp] theorem raise_caches (s : State) (k : PageKind) (i : Nat) (f : Fld) : (raise s k i f).caches = s.caches := rfl
@[simp] theorem raise_basil (s : State) (k : PageKind) (i : Nat) (f : Fld) : (raise s k i f).basil = s.basil := rfl
@[simp] theorem raise_dram (s : State) (k : PageKind) (i : Nat) (f : Fld) : (raise s k i f).dram = s.dram := rfl
@[simp] theorem raise_windows (s : State) (k : PageKind) (i : Nat) (f : Fld) : (raise s k i f).windows = s.windows := rfl
@[simp] theorem raise_doom (s : State) (k : PageKind) (i : Nat) (f : Fld) : (raise s k i f).doom = s.doom := rfl
@[simp] theorem raise_gpioExt (s : State) (k : PageKind) (i : Nat) (f : Fld) : (raise s k i f).gpioExt = s.gpioExt := rfl
@[simp] theorem raise_slots (s : State) (k : PageKind) (i : Nat) (f : Fld) : (raise s k i f).slots = s.slots := rfl
@[simp] theorem raise_dlBuf (s : State) (k : PageKind) (i : Nat) (f : Fld) : (raise s k i f).dlBuf = s.dlBuf := rfl
@[simp] theorem raise_fwHold (s : State) (k : PageKind) (i : Nat) (f : Fld) : (raise s k i f).fwHold = s.fwHold := rfl
@[simp] theorem raise_code (s : State) (k : PageKind) (i : Nat) (f : Fld) : (raise s k i f).code = s.code := rfl
@[simp] theorem raise_sealedProfile (s : State) (k : PageKind) (i : Nat) (f : Fld) : (raise s k i f).sealedProfile = s.sealedProfile := rfl
@[simp] theorem raise_recovAt (s : State) (k : PageKind) (i : Nat) (f : Fld) : (raise s k i f).recovAt = s.recovAt := rfl
@[simp] theorem raise_startMs (s : State) (k : PageKind) (i : Nat) (f : Fld) : (raise s k i f).startMs = s.startMs := rfl
@[simp] theorem raise_eraseBook (s : State) (k : PageKind) (i : Nat) (f : Fld) : (raise s k i f).eraseBook = s.eraseBook := rfl

/-! ### bumpBy -/

@[simp] theorem bumpBy_pending (s : State) (k : PageKind) (i : Nat) (f : Fld) (n : Nat) : (bumpBy s k i f n).pending = s.pending := rfl
@[simp] theorem bumpBy_out (s : State) (k : PageKind) (i : Nat) (f : Fld) (n : Nat) : (bumpBy s k i f n).out = s.out := rfl
@[simp] theorem bumpBy_now (s : State) (k : PageKind) (i : Nat) (f : Fld) (n : Nat) : (bumpBy s k i f n).now = s.now := rfl
@[simp] theorem bumpBy_free (s : State) (k : PageKind) (i : Nat) (f : Fld) (n : Nat) : (bumpBy s k i f n).free = s.free := rfl
@[simp] theorem bumpBy_mode (s : State) (k : PageKind) (i : Nat) (f : Fld) (n : Nat) : (bumpBy s k i f n).mode = s.mode := rfl
@[simp] theorem bumpBy_pos (s : State) (k : PageKind) (i : Nat) (f : Fld) (n : Nat) : (bumpBy s k i f n).pos = s.pos := rfl
@[simp] theorem bumpBy_pcyc (s : State) (k : PageKind) (i : Nat) (f : Fld) (n : Nat) : (bumpBy s k i f n).pcyc = s.pcyc := rfl
@[simp] theorem bumpBy_flog (s : State) (k : PageKind) (i : Nat) (f : Fld) (n : Nat) : (bumpBy s k i f n).flog = s.flog := rfl
@[simp] theorem bumpBy_oos (s : State) (k : PageKind) (i : Nat) (f : Fld) (n : Nat) : (bumpBy s k i f n).oos = s.oos := rfl
@[simp] theorem bumpBy_mgmt (s : State) (k : PageKind) (i : Nat) (f : Fld) (n : Nat) : (bumpBy s k i f n).mgmt = s.mgmt := rfl
@[simp] theorem bumpBy_nims (s : State) (k : PageKind) (i : Nat) (f : Fld) (n : Nat) : (bumpBy s k i f n).nims = s.nims := rfl
@[simp] theorem bumpBy_eth (s : State) (k : PageKind) (i : Nat) (f : Fld) (n : Nat) : (bumpBy s k i f n).eth = s.eth := rfl
@[simp] theorem bumpBy_ifs (s : State) (k : PageKind) (i : Nat) (f : Fld) (n : Nat) : (bumpBy s k i f n).ifs = s.ifs := rfl
@[simp] theorem bumpBy_conns (s : State) (k : PageKind) (i : Nat) (f : Fld) (n : Nat) : (bumpBy s k i f n).conns = s.conns := rfl
@[simp] theorem bumpBy_txWait (s : State) (k : PageKind) (i : Nat) (f : Fld) (n : Nat) : (bumpBy s k i f n).txWait = s.txWait := rfl
@[simp] theorem bumpBy_tslots (s : State) (k : PageKind) (i : Nat) (f : Fld) (n : Nat) : (bumpBy s k i f n).tslots = s.tslots := rfl
@[simp] theorem bumpBy_ctrls (s : State) (k : PageKind) (i : Nat) (f : Fld) (n : Nat) : (bumpBy s k i f n).ctrls = s.ctrls := rfl
@[simp] theorem bumpBy_tenants (s : State) (k : PageKind) (i : Nat) (f : Fld) (n : Nat) : (bumpBy s k i f n).tenants = s.tenants := rfl
@[simp] theorem bumpBy_nss (s : State) (k : PageKind) (i : Nat) (f : Fld) (n : Nat) : (bumpBy s k i f n).nss = s.nss := rfl
@[simp] theorem bumpBy_nsKeys (s : State) (k : PageKind) (i : Nat) (f : Fld) (n : Nat) : (bumpBy s k i f n).nsKeys = s.nsKeys := rfl
@[simp] theorem bumpBy_keyGen (s : State) (k : PageKind) (i : Nat) (f : Fld) (n : Nat) : (bumpBy s k i f n).keyGen = s.keyGen := rfl
@[simp] theorem bumpBy_lostSlots (s : State) (k : PageKind) (i : Nat) (f : Fld) (n : Nat) : (bumpBy s k i f n).lostSlots = s.lostSlots := rfl
@[simp] theorem bumpBy_nextKey (s : State) (k : PageKind) (i : Nat) (f : Fld) (n : Nat) : (bumpBy s k i f n).nextKey = s.nextKey := rfl
@[simp] theorem bumpBy_keyRecs (s : State) (k : PageKind) (i : Nat) (f : Fld) (n : Nat) : (bumpBy s k i f n).keyRecs = s.keyRecs := rfl
@[simp] theorem bumpBy_sealCtr (s : State) (k : PageKind) (i : Nat) (f : Fld) (n : Nat) : (bumpBy s k i f n).sealCtr = s.sealCtr := rfl
@[simp] theorem bumpBy_spdm (s : State) (k : PageKind) (i : Nat) (f : Fld) (n : Nat) : (bumpBy s k i f n).spdm = s.spdm := rfl
@[simp] theorem bumpBy_mfEnroll (s : State) (k : PageKind) (i : Nat) (f : Fld) (n : Nat) : (bumpBy s k i f n).mfEnroll = s.mfEnroll := rfl
@[simp] theorem bumpBy_secs (s : State) (k : PageKind) (i : Nat) (f : Fld) (n : Nat) : (bumpBy s k i f n).secs = s.secs := rfl
@[simp] theorem bumpBy_cores (s : State) (k : PageKind) (i : Nat) (f : Fld) (n : Nat) : (bumpBy s k i f n).cores = s.cores := rfl
@[simp] theorem bumpBy_cjobs (s : State) (k : PageKind) (i : Nat) (f : Fld) (n : Nat) : (bumpBy s k i f n).cjobs = s.cjobs := rfl
@[simp] theorem bumpBy_cctx (s : State) (k : PageKind) (i : Nat) (f : Fld) (n : Nat) : (bumpBy s k i f n).cctx = s.cctx := rfl
@[simp] theorem bumpBy_savedRegs (s : State) (k : PageKind) (i : Nat) (f : Fld) (n : Nat) : (bumpBy s k i f n).savedRegs = s.savedRegs := rfl
@[simp] theorem bumpBy_savedIfs (s : State) (k : PageKind) (i : Nat) (f : Fld) (n : Nat) : (bumpBy s k i f n).savedIfs = s.savedIfs := rfl
@[simp] theorem bumpBy_cmds (s : State) (k : PageKind) (i : Nat) (f : Fld) (n : Nat) : (bumpBy s k i f n).cmds = s.cmds := rfl
@[simp] theorem bumpBy_nextCmd (s : State) (k : PageKind) (i : Nat) (f : Fld) (n : Nat) : (bumpBy s k i f n).nextCmd = s.nextCmd := rfl
@[simp] theorem bumpBy_held (s : State) (k : PageKind) (i : Nat) (f : Fld) (n : Nat) : (bumpBy s k i f n).held = s.held := rfl
@[simp] theorem bumpBy_adminWaits (s : State) (k : PageKind) (i : Nat) (f : Fld) (n : Nat) : (bumpBy s k i f n).adminWaits = s.adminWaits := rfl
@[simp] theorem bumpBy_diesets (s : State) (k : PageKind) (i : Nat) (f : Fld) (n : Nat) : (bumpBy s k i f n).diesets = s.diesets := rfl
@[simp] theorem bumpBy_bands (s : State) (k : PageKind) (i : Nat) (f : Fld) (n : Nat) : (bumpBy s k i f n).bands = s.bands := rfl
@[simp] theorem bumpBy_bandCtr (s : State) (k : PageKind) (i : Nat) (f : Fld) (n : Nat) : (bumpBy s k i f n).bandCtr = s.bandCtr := rfl
@[simp] theorem bumpBy_blks (s : State) (k : PageKind) (i : Nat) (f : Fld) (n : Nat) : (bumpBy s k i f n).blks = s.blks := rfl
@[simp] theorem bumpBy_staged (s : State) (k : PageKind) (i : Nat) (f : Fld) (n : Nat) : (bumpBy s k i f n).staged = s.staged := rfl
@[simp] theorem bumpBy_nextUnit (s : State) (k : PageKind) (i : Nat) (f : Fld) (n : Nat) : (bumpBy s k i f n).nextUnit = s.nextUnit := rfl
@[simp] theorem bumpBy_nextAck (s : State) (k : PageKind) (i : Nat) (f : Fld) (n : Nat) : (bumpBy s k i f n).nextAck = s.nextAck := rfl
@[simp] theorem bumpBy_flash (s : State) (k : PageKind) (i : Nat) (f : Fld) (n : Nat) : (bumpBy s k i f n).flash = s.flash := rfl
@[simp] theorem bumpBy_holdLow (s : State) (k : PageKind) (i : Nat) (f : Fld) (n : Nat) : (bumpBy s k i f n).holdLow = s.holdLow := rfl
@[simp] theorem bumpBy_jr (s : State) (k : PageKind) (i : Nat) (f : Fld) (n : Nat) : (bumpBy s k i f n).jr = s.jr := rfl
@[simp] theorem bumpBy_ckpts (s : State) (k : PageKind) (i : Nat) (f : Fld) (n : Nat) : (bumpBy s k i f n).ckpts = s.ckpts := rfl
@[simp] theorem bumpBy_tabCkpt (s : State) (k : PageKind) (i : Nat) (f : Fld) (n : Nat) : (bumpBy s k i f n).tabCkpt = s.tabCkpt := rfl
@[simp] theorem bumpBy_patrolAt (s : State) (k : PageKind) (i : Nat) (f : Fld) (n : Nat) : (bumpBy s k i f n).patrolAt = s.patrolAt := rfl
@[simp] theorem bumpBy_feeds (s : State) (k : PageKind) (i : Nat) (f : Fld) (n : Nat) : (bumpBy s k i f n).feeds = s.feeds := rfl
@[simp] theorem bumpBy_dies (s : State) (k : PageKind) (i : Nat) (f : Fld) (n : Nat) : (bumpBy s k i f n).dies = s.dies := rfl
@[simp] theorem bumpBy_tileRes (s : State) (k : PageKind) (i : Nat) (f : Fld) (n : Nat) : (bumpBy s k i f n).tileRes = s.tileRes := rfl
@[simp] theorem bumpBy_lanes (s : State) (k : PageKind) (i : Nat) (f : Fld) (n : Nat) : (bumpBy s k i f n).lanes = s.lanes := rfl
@[simp] theorem bumpBy_climbs (s : State) (k : PageKind) (i : Nat) (f : Fld) (n : Nat) : (bumpBy s k i f n).climbs = s.climbs := rfl
@[simp] theorem bumpBy_nextClimb (s : State) (k : PageKind) (i : Nat) (f : Fld) (n : Nat) : (bumpBy s k i f n).nextClimb = s.nextClimb := rfl
@[simp] theorem bumpBy_raws (s : State) (k : PageKind) (i : Nat) (f : Fld) (n : Nat) : (bumpBy s k i f n).raws = s.raws := rfl
@[simp] theorem bumpBy_llr (s : State) (k : PageKind) (i : Nat) (f : Fld) (n : Nat) : (bumpBy s k i f n).llr = s.llr := rfl
@[simp] theorem bumpBy_thyme (s : State) (k : PageKind) (i : Nat) (f : Fld) (n : Nat) : (bumpBy s k i f n).thyme = s.thyme := rfl
@[simp] theorem bumpBy_patch (s : State) (k : PageKind) (i : Nat) (f : Fld) (n : Nat) : (bumpBy s k i f n).patch = s.patch := rfl
@[simp] theorem bumpBy_matchRegs (s : State) (k : PageKind) (i : Nat) (f : Fld) (n : Nat) : (bumpBy s k i f n).matchRegs = s.matchRegs := rfl
@[simp] theorem bumpBy_byteBkts (s : State) (k : PageKind) (i : Nat) (f : Fld) (n : Nat) : (bumpBy s k i f n).byteBkts = s.byteBkts := rfl
@[simp] theorem bumpBy_cmdBkts (s : State) (k : PageKind) (i : Nat) (f : Fld) (n : Nat) : (bumpBy s k i f n).cmdBkts = s.cmdBkts := rfl
@[simp] theorem bumpBy_readBkt (s : State) (k : PageKind) (i : Nat) (f : Fld) (n : Nat) : (bumpBy s k i f n).readBkt = s.readBkt := rfl
@[simp] theorem bumpBy_writeBkt (s : State) (k : PageKind) (i : Nat) (f : Fld) (n : Nat) : (bumpBy s k i f n).writeBkt = s.writeBkt := rfl
@[simp] theorem bumpBy_arb (s : State) (k : PageKind) (i : Nat) (f : Fld) (n : Nat) : (bumpBy s k i f n).arb = s.arb := rfl
@[simp] theorem bumpBy_stage (s : State) (k : PageKind) (i : Nat) (f : Fld) (n : Nat) : (bumpBy s k i f n).stage = s.stage := rfl
@[simp] theorem bumpBy_migs (s : State) (k : PageKind) (i : Nat) (f : Fld) (n : Nat) : (bumpBy s k i f n).migs = s.migs := rfl
@[simp] theorem bumpBy_recd (s : State) (k : PageKind) (i : Nat) (f : Fld) (n : Nat) : (bumpBy s k i f n).recd = s.recd := rfl
@[simp] theorem bumpBy_trecs (s : State) (k : PageKind) (i : Nat) (f : Fld) (n : Nat) : (bumpBy s k i f n).trecs = s.trecs := rfl
@[simp] theorem bumpBy_meter (s : State) (k : PageKind) (i : Nat) (f : Fld) (n : Nat) : (bumpBy s k i f n).meter = s.meter := rfl
@[simp] theorem bumpBy_aon (s : State) (k : PageKind) (i : Nat) (f : Fld) (n : Nat) : (bumpBy s k i f n).aon = s.aon := rfl
@[simp] theorem bumpBy_plStat (s : State) (k : PageKind) (i : Nat) (f : Fld) (n : Nat) : (bumpBy s k i f n).plStat = s.plStat := rfl
@[simp] theorem bumpBy_plRun (s : State) (k : PageKind) (i : Nat) (f : Fld) (n : Nat) : (bumpBy s k i f n).plRun = s.plRun := rfl
@[simp] theorem bumpBy_pwr (s : State) (k : PageKind) (i : Nat) (f : Fld) (n : Nat) : (bumpBy s k i f n).pwr = s.pwr := rfl
@[simp] theorem bumpBy_therm (s : State) (k : PageKind) (i : Nat) (f : Fld) (n : Nat) : (bumpBy s k i f n).therm = s.therm := rfl
@[simp] theorem bumpBy_profile (s : State) (k : PageKind) (i : Nat) (f : Fld) (n : Nat) : (bumpBy s k i f n).profile = s.profile := rfl
@[simp] theorem bumpBy_dieRecs (s : State) (k : PageKind) (i : Nat) (f : Fld) (n : Nat) : (bumpBy s k i f n).dieRecs = s.dieRecs := rfl
@[simp] theorem bumpBy_models (s : State) (k : PageKind) (i : Nat) (f : Fld) (n : Nat) : (bumpBy s k i f n).models = s.models := rfl
@[simp] theorem bumpBy_geometry (s : State) (k : PageKind) (i : Nat) (f : Fld) (n : Nat) : (bumpBy s k i f n).geometry = s.geometry := rfl
@[simp] theorem bumpBy_caches (s : State) (k : PageKind) (i : Nat) (f : Fld) (n : Nat) : (bumpBy s k i f n).caches = s.caches := rfl
@[simp] theorem bumpBy_basil (s : State) (k : PageKind) (i : Nat) (f : Fld) (n : Nat) : (bumpBy s k i f n).basil = s.basil := rfl
@[simp] theorem bumpBy_dram (s : State) (k : PageKind) (i : Nat) (f : Fld) (n : Nat) : (bumpBy s k i f n).dram = s.dram := rfl
@[simp] theorem bumpBy_windows (s : State) (k : PageKind) (i : Nat) (f : Fld) (n : Nat) : (bumpBy s k i f n).windows = s.windows := rfl
@[simp] theorem bumpBy_doom (s : State) (k : PageKind) (i : Nat) (f : Fld) (n : Nat) : (bumpBy s k i f n).doom = s.doom := rfl
@[simp] theorem bumpBy_gpioExt (s : State) (k : PageKind) (i : Nat) (f : Fld) (n : Nat) : (bumpBy s k i f n).gpioExt = s.gpioExt := rfl
@[simp] theorem bumpBy_slots (s : State) (k : PageKind) (i : Nat) (f : Fld) (n : Nat) : (bumpBy s k i f n).slots = s.slots := rfl
@[simp] theorem bumpBy_dlBuf (s : State) (k : PageKind) (i : Nat) (f : Fld) (n : Nat) : (bumpBy s k i f n).dlBuf = s.dlBuf := rfl
@[simp] theorem bumpBy_fwHold (s : State) (k : PageKind) (i : Nat) (f : Fld) (n : Nat) : (bumpBy s k i f n).fwHold = s.fwHold := rfl
@[simp] theorem bumpBy_code (s : State) (k : PageKind) (i : Nat) (f : Fld) (n : Nat) : (bumpBy s k i f n).code = s.code := rfl
@[simp] theorem bumpBy_sealedProfile (s : State) (k : PageKind) (i : Nat) (f : Fld) (n : Nat) : (bumpBy s k i f n).sealedProfile = s.sealedProfile := rfl
@[simp] theorem bumpBy_recovAt (s : State) (k : PageKind) (i : Nat) (f : Fld) (n : Nat) : (bumpBy s k i f n).recovAt = s.recovAt := rfl
@[simp] theorem bumpBy_startMs (s : State) (k : PageKind) (i : Nat) (f : Fld) (n : Nat) : (bumpBy s k i f n).startMs = s.startMs := rfl
@[simp] theorem bumpBy_eraseBook (s : State) (k : PageKind) (i : Nat) (f : Fld) (n : Nat) : (bumpBy s k i f n).eraseBook = s.eraseBook := rfl

/-! ### bump -/

@[simp] theorem bump_pending (s : State) (k : PageKind) (i : Nat) (f : Fld) : (bump s k i f).pending = s.pending := rfl
@[simp] theorem bump_out (s : State) (k : PageKind) (i : Nat) (f : Fld) : (bump s k i f).out = s.out := rfl
@[simp] theorem bump_now (s : State) (k : PageKind) (i : Nat) (f : Fld) : (bump s k i f).now = s.now := rfl
@[simp] theorem bump_free (s : State) (k : PageKind) (i : Nat) (f : Fld) : (bump s k i f).free = s.free := rfl
@[simp] theorem bump_mode (s : State) (k : PageKind) (i : Nat) (f : Fld) : (bump s k i f).mode = s.mode := rfl
@[simp] theorem bump_pos (s : State) (k : PageKind) (i : Nat) (f : Fld) : (bump s k i f).pos = s.pos := rfl
@[simp] theorem bump_pcyc (s : State) (k : PageKind) (i : Nat) (f : Fld) : (bump s k i f).pcyc = s.pcyc := rfl
@[simp] theorem bump_flog (s : State) (k : PageKind) (i : Nat) (f : Fld) : (bump s k i f).flog = s.flog := rfl
@[simp] theorem bump_oos (s : State) (k : PageKind) (i : Nat) (f : Fld) : (bump s k i f).oos = s.oos := rfl
@[simp] theorem bump_mgmt (s : State) (k : PageKind) (i : Nat) (f : Fld) : (bump s k i f).mgmt = s.mgmt := rfl
@[simp] theorem bump_nims (s : State) (k : PageKind) (i : Nat) (f : Fld) : (bump s k i f).nims = s.nims := rfl
@[simp] theorem bump_eth (s : State) (k : PageKind) (i : Nat) (f : Fld) : (bump s k i f).eth = s.eth := rfl
@[simp] theorem bump_ifs (s : State) (k : PageKind) (i : Nat) (f : Fld) : (bump s k i f).ifs = s.ifs := rfl
@[simp] theorem bump_conns (s : State) (k : PageKind) (i : Nat) (f : Fld) : (bump s k i f).conns = s.conns := rfl
@[simp] theorem bump_txWait (s : State) (k : PageKind) (i : Nat) (f : Fld) : (bump s k i f).txWait = s.txWait := rfl
@[simp] theorem bump_tslots (s : State) (k : PageKind) (i : Nat) (f : Fld) : (bump s k i f).tslots = s.tslots := rfl
@[simp] theorem bump_ctrls (s : State) (k : PageKind) (i : Nat) (f : Fld) : (bump s k i f).ctrls = s.ctrls := rfl
@[simp] theorem bump_tenants (s : State) (k : PageKind) (i : Nat) (f : Fld) : (bump s k i f).tenants = s.tenants := rfl
@[simp] theorem bump_nss (s : State) (k : PageKind) (i : Nat) (f : Fld) : (bump s k i f).nss = s.nss := rfl
@[simp] theorem bump_nsKeys (s : State) (k : PageKind) (i : Nat) (f : Fld) : (bump s k i f).nsKeys = s.nsKeys := rfl
@[simp] theorem bump_keyGen (s : State) (k : PageKind) (i : Nat) (f : Fld) : (bump s k i f).keyGen = s.keyGen := rfl
@[simp] theorem bump_lostSlots (s : State) (k : PageKind) (i : Nat) (f : Fld) : (bump s k i f).lostSlots = s.lostSlots := rfl
@[simp] theorem bump_nextKey (s : State) (k : PageKind) (i : Nat) (f : Fld) : (bump s k i f).nextKey = s.nextKey := rfl
@[simp] theorem bump_keyRecs (s : State) (k : PageKind) (i : Nat) (f : Fld) : (bump s k i f).keyRecs = s.keyRecs := rfl
@[simp] theorem bump_sealCtr (s : State) (k : PageKind) (i : Nat) (f : Fld) : (bump s k i f).sealCtr = s.sealCtr := rfl
@[simp] theorem bump_spdm (s : State) (k : PageKind) (i : Nat) (f : Fld) : (bump s k i f).spdm = s.spdm := rfl
@[simp] theorem bump_mfEnroll (s : State) (k : PageKind) (i : Nat) (f : Fld) : (bump s k i f).mfEnroll = s.mfEnroll := rfl
@[simp] theorem bump_secs (s : State) (k : PageKind) (i : Nat) (f : Fld) : (bump s k i f).secs = s.secs := rfl
@[simp] theorem bump_cores (s : State) (k : PageKind) (i : Nat) (f : Fld) : (bump s k i f).cores = s.cores := rfl
@[simp] theorem bump_cjobs (s : State) (k : PageKind) (i : Nat) (f : Fld) : (bump s k i f).cjobs = s.cjobs := rfl
@[simp] theorem bump_cctx (s : State) (k : PageKind) (i : Nat) (f : Fld) : (bump s k i f).cctx = s.cctx := rfl
@[simp] theorem bump_savedRegs (s : State) (k : PageKind) (i : Nat) (f : Fld) : (bump s k i f).savedRegs = s.savedRegs := rfl
@[simp] theorem bump_savedIfs (s : State) (k : PageKind) (i : Nat) (f : Fld) : (bump s k i f).savedIfs = s.savedIfs := rfl
@[simp] theorem bump_cmds (s : State) (k : PageKind) (i : Nat) (f : Fld) : (bump s k i f).cmds = s.cmds := rfl
@[simp] theorem bump_nextCmd (s : State) (k : PageKind) (i : Nat) (f : Fld) : (bump s k i f).nextCmd = s.nextCmd := rfl
@[simp] theorem bump_held (s : State) (k : PageKind) (i : Nat) (f : Fld) : (bump s k i f).held = s.held := rfl
@[simp] theorem bump_adminWaits (s : State) (k : PageKind) (i : Nat) (f : Fld) : (bump s k i f).adminWaits = s.adminWaits := rfl
@[simp] theorem bump_diesets (s : State) (k : PageKind) (i : Nat) (f : Fld) : (bump s k i f).diesets = s.diesets := rfl
@[simp] theorem bump_bands (s : State) (k : PageKind) (i : Nat) (f : Fld) : (bump s k i f).bands = s.bands := rfl
@[simp] theorem bump_bandCtr (s : State) (k : PageKind) (i : Nat) (f : Fld) : (bump s k i f).bandCtr = s.bandCtr := rfl
@[simp] theorem bump_blks (s : State) (k : PageKind) (i : Nat) (f : Fld) : (bump s k i f).blks = s.blks := rfl
@[simp] theorem bump_staged (s : State) (k : PageKind) (i : Nat) (f : Fld) : (bump s k i f).staged = s.staged := rfl
@[simp] theorem bump_nextUnit (s : State) (k : PageKind) (i : Nat) (f : Fld) : (bump s k i f).nextUnit = s.nextUnit := rfl
@[simp] theorem bump_nextAck (s : State) (k : PageKind) (i : Nat) (f : Fld) : (bump s k i f).nextAck = s.nextAck := rfl
@[simp] theorem bump_flash (s : State) (k : PageKind) (i : Nat) (f : Fld) : (bump s k i f).flash = s.flash := rfl
@[simp] theorem bump_holdLow (s : State) (k : PageKind) (i : Nat) (f : Fld) : (bump s k i f).holdLow = s.holdLow := rfl
@[simp] theorem bump_jr (s : State) (k : PageKind) (i : Nat) (f : Fld) : (bump s k i f).jr = s.jr := rfl
@[simp] theorem bump_ckpts (s : State) (k : PageKind) (i : Nat) (f : Fld) : (bump s k i f).ckpts = s.ckpts := rfl
@[simp] theorem bump_tabCkpt (s : State) (k : PageKind) (i : Nat) (f : Fld) : (bump s k i f).tabCkpt = s.tabCkpt := rfl
@[simp] theorem bump_patrolAt (s : State) (k : PageKind) (i : Nat) (f : Fld) : (bump s k i f).patrolAt = s.patrolAt := rfl
@[simp] theorem bump_feeds (s : State) (k : PageKind) (i : Nat) (f : Fld) : (bump s k i f).feeds = s.feeds := rfl
@[simp] theorem bump_dies (s : State) (k : PageKind) (i : Nat) (f : Fld) : (bump s k i f).dies = s.dies := rfl
@[simp] theorem bump_tileRes (s : State) (k : PageKind) (i : Nat) (f : Fld) : (bump s k i f).tileRes = s.tileRes := rfl
@[simp] theorem bump_lanes (s : State) (k : PageKind) (i : Nat) (f : Fld) : (bump s k i f).lanes = s.lanes := rfl
@[simp] theorem bump_climbs (s : State) (k : PageKind) (i : Nat) (f : Fld) : (bump s k i f).climbs = s.climbs := rfl
@[simp] theorem bump_nextClimb (s : State) (k : PageKind) (i : Nat) (f : Fld) : (bump s k i f).nextClimb = s.nextClimb := rfl
@[simp] theorem bump_raws (s : State) (k : PageKind) (i : Nat) (f : Fld) : (bump s k i f).raws = s.raws := rfl
@[simp] theorem bump_llr (s : State) (k : PageKind) (i : Nat) (f : Fld) : (bump s k i f).llr = s.llr := rfl
@[simp] theorem bump_thyme (s : State) (k : PageKind) (i : Nat) (f : Fld) : (bump s k i f).thyme = s.thyme := rfl
@[simp] theorem bump_patch (s : State) (k : PageKind) (i : Nat) (f : Fld) : (bump s k i f).patch = s.patch := rfl
@[simp] theorem bump_matchRegs (s : State) (k : PageKind) (i : Nat) (f : Fld) : (bump s k i f).matchRegs = s.matchRegs := rfl
@[simp] theorem bump_byteBkts (s : State) (k : PageKind) (i : Nat) (f : Fld) : (bump s k i f).byteBkts = s.byteBkts := rfl
@[simp] theorem bump_cmdBkts (s : State) (k : PageKind) (i : Nat) (f : Fld) : (bump s k i f).cmdBkts = s.cmdBkts := rfl
@[simp] theorem bump_readBkt (s : State) (k : PageKind) (i : Nat) (f : Fld) : (bump s k i f).readBkt = s.readBkt := rfl
@[simp] theorem bump_writeBkt (s : State) (k : PageKind) (i : Nat) (f : Fld) : (bump s k i f).writeBkt = s.writeBkt := rfl
@[simp] theorem bump_arb (s : State) (k : PageKind) (i : Nat) (f : Fld) : (bump s k i f).arb = s.arb := rfl
@[simp] theorem bump_stage (s : State) (k : PageKind) (i : Nat) (f : Fld) : (bump s k i f).stage = s.stage := rfl
@[simp] theorem bump_migs (s : State) (k : PageKind) (i : Nat) (f : Fld) : (bump s k i f).migs = s.migs := rfl
@[simp] theorem bump_recd (s : State) (k : PageKind) (i : Nat) (f : Fld) : (bump s k i f).recd = s.recd := rfl
@[simp] theorem bump_trecs (s : State) (k : PageKind) (i : Nat) (f : Fld) : (bump s k i f).trecs = s.trecs := rfl
@[simp] theorem bump_meter (s : State) (k : PageKind) (i : Nat) (f : Fld) : (bump s k i f).meter = s.meter := rfl
@[simp] theorem bump_aon (s : State) (k : PageKind) (i : Nat) (f : Fld) : (bump s k i f).aon = s.aon := rfl
@[simp] theorem bump_plStat (s : State) (k : PageKind) (i : Nat) (f : Fld) : (bump s k i f).plStat = s.plStat := rfl
@[simp] theorem bump_plRun (s : State) (k : PageKind) (i : Nat) (f : Fld) : (bump s k i f).plRun = s.plRun := rfl
@[simp] theorem bump_pwr (s : State) (k : PageKind) (i : Nat) (f : Fld) : (bump s k i f).pwr = s.pwr := rfl
@[simp] theorem bump_therm (s : State) (k : PageKind) (i : Nat) (f : Fld) : (bump s k i f).therm = s.therm := rfl
@[simp] theorem bump_profile (s : State) (k : PageKind) (i : Nat) (f : Fld) : (bump s k i f).profile = s.profile := rfl
@[simp] theorem bump_dieRecs (s : State) (k : PageKind) (i : Nat) (f : Fld) : (bump s k i f).dieRecs = s.dieRecs := rfl
@[simp] theorem bump_models (s : State) (k : PageKind) (i : Nat) (f : Fld) : (bump s k i f).models = s.models := rfl
@[simp] theorem bump_geometry (s : State) (k : PageKind) (i : Nat) (f : Fld) : (bump s k i f).geometry = s.geometry := rfl
@[simp] theorem bump_caches (s : State) (k : PageKind) (i : Nat) (f : Fld) : (bump s k i f).caches = s.caches := rfl
@[simp] theorem bump_basil (s : State) (k : PageKind) (i : Nat) (f : Fld) : (bump s k i f).basil = s.basil := rfl
@[simp] theorem bump_dram (s : State) (k : PageKind) (i : Nat) (f : Fld) : (bump s k i f).dram = s.dram := rfl
@[simp] theorem bump_windows (s : State) (k : PageKind) (i : Nat) (f : Fld) : (bump s k i f).windows = s.windows := rfl
@[simp] theorem bump_doom (s : State) (k : PageKind) (i : Nat) (f : Fld) : (bump s k i f).doom = s.doom := rfl
@[simp] theorem bump_gpioExt (s : State) (k : PageKind) (i : Nat) (f : Fld) : (bump s k i f).gpioExt = s.gpioExt := rfl
@[simp] theorem bump_slots (s : State) (k : PageKind) (i : Nat) (f : Fld) : (bump s k i f).slots = s.slots := rfl
@[simp] theorem bump_dlBuf (s : State) (k : PageKind) (i : Nat) (f : Fld) : (bump s k i f).dlBuf = s.dlBuf := rfl
@[simp] theorem bump_fwHold (s : State) (k : PageKind) (i : Nat) (f : Fld) : (bump s k i f).fwHold = s.fwHold := rfl
@[simp] theorem bump_code (s : State) (k : PageKind) (i : Nat) (f : Fld) : (bump s k i f).code = s.code := rfl
@[simp] theorem bump_sealedProfile (s : State) (k : PageKind) (i : Nat) (f : Fld) : (bump s k i f).sealedProfile = s.sealedProfile := rfl
@[simp] theorem bump_recovAt (s : State) (k : PageKind) (i : Nat) (f : Fld) : (bump s k i f).recovAt = s.recovAt := rfl
@[simp] theorem bump_startMs (s : State) (k : PageKind) (i : Nat) (f : Fld) : (bump s k i f).startMs = s.startMs := rfl
@[simp] theorem bump_eraseBook (s : State) (k : PageKind) (i : Nat) (f : Fld) : (bump s k i f).eraseBook = s.eraseBook := rfl

/-! ### setCtrl -/

@[simp] theorem setCtrl_pending (s : State) (f : Nat) (c : Ctrl) : (setCtrl s f c).pending = s.pending := rfl
@[simp] theorem setCtrl_out (s : State) (f : Nat) (c : Ctrl) : (setCtrl s f c).out = s.out := rfl
@[simp] theorem setCtrl_now (s : State) (f : Nat) (c : Ctrl) : (setCtrl s f c).now = s.now := rfl
@[simp] theorem setCtrl_free (s : State) (f : Nat) (c : Ctrl) : (setCtrl s f c).free = s.free := rfl
@[simp] theorem setCtrl_regs (s : State) (f : Nat) (c : Ctrl) : (setCtrl s f c).regs = s.regs := rfl
@[simp] theorem setCtrl_mode (s : State) (f : Nat) (c : Ctrl) : (setCtrl s f c).mode = s.mode := rfl
@[simp] theorem setCtrl_pos (s : State) (f : Nat) (c : Ctrl) : (setCtrl s f c).pos = s.pos := rfl
@[simp] theorem setCtrl_pcyc (s : State) (f : Nat) (c : Ctrl) : (setCtrl s f c).pcyc = s.pcyc := rfl
@[simp] theorem setCtrl_flog (s : State) (f : Nat) (c : Ctrl) : (setCtrl s f c).flog = s.flog := rfl
@[simp] theorem setCtrl_oos (s : State) (f : Nat) (c : Ctrl) : (setCtrl s f c).oos = s.oos := rfl
@[simp] theorem setCtrl_mgmt (s : State) (f : Nat) (c : Ctrl) : (setCtrl s f c).mgmt = s.mgmt := rfl
@[simp] theorem setCtrl_nims (s : State) (f : Nat) (c : Ctrl) : (setCtrl s f c).nims = s.nims := rfl
@[simp] theorem setCtrl_eth (s : State) (f : Nat) (c : Ctrl) : (setCtrl s f c).eth = s.eth := rfl
@[simp] theorem setCtrl_ifs (s : State) (f : Nat) (c : Ctrl) : (setCtrl s f c).ifs = s.ifs := rfl
@[simp] theorem setCtrl_conns (s : State) (f : Nat) (c : Ctrl) : (setCtrl s f c).conns = s.conns := rfl
@[simp] theorem setCtrl_txWait (s : State) (f : Nat) (c : Ctrl) : (setCtrl s f c).txWait = s.txWait := rfl
@[simp] theorem setCtrl_tslots (s : State) (f : Nat) (c : Ctrl) : (setCtrl s f c).tslots = s.tslots := rfl
@[simp] theorem setCtrl_tenants (s : State) (f : Nat) (c : Ctrl) : (setCtrl s f c).tenants = s.tenants := rfl
@[simp] theorem setCtrl_nss (s : State) (f : Nat) (c : Ctrl) : (setCtrl s f c).nss = s.nss := rfl
@[simp] theorem setCtrl_nsKeys (s : State) (f : Nat) (c : Ctrl) : (setCtrl s f c).nsKeys = s.nsKeys := rfl
@[simp] theorem setCtrl_keyGen (s : State) (f : Nat) (c : Ctrl) : (setCtrl s f c).keyGen = s.keyGen := rfl
@[simp] theorem setCtrl_lostSlots (s : State) (f : Nat) (c : Ctrl) : (setCtrl s f c).lostSlots = s.lostSlots := rfl
@[simp] theorem setCtrl_nextKey (s : State) (f : Nat) (c : Ctrl) : (setCtrl s f c).nextKey = s.nextKey := rfl
@[simp] theorem setCtrl_keyRecs (s : State) (f : Nat) (c : Ctrl) : (setCtrl s f c).keyRecs = s.keyRecs := rfl
@[simp] theorem setCtrl_sealCtr (s : State) (f : Nat) (c : Ctrl) : (setCtrl s f c).sealCtr = s.sealCtr := rfl
@[simp] theorem setCtrl_spdm (s : State) (f : Nat) (c : Ctrl) : (setCtrl s f c).spdm = s.spdm := rfl
@[simp] theorem setCtrl_mfEnroll (s : State) (f : Nat) (c : Ctrl) : (setCtrl s f c).mfEnroll = s.mfEnroll := rfl
@[simp] theorem setCtrl_secs (s : State) (f : Nat) (c : Ctrl) : (setCtrl s f c).secs = s.secs := rfl
@[simp] theorem setCtrl_cores (s : State) (f : Nat) (c : Ctrl) : (setCtrl s f c).cores = s.cores := rfl
@[simp] theorem setCtrl_cjobs (s : State) (f : Nat) (c : Ctrl) : (setCtrl s f c).cjobs = s.cjobs := rfl
@[simp] theorem setCtrl_cctx (s : State) (f : Nat) (c : Ctrl) : (setCtrl s f c).cctx = s.cctx := rfl
@[simp] theorem setCtrl_savedRegs (s : State) (f : Nat) (c : Ctrl) : (setCtrl s f c).savedRegs = s.savedRegs := rfl
@[simp] theorem setCtrl_savedIfs (s : State) (f : Nat) (c : Ctrl) : (setCtrl s f c).savedIfs = s.savedIfs := rfl
@[simp] theorem setCtrl_cmds (s : State) (f : Nat) (c : Ctrl) : (setCtrl s f c).cmds = s.cmds := rfl
@[simp] theorem setCtrl_nextCmd (s : State) (f : Nat) (c : Ctrl) : (setCtrl s f c).nextCmd = s.nextCmd := rfl
@[simp] theorem setCtrl_held (s : State) (f : Nat) (c : Ctrl) : (setCtrl s f c).held = s.held := rfl
@[simp] theorem setCtrl_adminWaits (s : State) (f : Nat) (c : Ctrl) : (setCtrl s f c).adminWaits = s.adminWaits := rfl
@[simp] theorem setCtrl_diesets (s : State) (f : Nat) (c : Ctrl) : (setCtrl s f c).diesets = s.diesets := rfl
@[simp] theorem setCtrl_bands (s : State) (f : Nat) (c : Ctrl) : (setCtrl s f c).bands = s.bands := rfl
@[simp] theorem setCtrl_bandCtr (s : State) (f : Nat) (c : Ctrl) : (setCtrl s f c).bandCtr = s.bandCtr := rfl
@[simp] theorem setCtrl_blks (s : State) (f : Nat) (c : Ctrl) : (setCtrl s f c).blks = s.blks := rfl
@[simp] theorem setCtrl_staged (s : State) (f : Nat) (c : Ctrl) : (setCtrl s f c).staged = s.staged := rfl
@[simp] theorem setCtrl_nextUnit (s : State) (f : Nat) (c : Ctrl) : (setCtrl s f c).nextUnit = s.nextUnit := rfl
@[simp] theorem setCtrl_nextAck (s : State) (f : Nat) (c : Ctrl) : (setCtrl s f c).nextAck = s.nextAck := rfl
@[simp] theorem setCtrl_flash (s : State) (f : Nat) (c : Ctrl) : (setCtrl s f c).flash = s.flash := rfl
@[simp] theorem setCtrl_holdLow (s : State) (f : Nat) (c : Ctrl) : (setCtrl s f c).holdLow = s.holdLow := rfl
@[simp] theorem setCtrl_jr (s : State) (f : Nat) (c : Ctrl) : (setCtrl s f c).jr = s.jr := rfl
@[simp] theorem setCtrl_ckpts (s : State) (f : Nat) (c : Ctrl) : (setCtrl s f c).ckpts = s.ckpts := rfl
@[simp] theorem setCtrl_tabCkpt (s : State) (f : Nat) (c : Ctrl) : (setCtrl s f c).tabCkpt = s.tabCkpt := rfl
@[simp] theorem setCtrl_patrolAt (s : State) (f : Nat) (c : Ctrl) : (setCtrl s f c).patrolAt = s.patrolAt := rfl
@[simp] theorem setCtrl_feeds (s : State) (f : Nat) (c : Ctrl) : (setCtrl s f c).feeds = s.feeds := rfl
@[simp] theorem setCtrl_dies (s : State) (f : Nat) (c : Ctrl) : (setCtrl s f c).dies = s.dies := rfl
@[simp] theorem setCtrl_tileRes (s : State) (f : Nat) (c : Ctrl) : (setCtrl s f c).tileRes = s.tileRes := rfl
@[simp] theorem setCtrl_lanes (s : State) (f : Nat) (c : Ctrl) : (setCtrl s f c).lanes = s.lanes := rfl
@[simp] theorem setCtrl_climbs (s : State) (f : Nat) (c : Ctrl) : (setCtrl s f c).climbs = s.climbs := rfl
@[simp] theorem setCtrl_nextClimb (s : State) (f : Nat) (c : Ctrl) : (setCtrl s f c).nextClimb = s.nextClimb := rfl
@[simp] theorem setCtrl_raws (s : State) (f : Nat) (c : Ctrl) : (setCtrl s f c).raws = s.raws := rfl
@[simp] theorem setCtrl_llr (s : State) (f : Nat) (c : Ctrl) : (setCtrl s f c).llr = s.llr := rfl
@[simp] theorem setCtrl_thyme (s : State) (f : Nat) (c : Ctrl) : (setCtrl s f c).thyme = s.thyme := rfl
@[simp] theorem setCtrl_patch (s : State) (f : Nat) (c : Ctrl) : (setCtrl s f c).patch = s.patch := rfl
@[simp] theorem setCtrl_matchRegs (s : State) (f : Nat) (c : Ctrl) : (setCtrl s f c).matchRegs = s.matchRegs := rfl
@[simp] theorem setCtrl_byteBkts (s : State) (f : Nat) (c : Ctrl) : (setCtrl s f c).byteBkts = s.byteBkts := rfl
@[simp] theorem setCtrl_cmdBkts (s : State) (f : Nat) (c : Ctrl) : (setCtrl s f c).cmdBkts = s.cmdBkts := rfl
@[simp] theorem setCtrl_readBkt (s : State) (f : Nat) (c : Ctrl) : (setCtrl s f c).readBkt = s.readBkt := rfl
@[simp] theorem setCtrl_writeBkt (s : State) (f : Nat) (c : Ctrl) : (setCtrl s f c).writeBkt = s.writeBkt := rfl
@[simp] theorem setCtrl_arb (s : State) (f : Nat) (c : Ctrl) : (setCtrl s f c).arb = s.arb := rfl
@[simp] theorem setCtrl_stage (s : State) (f : Nat) (c : Ctrl) : (setCtrl s f c).stage = s.stage := rfl
@[simp] theorem setCtrl_migs (s : State) (f : Nat) (c : Ctrl) : (setCtrl s f c).migs = s.migs := rfl
@[simp] theorem setCtrl_recd (s : State) (f : Nat) (c : Ctrl) : (setCtrl s f c).recd = s.recd := rfl
@[simp] theorem setCtrl_trecs (s : State) (f : Nat) (c : Ctrl) : (setCtrl s f c).trecs = s.trecs := rfl
@[simp] theorem setCtrl_meter (s : State) (f : Nat) (c : Ctrl) : (setCtrl s f c).meter = s.meter := rfl
@[simp] theorem setCtrl_aon (s : State) (f : Nat) (c : Ctrl) : (setCtrl s f c).aon = s.aon := rfl
@[simp] theorem setCtrl_plStat (s : State) (f : Nat) (c : Ctrl) : (setCtrl s f c).plStat = s.plStat := rfl
@[simp] theorem setCtrl_plRun (s : State) (f : Nat) (c : Ctrl) : (setCtrl s f c).plRun = s.plRun := rfl
@[simp] theorem setCtrl_pwr (s : State) (f : Nat) (c : Ctrl) : (setCtrl s f c).pwr = s.pwr := rfl
@[simp] theorem setCtrl_therm (s : State) (f : Nat) (c : Ctrl) : (setCtrl s f c).therm = s.therm := rfl
@[simp] theorem setCtrl_profile (s : State) (f : Nat) (c : Ctrl) : (setCtrl s f c).profile = s.profile := rfl
@[simp] theorem setCtrl_dieRecs (s : State) (f : Nat) (c : Ctrl) : (setCtrl s f c).dieRecs = s.dieRecs := rfl
@[simp] theorem setCtrl_models (s : State) (f : Nat) (c : Ctrl) : (setCtrl s f c).models = s.models := rfl
@[simp] theorem setCtrl_geometry (s : State) (f : Nat) (c : Ctrl) : (setCtrl s f c).geometry = s.geometry := rfl
@[simp] theorem setCtrl_caches (s : State) (f : Nat) (c : Ctrl) : (setCtrl s f c).caches = s.caches := rfl
@[simp] theorem setCtrl_basil (s : State) (f : Nat) (c : Ctrl) : (setCtrl s f c).basil = s.basil := rfl
@[simp] theorem setCtrl_dram (s : State) (f : Nat) (c : Ctrl) : (setCtrl s f c).dram = s.dram := rfl
@[simp] theorem setCtrl_windows (s : State) (f : Nat) (c : Ctrl) : (setCtrl s f c).windows = s.windows := rfl
@[simp] theorem setCtrl_doom (s : State) (f : Nat) (c : Ctrl) : (setCtrl s f c).doom = s.doom := rfl
@[simp] theorem setCtrl_gpioExt (s : State) (f : Nat) (c : Ctrl) : (setCtrl s f c).gpioExt = s.gpioExt := rfl
@[simp] theorem setCtrl_slots (s : State) (f : Nat) (c : Ctrl) : (setCtrl s f c).slots = s.slots := rfl
@[simp] theorem setCtrl_dlBuf (s : State) (f : Nat) (c : Ctrl) : (setCtrl s f c).dlBuf = s.dlBuf := rfl
@[simp] theorem setCtrl_fwHold (s : State) (f : Nat) (c : Ctrl) : (setCtrl s f c).fwHold = s.fwHold := rfl
@[simp] theorem setCtrl_code (s : State) (f : Nat) (c : Ctrl) : (setCtrl s f c).code = s.code := rfl
@[simp] theorem setCtrl_sealedProfile (s : State) (f : Nat) (c : Ctrl) : (setCtrl s f c).sealedProfile = s.sealedProfile := rfl
@[simp] theorem setCtrl_recovAt (s : State) (f : Nat) (c : Ctrl) : (setCtrl s f c).recovAt = s.recovAt := rfl
@[simp] theorem setCtrl_startMs (s : State) (f : Nat) (c : Ctrl) : (setCtrl s f c).startMs = s.startMs := rfl
@[simp] theorem setCtrl_eraseBook (s : State) (f : Nat) (c : Ctrl) : (setCtrl s f c).eraseBook = s.eraseBook := rfl

/-! ### setTenant -/

@[simp] theorem setTenant_pending (s : State) (t : Nat) (x : Tenant) : (setTenant s t x).pending = s.pending := rfl
@[simp] theorem setTenant_out (s : State) (t : Nat) (x : Tenant) : (setTenant s t x).out = s.out := rfl
@[simp] theorem setTenant_now (s : State) (t : Nat) (x : Tenant) : (setTenant s t x).now = s.now := rfl
@[simp] theorem setTenant_free (s : State) (t : Nat) (x : Tenant) : (setTenant s t x).free = s.free := rfl
@[simp] theorem setTenant_regs (s : State) (t : Nat) (x : Tenant) : (setTenant s t x).regs = s.regs := rfl
@[simp] theorem setTenant_mode (s : State) (t : Nat) (x : Tenant) : (setTenant s t x).mode = s.mode := rfl
@[simp] theorem setTenant_pos (s : State) (t : Nat) (x : Tenant) : (setTenant s t x).pos = s.pos := rfl
@[simp] theorem setTenant_pcyc (s : State) (t : Nat) (x : Tenant) : (setTenant s t x).pcyc = s.pcyc := rfl
@[simp] theorem setTenant_flog (s : State) (t : Nat) (x : Tenant) : (setTenant s t x).flog = s.flog := rfl
@[simp] theorem setTenant_oos (s : State) (t : Nat) (x : Tenant) : (setTenant s t x).oos = s.oos := rfl
@[simp] theorem setTenant_mgmt (s : State) (t : Nat) (x : Tenant) : (setTenant s t x).mgmt = s.mgmt := rfl
@[simp] theorem setTenant_nims (s : State) (t : Nat) (x : Tenant) : (setTenant s t x).nims = s.nims := rfl
@[simp] theorem setTenant_eth (s : State) (t : Nat) (x : Tenant) : (setTenant s t x).eth = s.eth := rfl
@[simp] theorem setTenant_ifs (s : State) (t : Nat) (x : Tenant) : (setTenant s t x).ifs = s.ifs := rfl
@[simp] theorem setTenant_conns (s : State) (t : Nat) (x : Tenant) : (setTenant s t x).conns = s.conns := rfl
@[simp] theorem setTenant_txWait (s : State) (t : Nat) (x : Tenant) : (setTenant s t x).txWait = s.txWait := rfl
@[simp] theorem setTenant_tslots (s : State) (t : Nat) (x : Tenant) : (setTenant s t x).tslots = s.tslots := rfl
@[simp] theorem setTenant_ctrls (s : State) (t : Nat) (x : Tenant) : (setTenant s t x).ctrls = s.ctrls := rfl
@[simp] theorem setTenant_nss (s : State) (t : Nat) (x : Tenant) : (setTenant s t x).nss = s.nss := rfl
@[simp] theorem setTenant_nsKeys (s : State) (t : Nat) (x : Tenant) : (setTenant s t x).nsKeys = s.nsKeys := rfl
@[simp] theorem setTenant_keyGen (s : State) (t : Nat) (x : Tenant) : (setTenant s t x).keyGen = s.keyGen := rfl
@[simp] theorem setTenant_lostSlots (s : State) (t : Nat) (x : Tenant) : (setTenant s t x).lostSlots = s.lostSlots := rfl
@[simp] theorem setTenant_nextKey (s : State) (t : Nat) (x : Tenant) : (setTenant s t x).nextKey = s.nextKey := rfl
@[simp] theorem setTenant_keyRecs (s : State) (t : Nat) (x : Tenant) : (setTenant s t x).keyRecs = s.keyRecs := rfl
@[simp] theorem setTenant_sealCtr (s : State) (t : Nat) (x : Tenant) : (setTenant s t x).sealCtr = s.sealCtr := rfl
@[simp] theorem setTenant_spdm (s : State) (t : Nat) (x : Tenant) : (setTenant s t x).spdm = s.spdm := rfl
@[simp] theorem setTenant_mfEnroll (s : State) (t : Nat) (x : Tenant) : (setTenant s t x).mfEnroll = s.mfEnroll := rfl
@[simp] theorem setTenant_secs (s : State) (t : Nat) (x : Tenant) : (setTenant s t x).secs = s.secs := rfl
@[simp] theorem setTenant_cores (s : State) (t : Nat) (x : Tenant) : (setTenant s t x).cores = s.cores := rfl
@[simp] theorem setTenant_cjobs (s : State) (t : Nat) (x : Tenant) : (setTenant s t x).cjobs = s.cjobs := rfl
@[simp] theorem setTenant_cctx (s : State) (t : Nat) (x : Tenant) : (setTenant s t x).cctx = s.cctx := rfl
@[simp] theorem setTenant_savedRegs (s : State) (t : Nat) (x : Tenant) : (setTenant s t x).savedRegs = s.savedRegs := rfl
@[simp] theorem setTenant_savedIfs (s : State) (t : Nat) (x : Tenant) : (setTenant s t x).savedIfs = s.savedIfs := rfl
@[simp] theorem setTenant_cmds (s : State) (t : Nat) (x : Tenant) : (setTenant s t x).cmds = s.cmds := rfl
@[simp] theorem setTenant_nextCmd (s : State) (t : Nat) (x : Tenant) : (setTenant s t x).nextCmd = s.nextCmd := rfl
@[simp] theorem setTenant_held (s : State) (t : Nat) (x : Tenant) : (setTenant s t x).held = s.held := rfl
@[simp] theorem setTenant_adminWaits (s : State) (t : Nat) (x : Tenant) : (setTenant s t x).adminWaits = s.adminWaits := rfl
@[simp] theorem setTenant_diesets (s : State) (t : Nat) (x : Tenant) : (setTenant s t x).diesets = s.diesets := rfl
@[simp] theorem setTenant_bands (s : State) (t : Nat) (x : Tenant) : (setTenant s t x).bands = s.bands := rfl
@[simp] theorem setTenant_bandCtr (s : State) (t : Nat) (x : Tenant) : (setTenant s t x).bandCtr = s.bandCtr := rfl
@[simp] theorem setTenant_blks (s : State) (t : Nat) (x : Tenant) : (setTenant s t x).blks = s.blks := rfl
@[simp] theorem setTenant_staged (s : State) (t : Nat) (x : Tenant) : (setTenant s t x).staged = s.staged := rfl
@[simp] theorem setTenant_nextUnit (s : State) (t : Nat) (x : Tenant) : (setTenant s t x).nextUnit = s.nextUnit := rfl
@[simp] theorem setTenant_nextAck (s : State) (t : Nat) (x : Tenant) : (setTenant s t x).nextAck = s.nextAck := rfl
@[simp] theorem setTenant_flash (s : State) (t : Nat) (x : Tenant) : (setTenant s t x).flash = s.flash := rfl
@[simp] theorem setTenant_holdLow (s : State) (t : Nat) (x : Tenant) : (setTenant s t x).holdLow = s.holdLow := rfl
@[simp] theorem setTenant_jr (s : State) (t : Nat) (x : Tenant) : (setTenant s t x).jr = s.jr := rfl
@[simp] theorem setTenant_ckpts (s : State) (t : Nat) (x : Tenant) : (setTenant s t x).ckpts = s.ckpts := rfl
@[simp] theorem setTenant_tabCkpt (s : State) (t : Nat) (x : Tenant) : (setTenant s t x).tabCkpt = s.tabCkpt := rfl
@[simp] theorem setTenant_patrolAt (s : State) (t : Nat) (x : Tenant) : (setTenant s t x).patrolAt = s.patrolAt := rfl
@[simp] theorem setTenant_feeds (s : State) (t : Nat) (x : Tenant) : (setTenant s t x).feeds = s.feeds := rfl
@[simp] theorem setTenant_dies (s : State) (t : Nat) (x : Tenant) : (setTenant s t x).dies = s.dies := rfl
@[simp] theorem setTenant_tileRes (s : State) (t : Nat) (x : Tenant) : (setTenant s t x).tileRes = s.tileRes := rfl
@[simp] theorem setTenant_lanes (s : State) (t : Nat) (x : Tenant) : (setTenant s t x).lanes = s.lanes := rfl
@[simp] theorem setTenant_climbs (s : State) (t : Nat) (x : Tenant) : (setTenant s t x).climbs = s.climbs := rfl
@[simp] theorem setTenant_nextClimb (s : State) (t : Nat) (x : Tenant) : (setTenant s t x).nextClimb = s.nextClimb := rfl
@[simp] theorem setTenant_raws (s : State) (t : Nat) (x : Tenant) : (setTenant s t x).raws = s.raws := rfl
@[simp] theorem setTenant_llr (s : State) (t : Nat) (x : Tenant) : (setTenant s t x).llr = s.llr := rfl
@[simp] theorem setTenant_thyme (s : State) (t : Nat) (x : Tenant) : (setTenant s t x).thyme = s.thyme := rfl
@[simp] theorem setTenant_patch (s : State) (t : Nat) (x : Tenant) : (setTenant s t x).patch = s.patch := rfl
@[simp] theorem setTenant_matchRegs (s : State) (t : Nat) (x : Tenant) : (setTenant s t x).matchRegs = s.matchRegs := rfl
@[simp] theorem setTenant_byteBkts (s : State) (t : Nat) (x : Tenant) : (setTenant s t x).byteBkts = s.byteBkts := rfl
@[simp] theorem setTenant_cmdBkts (s : State) (t : Nat) (x : Tenant) : (setTenant s t x).cmdBkts = s.cmdBkts := rfl
@[simp] theorem setTenant_readBkt (s : State) (t : Nat) (x : Tenant) : (setTenant s t x).readBkt = s.readBkt := rfl
@[simp] theorem setTenant_writeBkt (s : State) (t : Nat) (x : Tenant) : (setTenant s t x).writeBkt = s.writeBkt := rfl
@[simp] theorem setTenant_arb (s : State) (t : Nat) (x : Tenant) : (setTenant s t x).arb = s.arb := rfl
@[simp] theorem setTenant_stage (s : State) (t : Nat) (x : Tenant) : (setTenant s t x).stage = s.stage := rfl
@[simp] theorem setTenant_migs (s : State) (t : Nat) (x : Tenant) : (setTenant s t x).migs = s.migs := rfl
@[simp] theorem setTenant_recd (s : State) (t : Nat) (x : Tenant) : (setTenant s t x).recd = s.recd := rfl
@[simp] theorem setTenant_trecs (s : State) (t : Nat) (x : Tenant) : (setTenant s t x).trecs = s.trecs := rfl
@[simp] theorem setTenant_meter (s : State) (t : Nat) (x : Tenant) : (setTenant s t x).meter = s.meter := rfl
@[simp] theorem setTenant_aon (s : State) (t : Nat) (x : Tenant) : (setTenant s t x).aon = s.aon := rfl
@[simp] theorem setTenant_plStat (s : State) (t : Nat) (x : Tenant) : (setTenant s t x).plStat = s.plStat := rfl
@[simp] theorem setTenant_plRun (s : State) (t : Nat) (x : Tenant) : (setTenant s t x).plRun = s.plRun := rfl
@[simp] theorem setTenant_pwr (s : State) (t : Nat) (x : Tenant) : (setTenant s t x).pwr = s.pwr := rfl
@[simp] theorem setTenant_therm (s : State) (t : Nat) (x : Tenant) : (setTenant s t x).therm = s.therm := rfl
@[simp] theorem setTenant_profile (s : State) (t : Nat) (x : Tenant) : (setTenant s t x).profile = s.profile := rfl
@[simp] theorem setTenant_dieRecs (s : State) (t : Nat) (x : Tenant) : (setTenant s t x).dieRecs = s.dieRecs := rfl
@[simp] theorem setTenant_models (s : State) (t : Nat) (x : Tenant) : (setTenant s t x).models = s.models := rfl
@[simp] theorem setTenant_geometry (s : State) (t : Nat) (x : Tenant) : (setTenant s t x).geometry = s.geometry := rfl
@[simp] theorem setTenant_caches (s : State) (t : Nat) (x : Tenant) : (setTenant s t x).caches = s.caches := rfl
@[simp] theorem setTenant_basil (s : State) (t : Nat) (x : Tenant) : (setTenant s t x).basil = s.basil := rfl
@[simp] theorem setTenant_dram (s : State) (t : Nat) (x : Tenant) : (setTenant s t x).dram = s.dram := rfl
@[simp] theorem setTenant_windows (s : State) (t : Nat) (x : Tenant) : (setTenant s t x).windows = s.windows := rfl
@[simp] theorem setTenant_doom (s : State) (t : Nat) (x : Tenant) : (setTenant s t x).doom = s.doom := rfl
@[simp] theorem setTenant_gpioExt (s : State) (t : Nat) (x : Tenant) : (setTenant s t x).gpioExt = s.gpioExt := rfl
@[simp] theorem setTenant_slots (s : State) (t : Nat) (x : Tenant) : (setTenant s t x).slots = s.slots := rfl
@[simp] theorem setTenant_dlBuf (s : State) (t : Nat) (x : Tenant) : (setTenant s t x).dlBuf = s.dlBuf := rfl
@[simp] theorem setTenant_fwHold (s : State) (t : Nat) (x : Tenant) : (setTenant s t x).fwHold = s.fwHold := rfl
@[simp] theorem setTenant_code (s : State) (t : Nat) (x : Tenant) : (setTenant s t x).code = s.code := rfl
@[simp] theorem setTenant_sealedProfile (s : State) (t : Nat) (x : Tenant) : (setTenant s t x).sealedProfile = s.sealedProfile := rfl
@[simp] theorem setTenant_recovAt (s : State) (t : Nat) (x : Tenant) : (setTenant s t x).recovAt = s.recovAt := rfl
@[simp] theorem setTenant_startMs (s : State) (t : Nat) (x : Tenant) : (setTenant s t x).startMs = s.startMs := rfl
@[simp] theorem setTenant_eraseBook (s : State) (t : Nat) (x : Tenant) : (setTenant s t x).eraseBook = s.eraseBook := rfl

/-! ### Outputs, controllers and tenants -/

@[simp] theorem emit_out (s : State) (o : Out) : (emit s o).out = o :: s.out := rfl

@[simp] theorem ctrl_setCtrl (s : State) (f : Nat) (c : Ctrl) : ctrl (setCtrl s f c) f = c := by
  simp [ctrl, setCtrl]

theorem ctrl_setCtrl_ne (s : State) (f g : Nat) (c : Ctrl) (h : g ≠ f) : ctrl (setCtrl s f c) g = ctrl s g := by
  simp [ctrl, setCtrl, mgetD_mput_ne _ _ _ _ _ _ h]

@[simp] theorem tenant_setTenant (s : State) (t : Nat) (x : Tenant) : tenant (setTenant s t x) t = x := by
  simp [tenant, setTenant]

theorem tenant_setTenant_ne (s : State) (t u : Nat) (x : Tenant) (h : u ≠ t) : tenant (setTenant s t x) u = tenant s u := by
  simp [tenant, setTenant, mgetD_mput_ne _ _ _ _ _ _ h]

/-! ### Register words and fields -/

theorem rd_congr (s t : State) (k : PageKind) (i off : Nat) (h : s.regs = t.regs) : rd s k i off = rd t k i off := by
  unfold rd
  rw [h]

@[simp] theorem rd_emit (s : State) (o : Out) (k : PageKind) (i off : Nat) : rd (emit s o) k i off = rd s k i off := rfl

@[simp] theorem getF_emit (s : State) (o : Out) (k : PageKind) (i : Nat) (f : Fld) : getF (emit s o) k i f = getF s k i f := rfl

/-- A register reads what was stored, cut to 32 bits. -/
theorem rd_wr_same (s : State) (k : PageKind) (i off v : Nat) (h : resetWord k off < 2 ^ 32) :
    rd (wr s k i off v) k i off = v % 2 ^ 32 := by
  unfold rd wr mput
  split
  · rename_i w hw
    split at hw
    · rw [mget_mdel_same] at hw
      cases hw
    · rw [mget_mset_same] at hw
      rw [← Option.some.inj hw, BitVec.toNat_ofNat]
  · rename_i hw
    split at hw
    · rename_i he
      have := congrArg BitVec.toNat he
      rw [BitVec.toNat_ofNat, BitVec.toNat_ofNat, Nat.mod_eq_of_lt h] at this
      exact this.symm
    · rw [mget_mset_same] at hw
      cases hw

/-- Every other register reads as before. -/
theorem rd_wr_ne (s : State) (k l : PageKind) (i j off o v : Nat) (h : pageBase l j + o ≠ pageBase k i + off) :
    rd (wr s k i off v) l j o = rd s l j o := by
  unfold rd wr
  rw [mget_mput_ne _ _ _ _ _ h]

/-- A stored word has 32 bits. -/
theorem rd_lt (s : State) (k : PageKind) (i off : Nat) (h : resetWord k off < 2 ^ 32) : rd s k i off < 2 ^ 32 := by
  unfold rd
  split
  · exact BitVec.isLt _
  · exact h

/-- A field that was put reads as it was put. -/
theorem bitsOf_putBits (v hi lo x : Nat) : bitsOf (putBits v hi lo x) hi lo = x % 2 ^ (hi + 1 - lo) := by
  unfold bitsOf putBits
  generalize hn : hi + 1 - lo = n
  have h1 : v / 2 ^ lo % 2 ^ n * 2 ^ lo ≤ v := by
    calc v / 2 ^ lo % 2 ^ n * 2 ^ lo ≤ v / 2 ^ lo * 2 ^ lo := Nat.mul_le_mul_right _ (Nat.mod_le _ _)
      _ ≤ v := Nat.div_mul_le_self _ _
  have h2 : v - v / 2 ^ lo % 2 ^ n * 2 ^ lo = v % 2 ^ lo + 2 ^ lo * (2 ^ n * (v / 2 ^ lo / 2 ^ n)) := by
    have e1 := Nat.mod_add_div v (2 ^ lo)
    have e2 := Nat.mod_add_div (v / 2 ^ lo) (2 ^ n)
    have e3 : 2 ^ lo * (v / 2 ^ lo) = 2 ^ lo * (v / 2 ^ lo % 2 ^ n) + 2 ^ lo * (2 ^ n * (v / 2 ^ lo / 2 ^ n)) := by
      rw [← Nat.mul_add, e2]
    have e4 : v / 2 ^ lo % 2 ^ n * 2 ^ lo = 2 ^ lo * (v / 2 ^ lo % 2 ^ n) := Nat.mul_comm _ _
    omega
  rw [h2]
  have h3 : v % 2 ^ lo + 2 ^ lo * (2 ^ n * (v / 2 ^ lo / 2 ^ n)) + x % 2 ^ n * 2 ^ lo =
      v % 2 ^ lo + 2 ^ lo * (2 ^ n * (v / 2 ^ lo / 2 ^ n) + x % 2 ^ n) := by
    rw [Nat.mul_add, Nat.add_assoc, Nat.mul_comm (x % 2 ^ n)]
  rw [h3, Nat.add_mul_div_left _ _ (Nat.two_pow_pos lo), Nat.div_eq_of_lt (Nat.mod_lt _ (Nat.two_pow_pos lo)), Nat.zero_add,
    Nat.mul_add_mod, Nat.mod_mod]

theorem putBits_lt (v hi lo x : Nat) (hv : v < 2 ^ 32) (hh : hi < 32) (hl : lo ≤ hi) : putBits v hi lo x < 2 ^ 32 := by
  unfold putBits
  generalize hn : hi + 1 - lo = n
  have h1 : v / 2 ^ lo % 2 ^ n * 2 ^ lo ≤ v := by
    calc v / 2 ^ lo % 2 ^ n * 2 ^ lo ≤ v / 2 ^ lo * 2 ^ lo := Nat.mul_le_mul_right _ (Nat.mod_le _ _)
      _ ≤ v := Nat.div_mul_le_self _ _
  have e1 := Nat.mod_add_div v (2 ^ lo)
  have e2 := Nat.mod_add_div (v / 2 ^ lo) (2 ^ n)
  have e3 : 2 ^ lo * (v / 2 ^ lo) = 2 ^ lo * (v / 2 ^ lo % 2 ^ n) + 2 ^ lo * (2 ^ n * (v / 2 ^ lo / 2 ^ n)) := by
    rw [← Nat.mul_add, e2]
  have e4 : v / 2 ^ lo % 2 ^ n * 2 ^ lo = 2 ^ lo * (v / 2 ^ lo % 2 ^ n) := Nat.mul_comm _ _
  have hm : lo + n = hi + 1 := by omega
  obtain ⟨r, hr⟩ : ∃ r, 32 = lo + n + r := ⟨31 - hi, by omega⟩
  have hq : v / 2 ^ lo / 2 ^ n < 2 ^ r := by
    rw [Nat.div_div_eq_div_mul, ← Nat.pow_add]
    exact Nat.div_lt_of_lt_mul (by rw [← Nat.pow_add, ← hr]; exact hv)
  have hx : x % 2 ^ n < 2 ^ n := Nat.mod_lt _ (Nat.two_pow_pos n)
  have hlo : v % 2 ^ lo < 2 ^ lo := Nat.mod_lt _ (Nat.two_pow_pos lo)
  have h2 : v - v / 2 ^ lo % 2 ^ n * 2 ^ lo + x % 2 ^ n * 2 ^ lo =
      v % 2 ^ lo + 2 ^ lo * (x % 2 ^ n + 2 ^ n * (v / 2 ^ lo / 2 ^ n)) := by
    have e5 : x % 2 ^ n * 2 ^ lo = 2 ^ lo * (x % 2 ^ n) := Nat.mul_comm _ _
    rw [Nat.mul_add]
    omega
  rw [h2, hr, Nat.pow_add, Nat.pow_add, Nat.mul_assoc]
  have h4 : x % 2 ^ n + 2 ^ n * (v / 2 ^ lo / 2 ^ n) + 1 ≤ 2 ^ n * 2 ^ r := by
    have : 2 ^ n * (v / 2 ^ lo / 2 ^ n + 1) ≤ 2 ^ n * 2 ^ r := Nat.mul_le_mul_left _ hq
    rw [Nat.mul_add] at this
    omega
  have h5 := Nat.mul_le_mul_left (2 ^ lo) h4
  rw [Nat.mul_add] at h5
  omega

/-- A field that was set reads as it was set, cut to its width. -/
theorem getF_setF_same (s : State) (k : PageKind) (i : Nat) (f : Fld) (v : Nat) (hr : resetWord k f.off < 2 ^ 32) (hh : f.hi < 32)
    (hl : f.lo ≤ f.hi) : getF (setF s k i f v) k i f = v % 2 ^ (f.hi + 1 - f.lo) := by
  unfold getF setF
  rw [rd_wr_same _ _ _ _ _ hr, Nat.mod_eq_of_lt (putBits_lt _ _ _ _ (rd_lt s k i f.off hr) hh hl), bitsOf_putBits]

/-- A field of another register reads as before. -/
theorem getF_setF_ne (s : State) (k l : PageKind) (i j : Nat) (f g : Fld) (v : Nat)
    (h : pageBase l j + g.off ≠ pageBase k i + f.off) : getF (setF s k i f v) l j g = getF s l j g := by
  unfold getF setF
  rw [rd_wr_ne _ _ _ _ _ _ _ _ h]

end Sys2Proof.Machine
end

