-- ==== Sys2Proof/Laws/Gate.lean ====
section
/-! SUPPORT. Admission of admin commands: a command that is ready has its turn and runs, with what admission changes. -/

namespace Sys2Proof.Machine

theorem touch_auth (s : State) (f : Nat) : authMissing (touch s f) f = authMissing s f := by
  unfold authMissing touch modCtrl
  rw [ctrl_setCtrl]
  have : tenant (setCtrl s f { ctrl s f with assoc := (ctrl s f).assoc.map (fun a => { a with kaAt := s.now }) }) f = tenant s f := rfl
  show (_ && _ && !(match (ctrl s f).assoc.map (fun a => { a with kaAt := s.now }) with
    | some a => a.authDone
    | none => false)) = _
  rw [this]
  cases (ctrl s f).assoc <;> rfl

theorem touch_quiesced (s : State) (f : Nat) : isQuiesced (touch s f) f = isQuiesced s f := rfl

/-- A capsule whose PDU holds up is looked at. -/
theorem capsuleIn_good {q : Capsule} {s : State} {run : State → State} (h : PduGood s q) : capsuleIn q run s = run s := by
  obtain ⟨h1, c, h2, h3⟩ := h
  unfold capsuleIn
  rw [h2]
  have a : ((!c.rdma && c.hdgst && !q.hdgstOk) || decide (8192 < q.icd)) = false := by
    have : ¬ 8192 < q.icd := by omega
    rcases h3 with h | ⟨h, -⟩
    · simp [h, this]
    · cases hc : c.hdgst <;> simp_all
  have b : (!c.rdma && c.ddgst && !q.ddgstOk) = false := by
    rcases h3 with h | ⟨-, h⟩
    · simp [h]
    · cases hc : c.ddgst <;> simp_all
  simp only [a, b]
  rfl

/-- A command that finds its turn runs at once. -/
theorem inTurn_now {q : Capsule} {i : Instr} {b : Bool} {run : State → State} {s : State} {f : Nat}
    (hp : PduGood s q) (ht : AdminTurn s f) (hf : adminFn s q.conn = some f) : inTurn q i b run s = run s := by
  obtain ⟨h1, h2, h3⟩ := ht
  unfold inTurn
  rw [capsuleIn_good hp]
  have e : s.held.filter (fun h => !(decide (h.1 = q.conn) && decide (h.2.1 = q.cid))) = s.held := by
    rw [List.filter_eq_self]
    intro x hx
    by_cases a : x.1 = q.conn
    · exfalso
      have : x ∈ heldOf s f := by
        unfold heldOf
        rw [List.mem_filter]
        exact ⟨hx, by simp [a, hf]⟩
      rw [h3] at this
      cases this
    · simp [a]
  have t : itsTurn s q b = true := by unfold itsTurn; simp [h1, hf, h2, h3]
  simp only [t, if_true, e]

theorem serveMode_run {s : State} (hm : s.mode = .run ∨ s.mode = .service) (he : s.pwr.entry = none) : serveMode s = s := by
  rcases hm with hm | hm <;> simp [serveMode, hm, he]

/-- A ready command comes to what its own checks and execution make of it. -/
theorem admin_ready {q : Capsule} {a : Accept} {run : Nat → State → Verdict} {s : State} {f : Nat} (h : Ready s q f)
    (ha : a.has f = true) (hk : a.keepAlive = false) (hb : OnlyBits q a.masks) :
    admin q a run s = match run f (served s f) with
      | .no st dw0 side => refuse (side (touch s f)) q st dw0
      | .yes t => t := by
  obtain ⟨hm, hp, he, -, -, hf, hr, hq, hu, hy, hau, hqu⟩ := h
  have c : adminCheck q a f (touch s f) = none := by
    unfold adminCheck
    have : ¬ 1 < q.keyed := by omega
    simp [hu, ha, hq, hb, touch_auth, hau, this]
  unfold admin
  rw [serveMode_run (.inl hm) he]
  simp only [hf]
  have t : takesAdmin s f false = true := by simp [takesAdmin, hm, hp, he, hr]
  simp only [hk, t, c, touch_quiesced, hqu]
  show (match run f (served s f) with
    | .no st dw0 side => refuse (side (touch s f)) q st dw0
    | .yes t => t) = _
  rfl

/-- A ready command whose own checks pass executes. -/
theorem admin_yes {q : Capsule} {a : Accept} {run : Nat → State → Verdict} {s t : State} {f : Nat} (h : Ready s q f)
    (ha : a.has f = true) (hk : a.keepAlive = false) (hb : OnlyBits q a.masks) (hr : run f (served s f) = .yes t) :
    admin q a run s = t := by
  rw [admin_ready h ha hk hb, hr]

/-- The same with its turn. -/
theorem turn_yes {q : Capsule} {i : Instr} {b : Bool} {a : Accept} {run : Nat → State → Verdict} {s t : State} {f : Nat} (h : Ready s q f)
    (ha : a.has f = true) (hk : a.keepAlive = false) (hb : OnlyBits q a.masks) (hr : run f (served s f) = .yes t) :
    inTurn q i b (admin q a run) s = t := by
  rw [inTurn_now h.2.2.2.2.1 h.2.2.2.1 h.2.2.2.2.2.1, admin_yes h ha hk hb hr]

/-- A command that needs no authentication and no end of the quiesce executes. -/
theorem auth_yes {q : Capsule} {i : Instr} {b : Bool} {a : Accept} {run : Nat → State → Verdict} {s t : State} {f : Nat} (h : AuthReady s q f)
    (ha : a.has f = true) (hk : a.keepAlive = false) (hn : a.noAuth = true) (hq : a.quiet = true) (hb : OnlyBits q a.masks)
    (hr : run f (served s f) = .yes t) : inTurn q i b (admin q a run) s = t := by
  rw [inTurn_now h.2.2.2.2.1 h.2.2.2.1 h.2.2.2.2.2.1]
  obtain ⟨hm, hp, he, -, -, hf, hr', hv, hu, hy⟩ := h
  have c : adminCheck q a f (touch s f) = none := by
    unfold adminCheck
    have : ¬ 1 < q.keyed := by omega
    simp [hu, ha, hv, hb, hn, this]
  unfold admin
  rw [serveMode_run (.inl hm) he]
  simp only [hf]
  have k : takesAdmin s f false = true := by simp [takesAdmin, hm, hp, he, hr']
  simp only [hk, k, c, hq, Bool.not_true, Bool.and_false]
  show (match run f (served s f) with
    | .no st dw0 side => refuse (side (touch s f)) q st dw0
    | .yes t => t) = _
  rw [hr]

/-- A vendor command of MF in SERVICE mode executes. -/
theorem service_yes {q : Capsule} {i : Instr} {b : Bool} {a : Accept} {run : Nat → State → Verdict} {s t : State} (h : ServiceReady s q)
    (ha : a.has fnMF = true) (hk : a.keepAlive = false) (hb : OnlyBits q a.masks) (hr : run fnMF (served s fnMF) = .yes t) :
    inTurn q i b (admin q a run) s = t := by
  rw [inTurn_now h.2.2.2.2.1 h.2.2.2.1 h.2.2.2.2.2.1]
  obtain ⟨hm, hp, he, -, -, hf, hr', hq, hu, hy⟩ := h
  have c : adminCheck q a fnMF (touch s fnMF) = none := by
    unfold adminCheck
    have : ¬ 1 < q.keyed := by omega
    have e : authMissing (touch s fnMF) fnMF = false := by simp [authMissing, fnMF]
    simp [hu, ha, hq, hb, e, this]
  unfold admin
  rw [serveMode_run (.inr hm) he]
  simp only [hf]
  have k : takesAdmin s fnMF false = true := by
    unfold takesAdmin
    rw [hr']
    simp [hm, hp, he, fnMF]
  simp only [hk, k, c]
  have e : isQuiesced (touch s fnMF) fnMF = false := by simp [isQuiesced, fnMF]
  rw [e]
  show (match run fnMF (served s fnMF) with
    | .no st dw0 side => refuse (side (touch s fnMF)) q st dw0
    | .yes t => t) = _
  rw [hr]

/-- Dword by dword. -/
theorem onlyBits_each {q : Capsule} {a b c d e f : Nat} (h : OnlyBits q [a, b, c, d, e, f]) :
    q.dw10 - (q.dw10 &&& a) = 0 ∧ q.dw11 - (q.dw11 &&& b) = 0 ∧ q.dw12 - (q.dw12 &&& c) = 0 ∧ q.dw13 - (q.dw13 &&& d) = 0 ∧
      q.dw14 - (q.dw14 &&& e) = 0 ∧ q.dw15 - (q.dw15 &&& f) = 0 := by
  unfold OnlyBits badDword at h
  rw [List.findSome?_eq_none_iff] at h
  have g : ∀ x m i, ((x, m), i) ∈ ([q.dw10, q.dw11, q.dw12, q.dw13, q.dw14, q.dw15].zip [a, b, c, d, e, f]).zip (List.range 6) → x - (x &&& m) = 0 := by
    intro x m i hm
    have := h _ hm
    by_contra hx
    simp [hx] at this
  refine ⟨g _ _ 0 ?_, g _ _ 1 ?_, g _ _ 2 ?_, g _ _ 3 ?_, g _ _ 4 ?_, g _ _ 5 ?_⟩ <;> simp [List.range_succ]

/-- No dword is at fault when no reserved bit is set and no field has a value of its own at fault. -/
theorem firstBad_none {q : Capsule} {a b c d e f : Nat} {bad : Nat → State → Bool} {s : State}
    (h : OnlyBits q [a, b, c, d, e, f]) (hb : ∀ n, bad n s = false) : firstBad q [a, b, c, d, e, f] bad s = none := by
  obtain ⟨h0, h1, h2, h3, h4, h5⟩ := onlyBits_each h
  unfold firstBad
  rw [List.find?_eq_none]
  intro n hn
  simp only [hb, Bool.or_false, decide_eq_true_eq]
  intro hx
  unfold badDword at hx
  rw [List.findSome?_eq_some_iff] at hx
  obtain ⟨l1, p, l2, hl, hp, -⟩ := hx
  have hm : p ∈ ([q.dw10, q.dw11, q.dw12, q.dw13, q.dw14, q.dw15].zip ([a, b, c, d, e, f].mapIdx
      (fun i m => if i + 10 = n then m else 0xFFFFFFFF))).zip (List.range 6) := by rw [hl]; simp
  have hk : p.1.1 - (p.1.1 &&& p.1.2) ≠ 0 ∧ 10 + p.2 = n := by
    by_cases e : p.1.1 - (p.1.1 &&& p.1.2) = 0
    · simp [e] at hp
    · simp [e] at hp; exact ⟨e, hp⟩
  simp only [List.mapIdx_cons, List.mapIdx_nil, List.range_succ, List.range_zero, List.nil_append, List.cons_append, List.zip_cons_cons,
    List.zip_nil_left, List.mem_cons, List.not_mem_nil, or_false] at hm
  rcases hm with rfl | rfl | rfl | rfl | rfl | rfl <;> obtain ⟨k1, k2⟩ := hk <;> simp_all

/-- A vendor command of MF that is ready, with no dword at fault, comes to what it executes. -/
theorem vendor_yes {q : Capsule} {i : Instr} {w : Bool} {a b c d e f : Nat} {bad : Nat → State → Bool} {run : State → Verdict} {s t : State}
    (h : Ready s q fnMF) (hb : OnlyBits q [a, b, c, d, e, f]) (hf : ∀ n, bad n (served s fnMF) = false)
    (hr : run (served s fnMF) = .yes t) : inTurn q i w (vendor q [a, b, c, d, e, f] bad run) s = t := by
  refine turn_yes h (by simp [Accept.has, mfOnly, fnMF]) rfl (by simp [OnlyBits, badDword, mfOnly]) ?_
  rw [firstBad_none hb hf]
  exact hr

/-- The same for the commands that SERVICE mode refuses. -/
theorem manage_yes {q : Capsule} {i : Instr} {w : Bool} {a b c d e f : Nat} {bad : Nat → State → Bool} {run : State → Verdict} {s t : State}
    (h : Ready s q fnMF) (hb : OnlyBits q [a, b, c, d, e, f]) (hf : ∀ n, bad n (served s fnMF) = false)
    (hr : run (served s fnMF) = .yes t) : inTurn q i w (manage q [a, b, c, d, e, f] bad run) s = t := by
  have e : inTurn q i w (manage q [a, b, c, d, e, f] bad run) s = inTurn q i w (vendor q [a, b, c, d, e, f] bad run) s := by
    rw [inTurn_now h.2.2.2.2.1 h.2.2.2.1 h.2.2.2.2.2.1, inTurn_now h.2.2.2.2.1 h.2.2.2.1 h.2.2.2.2.2.1]
    unfold manage
    rw [if_neg (by rw [h.1]; decide)]
  rw [e, vendor_yes h hb hf hr]

/-- The same for the commands on a tenant that is not FREE. -/
theorem onTenant_yes {q : Capsule} {i : Instr} {w : Bool} {a b c d e f : Nat} {bad : Nat → Nat → State → Bool} {run : Nat → State → Verdict}
    {s t : State} (h : Ready s q fnMF) (hb : OnlyBits q [a, b, c, d, e, f]) (ht : (tenant (served s fnMF) (cmdTenant q)).state ≠ .free)
    (hf : ∀ n, bad (cmdTenant q) n (served s fnMF) = false) (hr : run (cmdTenant q) (served s fnMF) = .yes t) :
    inTurn q i w (onTenant q [a, b, c, d, e, f] bad run) s = t :=
  manage_yes h hb (fun n => by simp [ht, hf n]) hr

/-- Clearing a firmware slot leaves the download buffer. -/
theorem slotClear_dlBuf (s : State) (n : Nat) : (slotClear s n).dlBuf = s.dlBuf := by unfold slotClear; split <;> rfl

end Sys2Proof.Machine
end

