-- ==== Sys2Proof/Laws/Io.lean ====
section
/-! SUPPORT. I/O commands: a command that is alone in the part is taken, admitted and dispatched. -/

namespace Sys2Proof.Machine
theorem cyclic_one {α : Type} (p : Nat × α) (k : Nat) : cyclic [p] k = some p := by
  unfold cyclic
  by_cases e : k ≤ p.1 <;> simp [e]

/-- The only waiting command, if it is ready, is taken next. -/
theorem nextTaken_alone (s : State) (k : Nat) (c : Cmd) (hc : s.cmds = [(k, c)]) (hp : c.phase = .waiting) (hr : headReady s c = true) :
    ∃ a, nextTaken s = some (k, c, a) := by
  have hq : queueHeads s = [(k, c)] := by
    unfold queueHeads; simp [hc, hp]
  have hm : mayPass s k = true := by unfold mayPass; simp [hc]
  have hf : ((queueHeads s).filter (fun q => mayPass s q.1)).filter (fun q => headReady s q.2) = [(k, c)] := by simp [hq, hr, hm]
  unfold nextTaken
  rw [hf]
  have h1 : ∀ x, mset ([] : FMap Unit) x () = [(x, ())] := fun x => rfl
  have h2 : ∀ x, mset ([] : FMap (Nat × Cmd)) x (k, c) = [(x, (k, c))] := fun x => rfl
  simp only [List.foldl, h1]
  have ht : (if (decide (s.arb.left ≠ 0) && (mget [(c.fn, ())] s.arb.tenant).isSome) = true then some s.arb.tenant
      else Option.map Prod.fst (cyclic [(c.fn, ())] (s.arb.tenant + 1))) = some c.fn := by
    split
    · rename_i h
      simp only [mget, Bool.and_eq_true] at h
      by_cases e : c.fn = s.arb.tenant
      · rw [e]
      · exfalso
        have := h.2
        simp [mget, Ne.symm e, e] at this
    · simp [cyclic_one]
  simp only [ht, Option.bind_some, List.filter, decide_true, List.foldl, h2]
  generalize mgetD s.arb.queues c.fn (0, 0) = cur
  have hz : ∃ b : Nat × Nat, (if (decide (cur.2 ≠ 0) && (mget [(c.conn, (k, c))] cur.1).isSome) = true then
      Option.map (fun p => (cur.1, p, cur.2)) (mget [(c.conn, (k, c))] cur.1)
      else Option.map (fun p => (p.1, p.2, arbBurst s c.fn)) (cyclic [(c.conn, (k, c))] (cur.1 + 1))) = some (b.1, (k, c), b.2) := by
    split
    · rename_i h
      simp only [Bool.and_eq_true] at h
      by_cases e : c.conn = cur.1
      · exact ⟨(cur.1, cur.2), by simp [mget, e]⟩
      · exfalso
        have := h.2
        simp [mget, e] at this
        exact e this.symm
    · refine ⟨(c.conn, arbBurst s c.fn), ?_⟩
      simp [cyclic_one]
  obtain ⟨b, hb⟩ := hz
  rw [hb]
  exact ⟨_, rfl⟩

theorem charge_cmds (s : State) (t b : Nat) (r w : Bool) : (charge s t b r w).cmds = s.cmds := by
  unfold charge
  dsimp only
  (repeat' split) <;> rfl

theorem charge_nextCmd (s : State) (t b : Nat) (r w : Bool) : (charge s t b r w).nextCmd = s.nextCmd := by
  unfold charge
  dsimp only
  (repeat' split) <;> rfl

theorem charge_jr (s : State) (t b : Nat) (r w : Bool) : (charge s t b r w).jr = s.jr := by
  unfold charge
  dsimp only
  (repeat' split) <;> rfl

theorem charge_regs (s : State) (t b : Nat) (r w : Bool) : (charge s t b r w).regs = s.regs := by
  unfold charge
  dsimp only
  (repeat' split) <;> rfl

/-- A message changes its connection and what leaves the part alone. -/
theorem sendMsg_keeps (s : State) (id n : Nat) (mk : TxHdr → Out) : (sendMsg s id n mk).cmds = s.cmds ∧
    (sendMsg s id n mk).nextCmd = s.nextCmd ∧ (sendMsg s id n mk).jr = s.jr ∧ (sendMsg s id n mk).regs = s.regs := by
  unfold sendMsg
  (repeat' split)
  · exact ⟨rfl, rfl, rfl, rfl⟩
  · unfold txPut
    split <;> exact ⟨rfl, rfl, rfl, rfl⟩
  · exact ⟨rfl, rfl, rfl, rfl⟩

/-- Registers of the journal are those of no other page. -/
theorem rd_mrj_bump (s : State) (k : PageKind) (f : Fld) (o : Nat) (h : pageBase .mrj 0 + o ≠ pageBase k 0 + f.off) :
    rd (bump s k 0 f) .mrj 0 o = rd s .mrj 0 o := rd_wr_ne _ _ _ _ _ _ _ _ h

theorem countHint_keeps (s : State) (n : Option Ns) (c : Cmd) : (countHint s n c).cmds = s.cmds ∧ (countHint s n c).nextCmd = s.nextCmd ∧
    (countHint s n c).jr = s.jr ∧ ∀ o, o = F.MRJ_RING_CTRL_CKPT_PCT.off → rd (countHint s n c) .mrj 0 o = rd s .mrj 0 o := by
  unfold countHint
  split
  · refine ⟨rfl, rfl, rfl, ?_⟩
    rintro o rfl
    exact rd_mrj_bump _ _ _ _ (by decide)
  · exact ⟨rfl, rfl, rfl, fun _ _ => rfl⟩

theorem takeNumbers_keeps (s : State) (n : Option Ns) (c : Cmd) : (takeNumbers s n c).cmds = s.cmds ∧
    (takeNumbers s n c).nextCmd = s.nextCmd ∧ (takeNumbers s n c).jr = s.jr ∧ (takeNumbers s n c).regs = s.regs := by
  unfold takeNumbers
  dsimp only
  (repeat' split) <;> exact ⟨rfl, rfl, rfl, rfl⟩

theorem askData_keeps (s : State) (c : Cmd) : (askData s c).cmds = s.cmds ∧
    (askData s c).nextCmd = s.nextCmd ∧ (askData s c).jr = s.jr ∧ (askData s c).regs = s.regs := by
  unfold askData
  split
  · exact sendMsg_keeps _ _ _ _
  · exact ⟨rfl, rfl, rfl, rfl⟩

/-- The ring is as full as the journal and RING_CTRL say. -/
theorem ringHeld_congr {s t : State} (h1 : s.jr = t.jr)
    (h2 : rd s .mrj 0 F.MRJ_RING_CTRL_CKPT_PCT.off = rd t .mrj 0 F.MRJ_RING_CTRL_CKPT_PCT.off) : ringHeld s = ringHeld t := by
  have e : ∀ f : Fld, f.off = F.MRJ_RING_CTRL_CKPT_PCT.off → getF s .mrj 0 f = getF t .mrj 0 f := by
    intro f hf
    unfold getF
    rw [hf, h2]
  unfold ringHeld jCount
  rw [h1, e F.MRJ_RING_CTRL_CKPT_PCT rfl, e F.MRJ_RING_CTRL_HOLD_PCT rfl]

/-- Admission gives the command its place in the order of admission and changes no other; the ring fills as before. -/
theorem admit_alone (s : State) (k : Nat) (c : Cmd) (h : s.cmds = [(k, c)]) :
    (admitCmd s k c).cmds = [(s.nextCmd, c.entering s)] ∧ ringHeld (admitCmd s k c) = ringHeld s := by
  have d : mdel s.cmds k = [] := by rw [h]; simp [mdel]
  obtain ⟨a1, a2, a3, a4⟩ := countHint_keeps (bump (cmdSeen s) .cfe 0 F.CFE_ADMITTED) (c.nsk.bind (nsAt s)) c
  obtain ⟨b1, b2, b3, b4⟩ := takeNumbers_keeps (countHint (bump (cmdSeen s) .cfe 0 F.CFE_ADMITTED) (c.nsk.bind (nsAt s)) c)
    (c.nsk.bind (nsAt s)) c
  obtain ⟨c1, c2, c3, c4⟩ := askData_keeps (takeNumbers (countHint (bump (cmdSeen s) .cfe 0 F.CFE_ADMITTED) (c.nsk.bind (nsAt s)) c)
    (c.nsk.bind (nsAt s)) c) c
  unfold admitCmd
  dsimp only
  refine ⟨?_, ringHeld_congr (c3.trans (b3.trans a3)) ?_⟩
  rotate_left
  · show rd (askData _ _) .mrj 0 _ = _
    rw [rd_congr _ _ .mrj 0 _ (c4.trans b4), a4 _ rfl, rd_mrj_bump _ _ _ _ (by decide)]
    rfl
  · rw [c1, b1, a1, c2, b2, a2]
    show mset (mdel s.cmds k) s.nextCmd _ = _
    rw [d]
    rfl

/-- The part with one command in it: it is taken, admitted and dispatched, and what follows is placed and acknowledged. -/
theorem pump_alone (s : State) (c : Cmd) (hp : c.phase = .waiting) (hm : (entered s c).mode = .run)
    (h1 : s.plRun = none) (h2 : s.pwr.entry = none) (h3 : s.fwHold = none) (ho : c.op ≠ .abort) (h : Passes s c)
    (hrg : c.records = true → ringHeld (entered s c) = false) :
    ∃ a, pump (entered s c) = afterDispatch (dispatch (admitted s c a) (cmdKey s) (asAdmitted s c a)) := by
  have hr : headReady (entered s c) c = true := by unfold headReady; simp [h.1, h.2.1, h.2.2]
  obtain ⟨a, ha⟩ := nextTaken_alone (entered s c) s.nextCmd c rfl hp hr
  refine ⟨a, ?_⟩
  have ht : takeCmd (entered s c) s.nextCmd c a = admitted s c a := by unfold takeCmd; rw [h.2.1]; rfl
  have hx : ∃ x, (admitted s c a).cmds = [(cmdKey s, x)] ∧ x.phase = .admitted ∧ x.op = c.op ∧ x.counted = false ∧
      x.dwords = c.dwords ∧ ringHeld (admitted s c a) = ringHeld (entered s c) := by
    unfold admitted
    dsimp only
    generalize hb : cmdBytes (entered s c) c = b
    generalize hw : programs (cmdZoned (entered s c) c) c.op = w
    have hcm := charge_cmds { entered s c with arb := a } c.fn b (c.op = .read) w
    have hnx := charge_nextCmd { entered s c with arb := a } c.fn b (c.op = .read) w
    have hjr := charge_jr { entered s c with arb := a } c.fn b (c.op = .read) w
    have hrg := charge_regs { entered s c with arb := a } c.fn b (c.op = .read) w
    generalize he : charge { entered s c with arb := a } c.fn b (c.op = .read) w = e at *
    obtain ⟨h1, h2⟩ := admit_alone e s.nextCmd c hcm
    refine ⟨c.entering e, ?_, rfl, rfl, rfl, rfl, h2.trans (ringHeld_congr hjr (rd_congr _ _ .mrj 0 _ hrg))⟩
    rw [h1, hnx]
    rfl
  obtain ⟨x, hx, hxp, hxo, hxc, hxd, hrr⟩ := hx
  have hxrec : x.records = c.records := by unfold Cmd.records; rw [hxo, hxd]
  have hl : ((entered s c).cmds.filter (fun q => q.2.phase = .waiting)).length = 1 := by
    show (([(s.nextCmd, c)] : List (Nat × Cmd)).filter _).length = 1
    simp [hp]
  have hta : takeAll (entered s c) 1 = admitted s c a := by
    simp only [takeAll, ha, ht]
  have hch : countHeld (admitted s c a) = admitted s c a := by
    unfold countHeld countBudgets queueHeads
    simp [hx, hxp]
  have hadm : admitPump (entered s c) = admitted s c a := by
    unfold admitPump
    have e1 : (entered s c).plRun = none := h1
    have e2 : (entered s c).pwr.entry = none := h2
    have e3 : (entered s c).fwHold = none := h3
    rw [if_neg (by simp [e1, e2, e3, hm]), hl, hta, hch]
  have hd : dispatchPump (admitted s c a) = dispatch (admitted s c a) (cmdKey s) (asAdmitted s c a) := by
    unfold dispatchPump asAdmitted
    have hg : mget (admitted s c a).cmds (cmdKey s) = some x := by rw [hx]; simp [mget]
    have hb : isHeldBack (admitted s c a) (cmdKey s) x = false := by
      unfold isHeldBack
      split
      · simp [hx]
      · rfl
    have hxo' : x.op ≠ .abort := by rw [hxo]; exact ho
    have hrec : (x.records && ringHeld (admitted s c a)) = false := by
      rw [hxrec, hrr]
      cases e : c.records
      · rfl
      · rw [hrg e]; rfl
    have hxx : { x with counted := false } = x := by rw [← hxc]
    have hmm : modCmd (admitted s c a) (cmdKey s) (fun c => { c with counted := false }) = admitted s c a := by
      have : mmod (admitted s c a).cmds (cmdKey s) (fun c : Cmd => { c with counted := false }) = (admitted s c a).cmds := by
        rw [hx]
        simp [mmod, hxx]
      unfold modCmd
      rw [this]
    have hfl : (admitted s c a).cmds.filter (fun q => decide (q.2.phase = .admitted)) = [(cmdKey s, x)] := by simp [hx, hxp]
    rw [hfl]
    show (match mget (admitted s c a).cmds (cmdKey s) with
      | some y => _
      | none => admitted s c a) = _
    rw [hg]
    dsimp only
    rw [if_neg (by simp [hxp, hxo']), hb, hrec, hmm, hxx]
    rfl
  unfold pump afterDispatch
  rw [hadm, hd]

/-- What passes finds the ring open for its records. -/
theorem passes_ring {s : State} {c : Cmd} {n : Ns} (h : Passes s c) (hn : c.nsk.bind (nsAt (entered s c)) = some n) :
    c.records = true → ringHeld (entered s c) = false := by
  intro hr
  have := h.2.2
  unfold ioHold at this
  split at this
  · cases this
  · rw [hn] at this
    dsimp only at this
    split at this
    · cases this
    · rename_i hh
      simpa [hr] using hh

/-- A capsule that finds the part ready enters it and is served. -/
theorem submitIo_alone {q : Capsule} {s : State} {f slot : Nat} {n : Ns} {op : IoOp} {slba nlb : Nat} {fua : Bool} {data : List Nat}
    {ranges : List (Nat × Nat)} (h : IoReady s q f slot n) (ho : op ≠ .abort)
    (hp : Passes s (ioCmd s q f slot n op slba nlb fua data ranges)) :
    ∃ a, capsuleIn q (submitIo q op slba nlb fua data ranges) s = afterDispatch (dispatch
      (admitted s (ioCmd s q f slot n op slba nlb fua data ranges) a) (cmdKey s)
      (asAdmitted s (ioCmd s q f slot n op slba nlb fua data ranges) a)) := by
  obtain ⟨⟨hm, h1, h2, h3, hpdu, ⟨cn, c1, c2, c3, c4⟩, hf, hr, hc⟩, hs, hn⟩ := h
  obtain ⟨a, ha⟩ := pump_alone s (ioCmd s q f slot n op slba nlb fua data ranges) rfl hm h1 h2 h3 ho hp (passes_ring (n := n) hp hn)
  rw [capsuleIn_good hpdu]
  refine ⟨a, ?_⟩
  rw [← ha]
  have e1 : serveMode s = s := by simp [serveMode, hm, h2]
  have hf' : ¬ 512 ≤ f := by omega
  have hg : (!cn.ready || decide (cn.qid = 0) || decide (512 ≤ f) || (ctrl s f).resetting || s.plRun.isSome ||
      !(decide (s.mode = .run) || decide (s.mode = .guard))) = false := by
    simp [c3, c4, hf', hr, h1, hm]
  unfold submitIo
  rw [e1]
  dsimp only
  rw [c1]
  dsimp only
  rw [c2]
  dsimp only
  rw [hg, hs]
  simp only [Option.bind_some, hn, hc]
  rfl

end Sys2Proof.Machine
end

