-- ==== Sys2Proof/Laws/Keys.lean ====
section
/-! SUPPORT. What sending a message can change, and what an accepted request of key agreement or of attestation comes to. -/

namespace Sys2Proof.Machine

/-- Sending a message changes connections, what waits to leave, and what has left. -/
theorem sendMsg_frame (s : State) (id bytes : Nat) (mk : TxHdr → Out) :
    ∃ c w o, sendMsg s id bytes mk = { s with conns := c, txWait := w, out := o } := by
  unfold sendMsg
  split
  · exact ⟨s.conns, s.txWait, s.out, rfl⟩
  · split
    · unfold txPut
      split
      · exact ⟨_, _, _, rfl⟩
      · exact ⟨_, _, _, rfl⟩
    · exact ⟨_, _, _, rfl⟩

/-- So does posting a completion entry. -/
theorem postSt_frame (s : State) (conn cid : Nat) (st : Status) :
    ∃ c w o, postSt s conn cid st = { s with conns := c, txWait := w, out := o } := sendMsg_frame ..

/-- Admission and the completion of a Security Send leave the enrollment of every function. -/
theorem sent_enroll (s : State) (q : Capsule) (f g : Nat) : enrollOf (postSt (served s f) q.conn q.cid stOk) g = enrollOf s g := by
  obtain ⟨c, w, o, e⟩ := postSt_frame (served s f) q.conn q.cid stOk
  rw [e]
  rfl

/-- They leave the time. -/
theorem sent_now (s : State) (q : Capsule) (f : Nat) : (postSt (served s f) q.conn q.cid stOk).now = s.now := by
  obtain ⟨c, w, o, e⟩ := postSt_frame (served s f) q.conn q.cid stOk
  rw [e]
  rfl

theorem secAccept_has {f : Nat} (h : f ≤ 512) : ({ masks := secMasks } : Accept).has f = true := by
  unfold Accept.has
  rcases Nat.lt_or_eq_of_le h with h | rfl
  · have : f ≠ 512 := by omega
    simp_all [fnMF]
  · simp [fnMF]

/-- A Security Send of a ready function whose protocol is the operation's runs it after its completion. -/
theorem secSend_yes {q : Capsule} {i : Instr} {w : Bool} {f p : Nat} {run : Nat → State → State} {s : State} (h : Ready s q f)
    (hf : f ≤ 512) (hb : OnlyBits q secMasks) (hl : q.dw11 ≤ 2097152) (hp : bitsOf q.dw10 31 24 = p)
    (h0 : p = 0xF0 → bitsOf q.dw10 23 8 = 0) (h8 : p = 0xE8 → q.len ≤ 4096) :
    inTurn q i w (secSend q p run) s = run f (postSt (served s f) q.conn q.cid stOk) := by
  refine turn_yes h (secAccept_has hf) rfl hb ?_
  have a : ¬ 2097152 < q.dw11 := by omega
  have b : ¬ (p = 0xE8 ∧ 4096 < q.len) := fun x => by have := h8 x.1; omega
  have c : ¬ (p = 0xF0 ∧ ¬ bitsOf q.dw10 23 8 = 0) := fun x => x.2 (h0 x.1)
  simp only [hp, ne_eq, not_true_eq_false, decide_false, Bool.false_or]
  simp [a, b, c]

/-- An SPDM request in the version in force is answered after its Security Send has completed. -/
theorem spdm_yes {q : Capsule} {i : Instr} {w : Bool} {f : Nat} {req : List Nat} {run : Nat → Spdm → State → State} {s : State}
    (h : Ready s q f) (hf : f ≤ 512) (hb : OnlyBits q secMasks) (hl : q.dw11 ≤ 2097152) (hp : bitsOf q.dw10 31 24 = 0xE8)
    (h8 : q.len ≤ 4096) (hv : req.getD 0 0 = (spdmOf (postSt (served s f) q.conn q.cid stOk) f).ver) :
    inTurn q i w (spdmAnswer q req run) s = run f (spdmOf (postSt (served s f) q.conn q.cid stOk) f) (postSt (served s f) q.conn q.cid stOk) := by
  refine (secSend_yes h hf hb hl hp (fun x => by simp at x) (fun _ => h8)).trans ?_
  dsimp only
  rw [if_neg (by simpa using hv)]

/-- An accepted request of key agreement takes its CTR and runs. -/
theorem ka_yes {q : Capsule} {i : Instr} {w : Bool} {f op : Nat} {h : KaHdr} {body : List Nat} {e : Enroll} {run : Nat → State → KaRes}
    {s : State} (ha : KaAccepts s q f op h body e) :
    inTurn q i w (kaSend q op h body run) s =
      kaAnswer (run f (kaTaken s q f h e)).s f op (run f (kaTaken s q f h e)).result h.ctr (run f (kaTaken s q f h e)).body
        (run f (kaTaken s q f h e)).ready (s.now + (run f (kaTaken s q f h e)).wait) := by
  obtain ⟨hr, hf, hb, hl, hp, h0, he, hm, hc⟩ := ha
  have r := secSend_yes (i := i) (w := w) (run := fun f s => kaRun f op h body (run f) s) hr hf hb hl hp (fun _ => h0) (fun x => by simp at x)
  unfold kaSend
  rw [r]
  unfold kaRun kaRefusal
  have c : ¬ h.ctr % 2 ^ 64 ≤ e.ctr := by omega
  simp only [sent_enroll, he, hm, ne_eq, not_true_eq_false, if_false, c, sent_now]
  rfl

/-- An accepted migration operation of a tenant in a state that allows it runs. -/
theorem mig_yes {q : Capsule} {i : Instr} {w : Bool} {f op : Nat} {h : KaHdr} {body : List Nat} {e : Enroll} {ok : MigState → Bool}
    {run : Nat → State → KaRes} {s : State} (ha : KaAccepts s q f op h body e) (hf : f ≠ fnMF)
    (hs : ok (migOf (kaTaken s q f h e) f).state = true) :
    inTurn q i w (migSend q op h body ok run) s =
      kaAnswer (run f (kaTaken s q f h e)).s f op (run f (kaTaken s q f h e)).result h.ctr (run f (kaTaken s q f h e)).body
        (run f (kaTaken s q f h e)).ready (s.now + (run f (kaTaken s q f h e)).wait) := by
  have r : (if f = fnMF then kaAns (kaTaken s q f h e) 9
      else if !ok (migOf (kaTaken s q f h e) f).state then kaAns (kaTaken s q f h e) 0xB
      else run f (kaTaken s q f h e)) = run f (kaTaken s q f h e) := by rw [if_neg hf, if_neg (by simp [hs])]
  have k := ka_yes (i := i) (w := w) (run := fun f s =>
    if f = fnMF then kaAns s 9 else if !ok (migOf s f).state then kaAns s 0xB else run f s) ha
  rw [r] at k
  exact k

end Sys2Proof.Machine
end

