-- ==== Sys2Proof/Laws/Nimbus.lean ====
section
/-! SUPPORT. Links: a change of one direction leaves the other. -/

namespace Sys2Proof.Machine

@[simp] theorem nim_setNim (s : State) (n : Nat) (l : NimLink) : nim (setNim s n l) n = l := by
  simp [nim, setNim]

theorem nim_modNimDir_flip (s : State) (n : Nat) (w : NimWay) (f : NimDir → NimDir) :
    (nim (modNimDir s n w.flip f) n).dir w = (nim s n).dir w := by
  unfold modNimDir
  rw [nim_setNim]
  cases w <;> rfl

end Sys2Proof.Machine
end

