-- ==== Sys2Proof/WellFormed.lean ====
section
/-! DEFINITION. Well-formed commands: every operand within the range that the spec's tables give it (register addresses
and values, capsule fields, frames, numbers of units). A step does not ask for it: the meanings answer any operand. -/

namespace Sys2Proof

open Sys2Proof.Machine

/-! ### Numbers -/

/-- A number of `n` bits. -/
def fits (n v : Nat) : Bool := decide (v < 2 ^ n)
/-- A byte. -/
def isByte (v : Nat) : Bool := fits 8 v
/-- A 7-bit bus address (R88, R605). -/
def isAddr7 (v : Nat) : Bool := fits 7 v
/-- A sync phase: a byte offset in a 256-byte frame slot (R29, R30). -/
def isPhase (v : Nat) : Bool := fits 8 v
/-- A priority (R113). -/
def isPrio (v : Nat) : Bool := decide (v < 8)
/-- A VLAN ID, 0 for untagged (R106). -/
def isVlan (v : Nat) : Bool := decide (v < 4096)
/-- A page number (R50). -/
def isPage (v : Nat) : Bool := decide (v < 4096)
/-- A tenant number (R200). -/
def isTenant (v : Nat) : Bool := decide (v < 512)
/-- A function: a tenant, MF, or the discovery controller (R123, R200). -/
def isFunction (v : Nat) : Bool := decide (v ≤ 513)
/-- A key slot of a namespace (R218). -/
def keySlot (v : Nat) : Bool := decide (v < 1024)
/-- A flash die: lane × 32 + chip enable × 4 + LUN (R263). -/
def isDie (v : Nat) : Bool := decide (v < 2048)
/-- A lane (R263). -/
def isLane (v : Nat) : Bool := decide (v < 64)
/-- A chip enable of a lane (R368). -/
def isCe (v : Nat) : Bool := decide (v < 8)
/-- A cipher core or a control core. -/
def isCore (v : Nat) : Bool := decide (v < 16)
/-- A rail by index, or a flash group as 0x100 + g (R605). -/
def isRail (v : Nat) : Bool := decide (v ≤ 16) || (decide (0x100 ≤ v) && decide (v < 0x104))
/-- A buffer pool (R530). -/
def isPool (v : Nat) : Bool := decide (v < 5)
/-- The bytes of a Nimbus frame (R25). -/
def isFrame (b : List Nat) : Bool := b.length = 256 && b.all isByte

/-! ### Operand forms -/

/-- A line of a cache by set and way, plus 2 ^ 18 for its tag (R581). -/
def isCacheLine (v : Nat) : Bool := fits 19 v
/-- The two coordinates of an uncompressed P-384 point (R470). -/
def isPoint (b : List Nat) : Bool := b.length = 96 && b.all isByte

/-- A path of a register access (R51). -/
def pathWf : Path → Bool
  | .mf _ cid => fits 16 cid
  | .i3c a => isAddr7 a
  | .smbus a => isAddr7 a
  | .firmware => true
/-- A sideband bus (R88). -/
def busWf : SbBus → Bool
  | .i3c a => isAddr7 a
  | .smbus a _ => isAddr7 a
/-- A command capsule (R158). -/
def capsuleWf (q : Capsule) : Bool :=
  fits 16 q.cid && fits 32 q.nsid && fits 32 q.dw10 && fits 32 q.dw11 && fits 32 q.dw12 && fits 32 q.dw13 && fits 32 q.dw14 &&
    fits 32 q.dw15
/-- A parameter block of 4,096 bytes at most, its bytes listed by rising offset. -/
def blockWf (b : FMap Byte) : Bool := b.all (fun x => decide (x.1 < 4096)) && decide (Mwf b)
/-- The data of a Connect (R121). -/
def connectWf (d : ConnectData) : Bool := fits 16 d.cntlid && fits 16 d.qid && fits 16 d.sqsize && fits 32 d.kato
/-- A received Ethernet frame (R102–R108). -/
def frameWf (f : EthFrame) : Bool :=
  fits 48 f.dst && fits 48 f.src && f.tags.all (fun x => isPrio x.1 && isVlan x.2) && fits 16 f.etherType && fits 128 f.dstIp &&
    fits 128 f.wakeKey && fits 16 f.wakeSubtype
/-- A new connection (R110). -/
def newConnWf (c : NewConn) : Bool := isVlan c.vlan && fits 128 c.dstIp && fits 48 c.peerMac
/-- An RDMA CM connect request (R128). -/
def rdmaWf (r : RdmaReq) : Bool := fits 16 r.mtu
/-- A TCP option (R132). -/
def tcpOptWf : TcpOpt → Bool
  | .mss n => fits 16 n
  | .wscale n => isByte n
  | _ => true
/-- A DH-HMAC-CHAP message (R140). -/
def authWf : AuthStep → Bool
  | .negotiate hs gs _ => hs.all isByte && gs.all isByte
  | _ => true
/-- A client of Basil (R532). -/
def clientWf : Client → Bool
  | .parity b _ => fits 32 b
  | _ => true
/-- The CTR and the 48 bytes of MAC of a key agreement request (R467). -/
def kaWf (h : KaHdr) : Bool := fits 64 h.ctr && h.mac.length = 48 && h.mac.all isByte
/-- The result of a diagnostic decode (R402). -/
def diagWf (r : DiagResult) : Bool := fits 16 r.zeros && r.corrected.all (fits 16)
/-- What is found on a lane (R376). -/
def findWf (f : LaneFind) : Bool := isLane f.lane && decide (f.rate ≤ 4) && isByte f.ces && f.dies.all (fun x => decide (x.celun < 32))
/-- A cipher job (R488). -/
def jobWf : JobReq → Bool
  | .dec _ cid _ => fits 16 cid
  | .other _ addr _ _ => decide (addr ≤ 0x2000)
/-- A counter with a mark (R352). -/
def markWf : MarkOf → Bool
  | .wseq k => keySlot k
  | .nonce k => keySlot k
  | .band => true
  | .deferSeq t => isTenant t
  | .sealing => true
/-- What a block hands to a link transmitter (R25, R26). -/
def msgWf (m : NimMsg) : Bool := fits 12 m.tag && fits 4 m.lane && fits 4 m.vc && decide (m.payload.length ≤ 240) && m.payload.all isByte
/-- A board profile (R697). -/
def profileWf (p : Profile) : Bool :=
  fits 32 p.vinThr && fits 32 p.holdThr && p.macs.all (fits 48) && p.regs.all (fun x => isAddr7 x.addr && isByte x.page && isRail x.rail)
/-- What a start-up finds. -/
def envWf (e : StartEnv) : Bool :=
  fits 5 e.sorPass && fits 7 e.seaPass && e.badCores.all isCore && e.badRecs.all (fun x => decide (x.2 < 2)) && e.nor.all isByte &&
    e.norProfile.all isByte && profileWf e.profile && decide (e.dimms.length ≤ 8) && e.codeUe.all (fits 23) && e.lanes.all findWf &&
    decide (e.models.length ≤ 8) && e.badBlocks.all (fun x => isDie x.1 && decide (x.2 < 8192)) && fits 16 e.gpio
/-- What a Thyme word finds (R392). -/
def thymeWf (e : ThymeEnv) : Bool := isByte e.status
/-- What a DRAM line held (R547). -/
def dramWf : DramContent → Bool
  | .acked k _ => keySlot k
  | .unacked _ cid => fits 16 cid
  | .stagingWrite _ cid => fits 16 cid
  | .readData _ cid _ => fits 16 cid
  | .migBitmap t n _ _ => isTenant t && fits 32 n
  | .migRing t _ => isTenant t
  | .mapSegment => true
  | .table => true
  | .firmware => true
  | .parity _ _ => true
/-- What a transit SRAM word held (R528). -/
def sramWf : SramContent → Bool
  | .readData _ cid _ => fits 16 cid
  | _ => true
/-! ### Commands -/

/-- The register path of a command that is a register access. -/
def Instr.path? : Instr → Option Path
  | .nimbusFrameReceived _ _ _ _ => none
  | .replayRequest _ _ _ => none
  | .replayRequestTimeout _ _ => none
  | .nimbusTxFrame _ _ _ => none
  | .retrainReq p _ _ => some p
  | .trainingAttemptEnd _ _ => none
  | .registerWrite p _ _ => some p
  | .rcRead p _ => some p
  | .errClr p _ _ => some p
  | .regRead _ => none
  | .regWrite _ _ => none
  | .sbWrite _ _ _ => none
  | .sbRead _ _ => none
  | .sbLastResult _ => none
  | .sbBadCommand _ => none
  | .i3cAddressAssign _ => none
  | .getLogRegInterrupts _ => none
  | .frameReceived _ => none
  | .rtpDrain _ _ _ => none
  | .pfcRefreshTimer _ _ => none
  | .pfcFrame _ _ => none
  | .pfcPauseExpiry _ _ => none
  | .arpRequest _ _ _ => none
  | .neighborSolicitation _ _ _ => none
  | .icmpEcho _ _ _ => none
  | .linkUp _ => none
  | .linkDown _ _ => none
  | .linkHoldExpiry _ => none
  | .cnpReceived _ => none
  | .rateIncrease _ => none
  | .rdmaCmConnectRequest _ => none
  | .tcpSyn _ => none
  | .icreq _ _ _ => none
  | .h2cDataPdu _ _ _ _ => none
  | .ackTimeout _ => none
  | .tcpRetransmitTimeout _ => none
  | .tcpCloseReceived _ => none
  | .tlsClientHello _ _ => none
  | .tlsHandshakeDone _ => none
  | .tlsRecordReceived _ _ => none
  | .tlsKeyUpdate _ => none
  | .wakeKeyCommit p _ _ => some p
  | .ifSelLoad p _ => some p
  | .ifCfgCommit p _ => some p
  | .connect _ _ => none
  | .disconnect _ => none
  | .propertyGet _ => none
  | .propertySet _ => none
  | .ccEnClear _ => none
  | .controllerResetDone _ => none
  | .ccShutdown _ => none
  | .authenticationSend _ _ => none
  | .authenticationReceive _ => none
  | .keepAlive _ => none
  | .keepAliveTimeout _ => none
  | .discoveryGetLogPage _ => none
  | .read _ _ _ => none
  | .write _ _ _ => none
  | .writeZeroes _ => none
  | .datasetManagement _ _ => none
  | .flush _ => none
  | .zoneAppend _ _ => none
  | .zoneOpen _ => none
  | .zoneClose _ => none
  | .zoneFinish _ => none
  | .zoneReset _ => none
  | .zoneOffline _ => none
  | .reportZones _ => none
  | .getLogPage _ => none
  | .getLogDeferredErrors _ => none
  | .getLogTenantStatus _ => none
  | .getLogDeviceRecorder _ => none
  | .getLogChangedZoneList _ => none
  | .identify _ => none
  | .abort _ => none
  | .setFeatures _ => none
  | .getFeatures _ => none
  | .asynchronousEventRequest _ => none
  | .completionCommit _ _ => none
  | .formatNvm _ => none
  | .sanitizeCryptoErase _ => none
  | .sanitizeExitFailure _ => none
  | .cryptoEraseCommit _ => none
  | .cryptoEraseDone _ => none
  | .firmwareImageDownload _ _ => none
  | .fwCommitReplace _ _ _ => none
  | .fwCommitReplaceTrial _ _ => none
  | .fwCommitSelectNext _ => none
  | .fwCommitActivate _ _ _ => none
  | .tenantCreate _ _ => none
  | .tenantModify _ _ => none
  | .tenantReset _ => none
  | .tenantRemove _ => none
  | .nsCreate _ _ => none
  | .nsDelete _ => none
  | .configSave _ => none
  | .tenantCred _ _ => none
  | .quiesce p _ => some p
  | .quiesceComplete _ => none
  | .quiesceEnd p _ => some p
  | .diesetCreate _ _ => none
  | .diesetDelete _ => none
  | .diesetInfo _ => none
  | .diesetPopulation _ => none
  | .meterRead _ => none
  | .powerState _ => none
  | .faultRead _ => none
  | .faultReadClear _ => none
  | .deviceReset _ => none
  | .deviceResetForce _ => none
  | .debugToken _ _ => none
  | .provisionReset _ => none
  | .migAbortCmd _ => none
  | .spdmGetVersion _ => none
  | .spdmGetCapabilities _ => none
  | .spdmNegotiateAlgorithms _ => none
  | .spdmGetDigests _ => none
  | .spdmGetCertificate _ _ _ => none
  | .spdmChallenge _ _ => none
  | .spdmGetMeasurements _ _ _ => none
  | .spdmUnsupportedRequest _ _ => none
  | .securityReceive _ => none
  | .enroll _ _ _ _ => none
  | .bind _ _ _ => none
  | .status _ _ => none
  | .migBegin _ _ _ => none
  | .migSwap _ _ => none
  | .migExport _ _ _ _ _ _ _ _ _ => none
  | .migEvents _ _ => none
  | .migZones _ _ _ _ _ => none
  | .migFreeze _ _ => none
  | .migFreezeDone _ => none
  | .migKeyExport _ _ _ => none
  | .migAbort _ _ => none
  | .importBegin _ _ _ => none
  | .importData _ _ _ _ => none
  | .importZone _ _ _ _ _ => none
  | .importCommit _ _ => none
  | .importKey _ _ _ => none
  | .operationQueued _ => none
  | .gatherExpiry _ => none
  | .bulkEscalation _ => none
  | .bgWindowEnd _ => none
  | .bucketRefill => none
  | .laneDescriptor _ => none
  | .readComplete _ => none
  | .programComplete _ _ => none
  | .eraseComplete _ _ => none
  | .suspendAccepted _ => none
  | .runMinExpiry _ => none
  | .suspendHoldExpiry _ => none
  | .operationTimeout _ => none
  | .resetLunReady _ => none
  | .lunStuck _ => none
  | .zqCalShort _ => none
  | .readDqTrain _ _ _ => none
  | .thymeMicroword _ _ => none
  | .diagRead p _ _ => some p
  | .diagReadDone _ _ => none
  | .hardDecodeDone _ _ _ => none
  | .softPassDone _ _ _ => none
  | .rawSampleDone _ _ _ _ _ => none
  | .cipherJobArrival _ => none
  | .cipherJobDone _ _ => none
  | .healthTestFail => none
  | .journalFlushTimer => none
  | .journalFlushDone => none
  | .segmentCheckpoint _ => none
  | .markDurable _ => none
  | .relocation _ => none
  | .patrolTimer => none
  | .vinSample _ => none
  | .plProgramsDone => none
  | .plRestartTimer => none
  | .holdSample _ => none
  | .dramRetrain _ _ => none
  | .dramUe _ _ _ _ => none
  | .spareForce p _ => some p
  | .spareCopyDone => none
  | .transitSramUe _ _ => none
  | .basilAllocate _ _ _ _ => none
  | .basilShare _ _ _ => none
  | .basilRelease _ _ _ => none
  | .sealedUe _ _ => none
  | .scrubRead _ _ _ => none
  | .testDataWrite p _ => some p
  | .testDataRead p => some p
  | .cacheClean p _ _ => some p
  | .cacheInvalidate p _ _ => some p
  | .cacheCleanInvalidate p _ _ => some p
  | .cachePreload p _ _ => some p
  | .cacheMaintInvalid p _ _ => some p
  | .maintDone _ => none
  | .cacheEnable p _ _ => some p
  | .cacheDisable p _ _ => some p
  | .cacheDrainDone _ _ => none
  | .regionSelect p _ _ => some p
  | .regionCommit p _ _ => some p
  | .modeEntryStart => none
  | .modeEntryCommit => none
  | .wakeFrame _ _ _ => none
  | .energyDetect _ _ => none
  | .portWakeTimeout _ => none
  | .wakeN _ => none
  | .timerSet p _ => some p
  | .timerExpiry _ => none
  | .aonLoRead p => some p
  | .padHoldRelease _ => none
  | .railGood _ => none
  | .railGoodTimeout => none
  | .pmbusPoll _ _ _ => none
  | .railSample _ _ => none
  | .guardExitTimer => none
  | .thmSample _ _ _ => none
  | .graceExpiry => none
  | .shdnBudgetExpiry => none
  | .posTick => none
  | .minuteBoundary => none
  | .wallSet p _ => some p
  | .wallLoRead p => some p
  | .recFreeze p => some p
  | .recUnfreeze p => some p
  | .freezeTimeout => none
  | .recClear p => some p
  | .rdDataRead p => some p
  | .posLoRead p => some p
  | .faultLogWrite => none
  | .watchdogExpiry _ => none
  | .stopBudgetExpiry => none
  | .resetN => none
  | .por => none
  | .startUp _ => none
  | .namespaceReady _ => none
  | .gpioEdge _ => none
  | .programDeadlinePassed _ => none
  | .warmBringUpDone _ => none
  | .i3cIbiEnable _ => none
  | .portEnable p _ _ => some p
  | .dramCorrectedError _ => none
  | .tenantResetDone _ => none
  | .tenantRemoveDone _ => none

/-- The capsule of a command that an NVMe host sends. -/
def Instr.capsule? : Instr → Option Capsule
  | .nimbusFrameReceived _ _ _ _ => none
  | .replayRequest _ _ _ => none
  | .replayRequestTimeout _ _ => none
  | .nimbusTxFrame _ _ _ => none
  | .retrainReq _ _ _ => none
  | .trainingAttemptEnd _ _ => none
  | .registerWrite _ _ _ => none
  | .rcRead _ _ => none
  | .errClr _ _ _ => none
  | .regRead q => some q
  | .regWrite q _ => some q
  | .sbWrite _ _ _ => none
  | .sbRead _ _ => none
  | .sbLastResult _ => none
  | .sbBadCommand _ => none
  | .i3cAddressAssign _ => none
  | .getLogRegInterrupts q => some q
  | .frameReceived _ => none
  | .rtpDrain _ _ _ => none
  | .pfcRefreshTimer _ _ => none
  | .pfcFrame _ _ => none
  | .pfcPauseExpiry _ _ => none
  | .arpRequest _ _ _ => none
  | .neighborSolicitation _ _ _ => none
  | .icmpEcho _ _ _ => none
  | .linkUp _ => none
  | .linkDown _ _ => none
  | .linkHoldExpiry _ => none
  | .cnpReceived _ => none
  | .rateIncrease _ => none
  | .rdmaCmConnectRequest _ => none
  | .tcpSyn _ => none
  | .icreq _ _ _ => none
  | .h2cDataPdu _ _ _ _ => none
  | .ackTimeout _ => none
  | .tcpRetransmitTimeout _ => none
  | .tcpCloseReceived _ => none
  | .tlsClientHello _ _ => none
  | .tlsHandshakeDone _ => none
  | .tlsRecordReceived _ _ => none
  | .tlsKeyUpdate _ => none
  | .wakeKeyCommit _ _ _ => none
  | .ifSelLoad _ _ => none
  | .ifCfgCommit _ _ => none
  | .connect q _ => some q
  | .disconnect q => some q
  | .propertyGet q => some q
  | .propertySet q => some q
  | .ccEnClear q => some q
  | .controllerResetDone _ => none
  | .ccShutdown q => some q
  | .authenticationSend q _ => some q
  | .authenticationReceive q => some q
  | .keepAlive q => some q
  | .keepAliveTimeout _ => none
  | .discoveryGetLogPage q => some q
  | .read q _ _ => some q
  | .write q _ _ => some q
  | .writeZeroes q => some q
  | .datasetManagement q _ => some q
  | .flush q => some q
  | .zoneAppend q _ => some q
  | .zoneOpen q => some q
  | .zoneClose q => some q
  | .zoneFinish q => some q
  | .zoneReset q => some q
  | .zoneOffline q => some q
  | .reportZones q => some q
  | .getLogPage q => some q
  | .getLogDeferredErrors q => some q
  | .getLogTenantStatus q => some q
  | .getLogDeviceRecorder q => some q
  | .getLogChangedZoneList q => some q
  | .identify q => some q
  | .abort q => some q
  | .setFeatures r => some r.cap
  | .getFeatures q => some q
  | .asynchronousEventRequest q => some q
  | .completionCommit _ _ => none
  | .formatNvm q => some q
  | .sanitizeCryptoErase q => some q
  | .sanitizeExitFailure q => some q
  | .cryptoEraseCommit _ => none
  | .cryptoEraseDone _ => none
  | .firmwareImageDownload q _ => some q
  | .fwCommitReplace q _ _ => some q
  | .fwCommitReplaceTrial q _ => some q
  | .fwCommitSelectNext q => some q
  | .fwCommitActivate q _ _ => some q
  | .tenantCreate q _ => some q
  | .tenantModify q _ => some q
  | .tenantReset q => some q
  | .tenantRemove q => some q
  | .nsCreate q _ => some q
  | .nsDelete q => some q
  | .configSave q => some q
  | .tenantCred q _ => some q
  | .quiesce _ _ => none
  | .quiesceComplete _ => none
  | .quiesceEnd _ _ => none
  | .diesetCreate q _ => some q
  | .diesetDelete q => some q
  | .diesetInfo q => some q
  | .diesetPopulation q => some q
  | .meterRead q => some q
  | .powerState q => some q
  | .faultRead q => some q
  | .faultReadClear q => some q
  | .deviceReset q => some q
  | .deviceResetForce q => some q
  | .debugToken q _ => some q
  | .provisionReset q => some q
  | .migAbortCmd q => some q
  | .spdmGetVersion a => some a.cap
  | .spdmGetCapabilities a => some a.cap
  | .spdmNegotiateAlgorithms a => some a.cap
  | .spdmGetDigests a => some a.cap
  | .spdmGetCertificate q _ _ => some q
  | .spdmChallenge q _ => some q
  | .spdmGetMeasurements q _ _ => some q
  | .spdmUnsupportedRequest q _ => some q
  | .securityReceive q => some q
  | .enroll q _ _ _ => some q
  | .bind q _ _ => some q
  | .status q _ => some q
  | .migBegin q _ _ => some q
  | .migSwap q _ => some q
  | .migExport q _ _ _ _ _ _ _ _ => some q
  | .migEvents q _ => some q
  | .migZones q _ _ _ _ => some q
  | .migFreeze q _ => some q
  | .migFreezeDone _ => none
  | .migKeyExport q _ _ => some q
  | .migAbort q _ => some q
  | .importBegin q _ _ => some q
  | .importData q _ _ _ => some q
  | .importZone q _ _ _ _ => some q
  | .importCommit q _ => some q
  | .importKey q _ _ => some q
  | .operationQueued _ => none
  | .gatherExpiry _ => none
  | .bulkEscalation _ => none
  | .bgWindowEnd _ => none
  | .bucketRefill => none
  | .laneDescriptor _ => none
  | .readComplete _ => none
  | .programComplete _ _ => none
  | .eraseComplete _ _ => none
  | .suspendAccepted _ => none
  | .runMinExpiry _ => none
  | .suspendHoldExpiry _ => none
  | .operationTimeout _ => none
  | .resetLunReady _ => none
  | .lunStuck _ => none
  | .zqCalShort _ => none
  | .readDqTrain _ _ _ => none
  | .thymeMicroword _ _ => none
  | .diagRead _ _ _ => none
  | .diagReadDone _ _ => none
  | .hardDecodeDone _ _ _ => none
  | .softPassDone _ _ _ => none
  | .rawSampleDone _ _ _ _ _ => none
  | .cipherJobArrival _ => none
  | .cipherJobDone _ _ => none
  | .healthTestFail => none
  | .journalFlushTimer => none
  | .journalFlushDone => none
  | .segmentCheckpoint _ => none
  | .markDurable _ => none
  | .relocation _ => none
  | .patrolTimer => none
  | .vinSample _ => none
  | .plProgramsDone => none
  | .plRestartTimer => none
  | .holdSample _ => none
  | .dramRetrain _ _ => none
  | .dramUe _ _ _ _ => none
  | .spareForce _ _ => none
  | .spareCopyDone => none
  | .transitSramUe _ _ => none
  | .basilAllocate _ _ _ _ => none
  | .basilShare _ _ _ => none
  | .basilRelease _ _ _ => none
  | .sealedUe _ _ => none
  | .scrubRead _ _ _ => none
  | .testDataWrite _ _ => none
  | .testDataRead _ => none
  | .cacheClean _ _ _ => none
  | .cacheInvalidate _ _ _ => none
  | .cacheCleanInvalidate _ _ _ => none
  | .cachePreload _ _ _ => none
  | .cacheMaintInvalid _ _ _ => none
  | .maintDone _ => none
  | .cacheEnable _ _ _ => none
  | .cacheDisable _ _ _ => none
  | .cacheDrainDone _ _ => none
  | .regionSelect _ _ _ => none
  | .regionCommit _ _ _ => none
  | .modeEntryStart => none
  | .modeEntryCommit => none
  | .wakeFrame _ _ _ => none
  | .energyDetect _ _ => none
  | .portWakeTimeout _ => none
  | .wakeN _ => none
  | .timerSet _ _ => none
  | .timerExpiry _ => none
  | .aonLoRead _ => none
  | .padHoldRelease _ => none
  | .railGood _ => none
  | .railGoodTimeout => none
  | .pmbusPoll _ _ _ => none
  | .railSample _ _ => none
  | .guardExitTimer => none
  | .thmSample _ _ _ => none
  | .graceExpiry => none
  | .shdnBudgetExpiry => none
  | .posTick => none
  | .minuteBoundary => none
  | .wallSet _ _ => none
  | .wallLoRead _ => none
  | .recFreeze _ => none
  | .recUnfreeze _ => none
  | .freezeTimeout => none
  | .recClear _ => none
  | .rdDataRead _ => none
  | .posLoRead _ => none
  | .faultLogWrite => none
  | .watchdogExpiry _ => none
  | .stopBudgetExpiry => none
  | .resetN => none
  | .por => none
  | .startUp _ => none
  | .namespaceReady _ => none
  | .gpioEdge _ => none
  | .programDeadlinePassed _ => none
  | .warmBringUpDone _ => none
  | .i3cIbiEnable _ => none
  | .portEnable _ _ _ => none
  | .dramCorrectedError _ => none
  | .tenantResetDone _ => none
  | .tenantRemoveDone _ => none

/-- Every operand is within its range. -/
def Instr.wf : Instr → Bool
  | .nimbusFrameReceived _ _ phase b => isPhase phase && isFrame b
  | .replayRequest _ _ seq => isByte seq
  | .replayRequestTimeout _ _ => true
  | .nimbusTxFrame _ _ offer => offer.all msgWf
  | .retrainReq p _ v => pathWf p && fits 32 v
  | .trainingAttemptEnd _ r => r.all (fun x => isPhase x.tile && isPhase x.hub)
  | .registerWrite p addr v => pathWf p && fits 32 addr && fits 32 v
  | .rcRead p addr => pathWf p && fits 32 addr
  | .errClr p page v => pathWf p && isPage page && fits 32 v
  | .regRead q => capsuleWf q
  | .regWrite q l => capsuleWf q && l.all (fun x => fits 32 x.1 && fits 32 x.2)
  | .sbWrite b addr v => busWf b && fits 32 addr && fits 32 v
  | .sbRead b addr => busWf b && fits 32 addr
  | .sbLastResult b => busWf b
  | .sbBadCommand b => busWf b
  | .i3cAddressAssign _ => true
  | .getLogRegInterrupts q => capsuleWf q
  | .frameReceived f => frameWf f
  | .rtpDrain _ _ _ => true
  | .pfcRefreshTimer _ _ => true
  | .pfcFrame _ f => fits 48 f.dst && f.quanta.all (fun x => isPrio x.1 && fits 16 x.2)
  | .pfcPauseExpiry _ _ => true
  | .arpRequest _ vlan a => isVlan vlan && fits 128 a.ip && fits 48 a.src
  | .neighborSolicitation _ vlan a => isVlan vlan && fits 128 a.dstIp && fits 128 a.target && fits 48 a.src
  | .icmpEcho _ vlan a => isVlan vlan && fits 128 a.ip && fits 48 a.dst && fits 48 a.src
  | .linkUp _ => true
  | .linkDown _ _ => true
  | .linkHoldExpiry _ => true
  | .cnpReceived _ => true
  | .rateIncrease _ => true
  | .rdmaCmConnectRequest r => newConnWf r.conn && rdmaWf r.qp
  | .tcpSyn y => newConnWf y.conn && y.opts.all tcpOptWf
  | .icreq _ _ _ => true
  | .h2cDataPdu _ cid len _ => fits 16 cid && fits 32 len
  | .ackTimeout _ => true
  | .tcpRetransmitTimeout _ => true
  | .tcpCloseReceived _ => true
  | .tlsClientHello _ _ => true
  | .tlsHandshakeDone _ => true
  | .tlsRecordReceived _ r => fits 32 r.len
  | .tlsKeyUpdate _ => true
  | .wakeKeyCommit p _ v => pathWf p && fits 32 v
  | .ifSelLoad p v => pathWf p && fits 32 v
  | .ifCfgCommit p v => pathWf p && fits 32 v
  | .connect q d => capsuleWf q && connectWf d
  | .disconnect q => capsuleWf q
  | .propertyGet q => capsuleWf q
  | .propertySet q => capsuleWf q
  | .ccEnClear q => capsuleWf q
  | .controllerResetDone f => isFunction f
  | .ccShutdown q => capsuleWf q
  | .authenticationSend q m => capsuleWf q && authWf m
  | .authenticationReceive q => capsuleWf q
  | .keepAlive q => capsuleWf q
  | .keepAliveTimeout f => isFunction f
  | .discoveryGetLogPage q => capsuleWf q
  | .read q bad _ => capsuleWf q && bad.all isCacheLine
  | .write q _ _ => capsuleWf q
  | .writeZeroes q => capsuleWf q
  | .datasetManagement q ranges => capsuleWf q && ranges.all (fun x => fits 64 x.1 && fits 32 x.2)
  | .flush q => capsuleWf q
  | .zoneAppend q _ => capsuleWf q
  | .zoneOpen q => capsuleWf q
  | .zoneClose q => capsuleWf q
  | .zoneFinish q => capsuleWf q
  | .zoneReset q => capsuleWf q
  | .zoneOffline q => capsuleWf q
  | .reportZones q => capsuleWf q
  | .getLogPage q => capsuleWf q
  | .getLogDeferredErrors q => capsuleWf q
  | .getLogTenantStatus q => capsuleWf q
  | .getLogDeviceRecorder q => capsuleWf q
  | .getLogChangedZoneList q => capsuleWf q
  | .identify q => capsuleWf q
  | .abort q => capsuleWf q
  | .setFeatures r => capsuleWf r.cap && fits 128 r.hostId
  | .getFeatures q => capsuleWf q
  | .asynchronousEventRequest q => capsuleWf q
  | .completionCommit _ cid => fits 16 cid
  | .formatNvm q => capsuleWf q
  | .sanitizeCryptoErase q => capsuleWf q
  | .sanitizeExitFailure q => capsuleWf q
  | .cryptoEraseCommit k => keySlot k
  | .cryptoEraseDone k => keySlot k
  | .firmwareImageDownload q data => capsuleWf q && data.all isByte
  | .fwCommitReplace q p _ => capsuleWf q && profileWf p
  | .fwCommitReplaceTrial q _ => capsuleWf q
  | .fwCommitSelectNext q => capsuleWf q
  | .fwCommitActivate q _ c => capsuleWf q && c.ue.all (fits 23)
  | .tenantCreate q b => capsuleWf q && blockWf b
  | .tenantModify q b => capsuleWf q && blockWf b
  | .tenantReset q => capsuleWf q
  | .tenantRemove q => capsuleWf q
  | .nsCreate q b => capsuleWf q && blockWf b
  | .nsDelete q => capsuleWf q
  | .configSave q => capsuleWf q
  | .tenantCred q data => capsuleWf q && data.all isByte
  | .quiesce p _ => pathWf p
  | .quiesceComplete t => isTenant t
  | .quiesceEnd p _ => pathWf p
  | .diesetCreate q b => capsuleWf q && blockWf b
  | .diesetDelete q => capsuleWf q
  | .diesetInfo q => capsuleWf q
  | .diesetPopulation q => capsuleWf q
  | .meterRead q => capsuleWf q
  | .powerState q => capsuleWf q
  | .faultRead q => capsuleWf q
  | .faultReadClear q => capsuleWf q
  | .deviceReset q => capsuleWf q
  | .deviceResetForce q => capsuleWf q
  | .debugToken q data => capsuleWf q && data.all isByte
  | .provisionReset q => capsuleWf q
  | .migAbortCmd q => capsuleWf q
  | .spdmGetVersion a => capsuleWf a.cap && a.req.all isByte
  | .spdmGetCapabilities a => capsuleWf a.cap && a.req.all isByte
  | .spdmNegotiateAlgorithms a => capsuleWf a.cap && a.req.all isByte
  | .spdmGetDigests a => capsuleWf a.cap && a.req.all isByte
  | .spdmGetCertificate q head rest => capsuleWf q && head.all isByte && rest.all isByte
  | .spdmChallenge q req => capsuleWf q && req.all isByte
  | .spdmGetMeasurements q head rest => capsuleWf q && head.all isByte && rest.all isByte
  | .spdmUnsupportedRequest q req => capsuleWf q && req.all isByte
  | .securityReceive q => capsuleWf q
  | .enroll q ctr form xy => capsuleWf q && fits 64 ctr && isByte form && isPoint xy
  | .bind q h nsid => capsuleWf q && kaWf h && fits 32 nsid
  | .status q h => capsuleWf q && kaWf h
  | .migBegin q h mask => capsuleWf q && kaWf h && fits 32 mask
  | .migSwap q h => capsuleWf q && kaWf h
  | .migExport q h nsid _ first last _ _ _ => capsuleWf q && kaWf h && fits 32 nsid && fits 64 first && fits 64 last
  | .migEvents q h => capsuleWf q && kaWf h
  | .migZones q h nsid first _ => capsuleWf q && kaWf h && fits 32 nsid && fits 64 first
  | .migFreeze q h => capsuleWf q && kaWf h
  | .migFreezeDone t => isTenant t
  | .migKeyExport q h x => capsuleWf q && kaWf h && x.all isByte
  | .migAbort q h => capsuleWf q && kaWf h
  | .importBegin q h mask => capsuleWf q && kaWf h && fits 32 mask
  | .importData q h nsid recs => capsuleWf q && kaWf h && fits 32 nsid && recs.all isByte
  | .importZone q h nsid z ds => capsuleWf q && kaWf h && fits 32 nsid && fits 64 z.first && fits 32 z.count && ds.all isByte
  | .importCommit q h => capsuleWf q && kaWf h
  | .importKey q h p => capsuleWf q && kaWf h && p.all isByte
  | .operationQueued die => isDie die
  | .gatherExpiry die => isDie die
  | .bulkEscalation die => isDie die
  | .bgWindowEnd die => isDie die
  | .bucketRefill => true
  | .laneDescriptor die => isDie die
  | .readComplete die => isDie die
  | .programComplete die _ => isDie die
  | .eraseComplete die _ => isDie die
  | .suspendAccepted die => isDie die
  | .runMinExpiry die => isDie die
  | .suspendHoldExpiry die => isDie die
  | .operationTimeout die => isDie die
  | .resetLunReady die => isDie die
  | .lunStuck die => isDie die
  | .zqCalShort lane => isLane lane
  | .readDqTrain lane ce _ => isLane lane && isCe ce
  | .thymeMicroword lane e => isLane lane && thymeWf e
  | .diagRead p _ v => pathWf p && fits 32 v
  | .diagReadDone lane r => isLane lane && diagWf r
  | .hardDecodeDone _ _ _ => true
  | .softPassDone _ _ _ => true
  | .rawSampleDone _ _ _ _ _ => true
  | .cipherJobArrival r => jobWf r
  | .cipherJobDone core _ => isCore core
  | .healthTestFail => true
  | .journalFlushTimer => true
  | .journalFlushDone => true
  | .segmentCheckpoint seg => seg.all (fun x => keySlot x.1)
  | .markDurable m => markWf m
  | .relocation _ => true
  | .patrolTimer => true
  | .vinSample _ => true
  | .plProgramsDone => true
  | .plRestartTimer => true
  | .holdSample _ => true
  | .dramRetrain _ _ => true
  | .dramUe _ _ c _ => dramWf c
  | .spareForce p v => pathWf p && fits 32 v
  | .spareCopyDone => true
  | .transitSramUe _ c => sramWf c
  | .basilAllocate client _ pool _ => clientWf client && decide (pool = client.minPool)
  | .basilShare pool _ _ => isPool pool
  | .basilRelease pool _ _ => isPool pool
  | .sealedUe _ _ => true
  | .scrubRead _ _ _ => true
  | .testDataWrite p v => pathWf p && fits 32 v
  | .testDataRead p => pathWf p
  | .cacheClean p _ w => pathWf p && fits 32 w.word && w.bad.all isCacheLine
  | .cacheInvalidate p _ w => pathWf p && fits 32 w.word && w.bad.all isCacheLine
  | .cacheCleanInvalidate p _ w => pathWf p && fits 32 w.word && w.bad.all isCacheLine
  | .cachePreload p _ w => pathWf p && fits 32 w.word && w.bad.all isCacheLine
  | .cacheMaintInvalid p _ v => pathWf p && fits 32 v
  | .maintDone _ => true
  | .cacheEnable p _ v => pathWf p && fits 32 v
  | .cacheDisable p _ v => pathWf p && fits 32 v
  | .cacheDrainDone _ bad => bad.all isCacheLine
  | .regionSelect p _ v => pathWf p && fits 32 v
  | .regionCommit p _ v => pathWf p && fits 32 v
  | .modeEntryStart => true
  | .modeEntryCommit => true
  | .wakeFrame _ key late => fits 128 key && late.all isLane
  | .energyDetect _ late => late.all isLane
  | .portWakeTimeout _ => true
  | .wakeN late => late.all isLane
  | .timerSet p v => pathWf p && fits 32 v
  | .timerExpiry late => late.all isLane
  | .aonLoRead p => pathWf p
  | .padHoldRelease v => fits 32 v
  | .railGood i => isRail i
  | .railGoodTimeout => true
  | .pmbusPoll addr page st => isAddr7 addr && isByte page && st.all (fits 16)
  | .railSample i _ => isRail i
  | .guardExitTimer => true
  | .thmSample _ _ _ => true
  | .graceExpiry => true
  | .shdnBudgetExpiry => true
  | .posTick => true
  | .minuteBoundary => true
  | .wallSet p v => pathWf p && fits 32 v
  | .wallLoRead p => pathWf p
  | .recFreeze p => pathWf p
  | .recUnfreeze p => pathWf p
  | .freezeTimeout => true
  | .recClear p => pathWf p
  | .rdDataRead p => pathWf p
  | .posLoRead p => pathWf p
  | .faultLogWrite => true
  | .watchdogExpiry core => isCore core
  | .stopBudgetExpiry => true
  | .resetN => true
  | .por => true
  | .startUp e => envWf e
  | .namespaceReady _ => true
  | .gpioEdge _ => true
  | .programDeadlinePassed die => isDie die
  | .warmBringUpDone f => findWf f
  | .i3cIbiEnable _ => true
  | .portEnable p _ v => pathWf p && fits 32 v
  | .dramCorrectedError _ => true
  | .tenantResetDone t => isTenant t
  | .tenantRemoveDone t => isTenant t

end Sys2Proof
end

