-- ==== Sys2Proof/Laws/PerInstr.lean ====
section
/-! SUPPORT. One lemma per command: a well-formed command's register path and capsule are well formed. -/

namespace Sys2Proof.Laws.Wf

open Sys2Proof Sys2Proof.Machine

/-- A well-formed command's register path and capsule are well formed. -/
def Statement (i : Instr) : Prop :=
  i.wf = true → (∀ p, i.path? = some p → pathWf p = true) ∧ (∀ q, i.capsule? = some q → capsuleWf q = true)

theorem and_fst {a b : Bool} (h : (a && b) = true) : a = true := (Bool.and_eq_true_iff.mp h).1

theorem nimbusFrameReceived (n : Fin 4) (w : NimWay) (phase : Nat) (b : List Nat) : Statement (.nimbusFrameReceived n w phase b) := fun _ => ⟨(fun _ e => nomatch e), (fun _ e => nomatch e)⟩
theorem replayRequest (n : Fin 4) (w : NimWay) (seq : Nat) : Statement (.replayRequest n w seq) := fun _ => ⟨(fun _ e => nomatch e), (fun _ e => nomatch e)⟩
theorem replayRequestTimeout (n : Fin 4) (w : NimWay) : Statement (.replayRequestTimeout n w) := fun _ => ⟨(fun _ e => nomatch e), (fun _ e => nomatch e)⟩
theorem nimbusTxFrame (n : Fin 4) (w : NimWay) (offer : Option NimMsg) : Statement (.nimbusTxFrame n w offer) := fun _ => ⟨(fun _ e => nomatch e), (fun _ e => nomatch e)⟩
theorem retrainReq (p : Path) (n : Fin 4) (v : Nat) : Statement (.retrainReq p n v) := fun h => ⟨(fun _ e => Option.some.inj e ▸ (and_fst h)), (fun _ e => nomatch e)⟩
theorem trainingAttemptEnd (n : Fin 4) (r : Option Phases) : Statement (.trainingAttemptEnd n r) := fun _ => ⟨(fun _ e => nomatch e), (fun _ e => nomatch e)⟩
theorem registerWrite (p : Path) (addr : Nat) (v : Nat) : Statement (.registerWrite p addr v) := fun h => ⟨(fun _ e => Option.some.inj e ▸ (and_fst (and_fst h))), (fun _ e => nomatch e)⟩
theorem rcRead (p : Path) (addr : Nat) : Statement (.rcRead p addr) := fun h => ⟨(fun _ e => Option.some.inj e ▸ (and_fst h)), (fun _ e => nomatch e)⟩
theorem errClr (p : Path) (page : Nat) (v : Nat) : Statement (.errClr p page v) := fun h => ⟨(fun _ e => Option.some.inj e ▸ (and_fst (and_fst h))), (fun _ e => nomatch e)⟩
theorem regRead (q : Capsule) : Statement (.regRead q) := fun h => ⟨(fun _ e => nomatch e), (fun _ e => Option.some.inj e ▸ h)⟩
theorem regWrite (q : Capsule) (l : List (Nat × Nat)) : Statement (.regWrite q l) := fun h => ⟨(fun _ e => nomatch e), (fun _ e => Option.some.inj e ▸ (and_fst h))⟩
theorem sbWrite (b : SbBus) (addr : Nat) (v : Nat) : Statement (.sbWrite b addr v) := fun _ => ⟨(fun _ e => nomatch e), (fun _ e => nomatch e)⟩
theorem sbRead (b : SbBus) (addr : Nat) : Statement (.sbRead b addr) := fun _ => ⟨(fun _ e => nomatch e), (fun _ e => nomatch e)⟩
theorem sbLastResult (b : SbBus) : Statement (.sbLastResult b) := fun _ => ⟨(fun _ e => nomatch e), (fun _ e => nomatch e)⟩
theorem sbBadCommand (b : SbBus) : Statement (.sbBadCommand b) := fun _ => ⟨(fun _ e => nomatch e), (fun _ e => nomatch e)⟩
theorem i3cAddressAssign (a : Fin 128) : Statement (.i3cAddressAssign a) := fun _ => ⟨(fun _ e => nomatch e), (fun _ e => nomatch e)⟩
theorem getLogRegInterrupts (q : Capsule) : Statement (.getLogRegInterrupts q) := fun h => ⟨(fun _ e => nomatch e), (fun _ e => Option.some.inj e ▸ h)⟩
theorem frameReceived (f : EthFrame) : Statement (.frameReceived f) := fun _ => ⟨(fun _ e => nomatch e), (fun _ e => nomatch e)⟩
theorem rtpDrain (p : Fin 2) (prio : Fin 8) (bytes : Nat) : Statement (.rtpDrain p prio bytes) := fun _ => ⟨(fun _ e => nomatch e), (fun _ e => nomatch e)⟩
theorem pfcRefreshTimer (p : Fin 2) (prio : Fin 8) : Statement (.pfcRefreshTimer p prio) := fun _ => ⟨(fun _ e => nomatch e), (fun _ e => nomatch e)⟩
theorem pfcFrame (p : Fin 2) (f : PfcFrame) : Statement (.pfcFrame p f) := fun _ => ⟨(fun _ e => nomatch e), (fun _ e => nomatch e)⟩
theorem pfcPauseExpiry (p : Fin 2) (prio : Fin 8) : Statement (.pfcPauseExpiry p prio) := fun _ => ⟨(fun _ e => nomatch e), (fun _ e => nomatch e)⟩
theorem arpRequest (p : Fin 2) (vlan : Nat) (a : ArpAsk) : Statement (.arpRequest p vlan a) := fun _ => ⟨(fun _ e => nomatch e), (fun _ e => nomatch e)⟩
theorem neighborSolicitation (p : Fin 2) (vlan : Nat) (a : NbrAsk) : Statement (.neighborSolicitation p vlan a) := fun _ => ⟨(fun _ e => nomatch e), (fun _ e => nomatch e)⟩
theorem icmpEcho (p : Fin 2) (vlan : Nat) (a : EchoAsk) : Statement (.icmpEcho p vlan a) := fun _ => ⟨(fun _ e => nomatch e), (fun _ e => nomatch e)⟩
theorem linkUp (p : Fin 2) : Statement (.linkUp p) := fun _ => ⟨(fun _ e => nomatch e), (fun _ e => nomatch e)⟩
theorem linkDown (p : Fin 2) (highSer : Bool) : Statement (.linkDown p highSer) := fun _ => ⟨(fun _ e => nomatch e), (fun _ e => nomatch e)⟩
theorem linkHoldExpiry (p : Fin 2) : Statement (.linkHoldExpiry p) := fun _ => ⟨(fun _ e => nomatch e), (fun _ e => nomatch e)⟩
theorem cnpReceived (id : Nat) : Statement (.cnpReceived id) := fun _ => ⟨(fun _ e => nomatch e), (fun _ e => nomatch e)⟩
theorem rateIncrease (id : Nat) : Statement (.rateIncrease id) := fun _ => ⟨(fun _ e => nomatch e), (fun _ e => nomatch e)⟩
theorem rdmaCmConnectRequest (r : RdmaConnect) : Statement (.rdmaCmConnectRequest r) := fun _ => ⟨(fun _ e => nomatch e), (fun _ e => nomatch e)⟩
theorem tcpSyn (y : SynSegment) : Statement (.tcpSyn y) := fun _ => ⟨(fun _ e => nomatch e), (fun _ e => nomatch e)⟩
theorem icreq (id : Nat) (hdgst : Bool) (ddgst : Bool) : Statement (.icreq id hdgst ddgst) := fun _ => ⟨(fun _ e => nomatch e), (fun _ e => nomatch e)⟩
theorem h2cDataPdu (id : Nat) (cid : Nat) (len : Nat) (d : Digests) : Statement (.h2cDataPdu id cid len d) := fun _ => ⟨(fun _ e => nomatch e), (fun _ e => nomatch e)⟩
theorem ackTimeout (id : Nat) : Statement (.ackTimeout id) := fun _ => ⟨(fun _ e => nomatch e), (fun _ e => nomatch e)⟩
theorem tcpRetransmitTimeout (id : Nat) : Statement (.tcpRetransmitTimeout id) := fun _ => ⟨(fun _ e => nomatch e), (fun _ e => nomatch e)⟩
theorem tcpCloseReceived (id : Nat) : Statement (.tcpCloseReceived id) := fun _ => ⟨(fun _ e => nomatch e), (fun _ e => nomatch e)⟩
theorem tlsClientHello (id : Nat) (h : Hello) : Statement (.tlsClientHello id h) := fun _ => ⟨(fun _ e => nomatch e), (fun _ e => nomatch e)⟩
theorem tlsHandshakeDone (id : Nat) : Statement (.tlsHandshakeDone id) := fun _ => ⟨(fun _ e => nomatch e), (fun _ e => nomatch e)⟩
theorem tlsRecordReceived (id : Nat) (r : TlsRecord) : Statement (.tlsRecordReceived id r) := fun _ => ⟨(fun _ e => nomatch e), (fun _ e => nomatch e)⟩
theorem tlsKeyUpdate (id : Nat) : Statement (.tlsKeyUpdate id) := fun _ => ⟨(fun _ e => nomatch e), (fun _ e => nomatch e)⟩
theorem wakeKeyCommit (p : Path) (port : Fin 2) (v : Nat) : Statement (.wakeKeyCommit p port v) := fun h => ⟨(fun _ e => Option.some.inj e ▸ (and_fst h)), (fun _ e => nomatch e)⟩
theorem ifSelLoad (p : Path) (v : Nat) : Statement (.ifSelLoad p v) := fun h => ⟨(fun _ e => Option.some.inj e ▸ (and_fst h)), (fun _ e => nomatch e)⟩
theorem ifCfgCommit (p : Path) (v : Nat) : Statement (.ifCfgCommit p v) := fun h => ⟨(fun _ e => Option.some.inj e ▸ (and_fst h)), (fun _ e => nomatch e)⟩
theorem connect (q : Capsule) (d : ConnectData) : Statement (.connect q d) := fun h => ⟨(fun _ e => nomatch e), (fun _ e => Option.some.inj e ▸ (and_fst h))⟩
theorem disconnect (q : Capsule) : Statement (.disconnect q) := fun h => ⟨(fun _ e => nomatch e), (fun _ e => Option.some.inj e ▸ h)⟩
theorem propertyGet (q : Capsule) : Statement (.propertyGet q) := fun h => ⟨(fun _ e => nomatch e), (fun _ e => Option.some.inj e ▸ h)⟩
theorem propertySet (q : Capsule) : Statement (.propertySet q) := fun h => ⟨(fun _ e => nomatch e), (fun _ e => Option.some.inj e ▸ h)⟩
theorem ccEnClear (q : Capsule) : Statement (.ccEnClear q) := fun h => ⟨(fun _ e => nomatch e), (fun _ e => Option.some.inj e ▸ h)⟩
theorem controllerResetDone (f : Nat) : Statement (.controllerResetDone f) := fun _ => ⟨(fun _ e => nomatch e), (fun _ e => nomatch e)⟩
theorem ccShutdown (q : Capsule) : Statement (.ccShutdown q) := fun h => ⟨(fun _ e => nomatch e), (fun _ e => Option.some.inj e ▸ h)⟩
theorem authenticationSend (q : Capsule) (m : AuthStep) : Statement (.authenticationSend q m) := fun h => ⟨(fun _ e => nomatch e), (fun _ e => Option.some.inj e ▸ (and_fst h))⟩
theorem authenticationReceive (q : Capsule) : Statement (.authenticationReceive q) := fun h => ⟨(fun _ e => nomatch e), (fun _ e => Option.some.inj e ▸ h)⟩
theorem keepAlive (q : Capsule) : Statement (.keepAlive q) := fun h => ⟨(fun _ e => nomatch e), (fun _ e => Option.some.inj e ▸ h)⟩
theorem keepAliveTimeout (f : Nat) : Statement (.keepAliveTimeout f) := fun _ => ⟨(fun _ e => nomatch e), (fun _ e => nomatch e)⟩
theorem discoveryGetLogPage (q : Capsule) : Statement (.discoveryGetLogPage q) := fun h => ⟨(fun _ e => nomatch e), (fun _ e => Option.some.inj e ▸ h)⟩
theorem read (q : Capsule) (bad : List Nat) (corr : Nat) : Statement (.read q bad corr) := fun h => ⟨(fun _ e => nomatch e), (fun _ e => Option.some.inj e ▸ (and_fst h))⟩
theorem write (q : Capsule) (data : List Nat) (corr : Nat) : Statement (.write q data corr) := fun h => ⟨(fun _ e => nomatch e), (fun _ e => Option.some.inj e ▸ h)⟩
theorem writeZeroes (q : Capsule) : Statement (.writeZeroes q) := fun h => ⟨(fun _ e => nomatch e), (fun _ e => Option.some.inj e ▸ h)⟩
theorem datasetManagement (q : Capsule) (ranges : List (Nat × Nat)) : Statement (.datasetManagement q ranges) := fun h => ⟨(fun _ e => nomatch e), (fun _ e => Option.some.inj e ▸ (and_fst h))⟩
theorem flush (q : Capsule) : Statement (.flush q) := fun h => ⟨(fun _ e => nomatch e), (fun _ e => Option.some.inj e ▸ h)⟩
theorem zoneAppend (q : Capsule) (data : List Nat) : Statement (.zoneAppend q data) := fun h => ⟨(fun _ e => nomatch e), (fun _ e => Option.some.inj e ▸ h)⟩
theorem zoneOpen (q : Capsule) : Statement (.zoneOpen q) := fun h => ⟨(fun _ e => nomatch e), (fun _ e => Option.some.inj e ▸ h)⟩
theorem zoneClose (q : Capsule) : Statement (.zoneClose q) := fun h => ⟨(fun _ e => nomatch e), (fun _ e => Option.some.inj e ▸ h)⟩
theorem zoneFinish (q : Capsule) : Statement (.zoneFinish q) := fun h => ⟨(fun _ e => nomatch e), (fun _ e => Option.some.inj e ▸ h)⟩
theorem zoneReset (q : Capsule) : Statement (.zoneReset q) := fun h => ⟨(fun _ e => nomatch e), (fun _ e => Option.some.inj e ▸ h)⟩
theorem zoneOffline (q : Capsule) : Statement (.zoneOffline q) := fun h => ⟨(fun _ e => nomatch e), (fun _ e => Option.some.inj e ▸ h)⟩
theorem reportZones (q : Capsule) : Statement (.reportZones q) := fun h => ⟨(fun _ e => nomatch e), (fun _ e => Option.some.inj e ▸ h)⟩
theorem getLogPage (q : Capsule) : Statement (.getLogPage q) := fun h => ⟨(fun _ e => nomatch e), (fun _ e => Option.some.inj e ▸ h)⟩
theorem getLogDeferredErrors (q : Capsule) : Statement (.getLogDeferredErrors q) := fun h => ⟨(fun _ e => nomatch e), (fun _ e => Option.some.inj e ▸ h)⟩
theorem getLogTenantStatus (q : Capsule) : Statement (.getLogTenantStatus q) := fun h => ⟨(fun _ e => nomatch e), (fun _ e => Option.some.inj e ▸ h)⟩
theorem getLogDeviceRecorder (q : Capsule) : Statement (.getLogDeviceRecorder q) := fun h => ⟨(fun _ e => nomatch e), (fun _ e => Option.some.inj e ▸ h)⟩
theorem getLogChangedZoneList (q : Capsule) : Statement (.getLogChangedZoneList q) := fun h => ⟨(fun _ e => nomatch e), (fun _ e => Option.some.inj e ▸ h)⟩
theorem identify (q : Capsule) : Statement (.identify q) := fun h => ⟨(fun _ e => nomatch e), (fun _ e => Option.some.inj e ▸ h)⟩
theorem abort (q : Capsule) : Statement (.abort q) := fun h => ⟨(fun _ e => nomatch e), (fun _ e => Option.some.inj e ▸ h)⟩
theorem setFeatures (r : FeatureSet) : Statement (.setFeatures r) := fun h => ⟨(fun _ e => nomatch e), (fun _ e => Option.some.inj e ▸ (and_fst h))⟩
theorem getFeatures (q : Capsule) : Statement (.getFeatures q) := fun h => ⟨(fun _ e => nomatch e), (fun _ e => Option.some.inj e ▸ h)⟩
theorem asynchronousEventRequest (q : Capsule) : Statement (.asynchronousEventRequest q) := fun h => ⟨(fun _ e => nomatch e), (fun _ e => Option.some.inj e ▸ h)⟩
theorem completionCommit (conn : Nat) (cid : Nat) : Statement (.completionCommit conn cid) := fun _ => ⟨(fun _ e => nomatch e), (fun _ e => nomatch e)⟩
theorem formatNvm (q : Capsule) : Statement (.formatNvm q) := fun h => ⟨(fun _ e => nomatch e), (fun _ e => Option.some.inj e ▸ h)⟩
theorem sanitizeCryptoErase (q : Capsule) : Statement (.sanitizeCryptoErase q) := fun h => ⟨(fun _ e => nomatch e), (fun _ e => Option.some.inj e ▸ h)⟩
theorem sanitizeExitFailure (q : Capsule) : Statement (.sanitizeExitFailure q) := fun h => ⟨(fun _ e => nomatch e), (fun _ e => Option.some.inj e ▸ h)⟩
theorem cryptoEraseCommit (k : Nat) : Statement (.cryptoEraseCommit k) := fun _ => ⟨(fun _ e => nomatch e), (fun _ e => nomatch e)⟩
theorem cryptoEraseDone (k : Nat) : Statement (.cryptoEraseDone k) := fun _ => ⟨(fun _ e => nomatch e), (fun _ e => nomatch e)⟩
theorem firmwareImageDownload (q : Capsule) (data : List Nat) : Statement (.firmwareImageDownload q data) := fun h => ⟨(fun _ e => nomatch e), (fun _ e => Option.some.inj e ▸ (and_fst h))⟩
theorem fwCommitReplace (q : Capsule) (p : Profile) (w : SlotEnd) : Statement (.fwCommitReplace q p w) := fun h => ⟨(fun _ e => nomatch e), (fun _ e => Option.some.inj e ▸ (and_fst h))⟩
theorem fwCommitReplaceTrial (q : Capsule) (w : SlotEnd) : Statement (.fwCommitReplaceTrial q w) := fun h => ⟨(fun _ e => nomatch e), (fun _ e => Option.some.inj e ▸ h)⟩
theorem fwCommitSelectNext (q : Capsule) : Statement (.fwCommitSelectNext q) := fun h => ⟨(fun _ e => nomatch e), (fun _ e => Option.some.inj e ▸ h)⟩
theorem fwCommitActivate (q : Capsule) (us : Nat) (c : CopyEnd) : Statement (.fwCommitActivate q us c) := fun h => ⟨(fun _ e => nomatch e), (fun _ e => Option.some.inj e ▸ (and_fst h))⟩
theorem tenantCreate (q : Capsule) (b : FMap Byte) : Statement (.tenantCreate q b) := fun h => ⟨(fun _ e => nomatch e), (fun _ e => Option.some.inj e ▸ (and_fst h))⟩
theorem tenantModify (q : Capsule) (b : FMap Byte) : Statement (.tenantModify q b) := fun h => ⟨(fun _ e => nomatch e), (fun _ e => Option.some.inj e ▸ (and_fst h))⟩
theorem tenantReset (q : Capsule) : Statement (.tenantReset q) := fun h => ⟨(fun _ e => nomatch e), (fun _ e => Option.some.inj e ▸ h)⟩
theorem tenantRemove (q : Capsule) : Statement (.tenantRemove q) := fun h => ⟨(fun _ e => nomatch e), (fun _ e => Option.some.inj e ▸ h)⟩
theorem nsCreate (q : Capsule) (b : FMap Byte) : Statement (.nsCreate q b) := fun h => ⟨(fun _ e => nomatch e), (fun _ e => Option.some.inj e ▸ (and_fst h))⟩
theorem nsDelete (q : Capsule) : Statement (.nsDelete q) := fun h => ⟨(fun _ e => nomatch e), (fun _ e => Option.some.inj e ▸ h)⟩
theorem configSave (q : Capsule) : Statement (.configSave q) := fun h => ⟨(fun _ e => nomatch e), (fun _ e => Option.some.inj e ▸ h)⟩
theorem tenantCred (q : Capsule) (data : List Nat) : Statement (.tenantCred q data) := fun h => ⟨(fun _ e => nomatch e), (fun _ e => Option.some.inj e ▸ (and_fst h))⟩
theorem quiesce (p : Path) (t : Fin 512) : Statement (.quiesce p t) := fun h => ⟨(fun _ e => Option.some.inj e ▸ h), (fun _ e => nomatch e)⟩
theorem quiesceComplete (t : Nat) : Statement (.quiesceComplete t) := fun _ => ⟨(fun _ e => nomatch e), (fun _ e => nomatch e)⟩
theorem quiesceEnd (p : Path) (t : Fin 512) : Statement (.quiesceEnd p t) := fun h => ⟨(fun _ e => Option.some.inj e ▸ h), (fun _ e => nomatch e)⟩
theorem diesetCreate (q : Capsule) (b : FMap Byte) : Statement (.diesetCreate q b) := fun h => ⟨(fun _ e => nomatch e), (fun _ e => Option.some.inj e ▸ (and_fst h))⟩
theorem diesetDelete (q : Capsule) : Statement (.diesetDelete q) := fun h => ⟨(fun _ e => nomatch e), (fun _ e => Option.some.inj e ▸ h)⟩
theorem diesetInfo (q : Capsule) : Statement (.diesetInfo q) := fun h => ⟨(fun _ e => nomatch e), (fun _ e => Option.some.inj e ▸ h)⟩
theorem diesetPopulation (q : Capsule) : Statement (.diesetPopulation q) := fun h => ⟨(fun _ e => nomatch e), (fun _ e => Option.some.inj e ▸ h)⟩
theorem meterRead (q : Capsule) : Statement (.meterRead q) := fun h => ⟨(fun _ e => nomatch e), (fun _ e => Option.some.inj e ▸ h)⟩
theorem powerState (q : Capsule) : Statement (.powerState q) := fun h => ⟨(fun _ e => nomatch e), (fun _ e => Option.some.inj e ▸ h)⟩
theorem faultRead (q : Capsule) : Statement (.faultRead q) := fun h => ⟨(fun _ e => nomatch e), (fun _ e => Option.some.inj e ▸ h)⟩
theorem faultReadClear (q : Capsule) : Statement (.faultReadClear q) := fun h => ⟨(fun _ e => nomatch e), (fun _ e => Option.some.inj e ▸ h)⟩
theorem deviceReset (q : Capsule) : Statement (.deviceReset q) := fun h => ⟨(fun _ e => nomatch e), (fun _ e => Option.some.inj e ▸ h)⟩
theorem deviceResetForce (q : Capsule) : Statement (.deviceResetForce q) := fun h => ⟨(fun _ e => nomatch e), (fun _ e => Option.some.inj e ▸ h)⟩
theorem debugToken (q : Capsule) (data : List Nat) : Statement (.debugToken q data) := fun h => ⟨(fun _ e => nomatch e), (fun _ e => Option.some.inj e ▸ (and_fst h))⟩
theorem provisionReset (q : Capsule) : Statement (.provisionReset q) := fun h => ⟨(fun _ e => nomatch e), (fun _ e => Option.some.inj e ▸ h)⟩
theorem migAbortCmd (q : Capsule) : Statement (.migAbortCmd q) := fun h => ⟨(fun _ e => nomatch e), (fun _ e => Option.some.inj e ▸ h)⟩
theorem spdmGetVersion (a : SpdmAsk) : Statement (.spdmGetVersion a) := fun h => ⟨(fun _ e => nomatch e), (fun _ e => Option.some.inj e ▸ (and_fst h))⟩
theorem spdmGetCapabilities (a : SpdmAsk) : Statement (.spdmGetCapabilities a) := fun h => ⟨(fun _ e => nomatch e), (fun _ e => Option.some.inj e ▸ (and_fst h))⟩
theorem spdmNegotiateAlgorithms (a : SpdmAsk) : Statement (.spdmNegotiateAlgorithms a) := fun h => ⟨(fun _ e => nomatch e), (fun _ e => Option.some.inj e ▸ (and_fst h))⟩
theorem spdmGetDigests (a : SpdmAsk) : Statement (.spdmGetDigests a) := fun h => ⟨(fun _ e => nomatch e), (fun _ e => Option.some.inj e ▸ (and_fst h))⟩
theorem spdmGetCertificate (q : Capsule) (head : List Nat) (rest : List Nat) : Statement (.spdmGetCertificate q head rest) := fun h => ⟨(fun _ e => nomatch e), (fun _ e => Option.some.inj e ▸ (and_fst (and_fst h)))⟩
theorem spdmChallenge (q : Capsule) (req : List Nat) : Statement (.spdmChallenge q req) := fun h => ⟨(fun _ e => nomatch e), (fun _ e => Option.some.inj e ▸ (and_fst h))⟩
theorem spdmGetMeasurements (q : Capsule) (head : List Nat) (rest : List Nat) : Statement (.spdmGetMeasurements q head rest) := fun h => ⟨(fun _ e => nomatch e), (fun _ e => Option.some.inj e ▸ (and_fst (and_fst h)))⟩
theorem spdmUnsupportedRequest (q : Capsule) (req : List Nat) : Statement (.spdmUnsupportedRequest q req) := fun h => ⟨(fun _ e => nomatch e), (fun _ e => Option.some.inj e ▸ (and_fst h))⟩
theorem securityReceive (q : Capsule) : Statement (.securityReceive q) := fun h => ⟨(fun _ e => nomatch e), (fun _ e => Option.some.inj e ▸ h)⟩
theorem enroll (q : Capsule) (ctr : Nat) (form : Nat) (xy : List Nat) : Statement (.enroll q ctr form xy) := fun h => ⟨(fun _ e => nomatch e), (fun _ e => Option.some.inj e ▸ (and_fst (and_fst (and_fst h))))⟩
theorem bind (q : Capsule) (h : KaHdr) (nsid : Nat) : Statement (.bind q h nsid) := fun h => ⟨(fun _ e => nomatch e), (fun _ e => Option.some.inj e ▸ (and_fst (and_fst h)))⟩
theorem status (q : Capsule) (h : KaHdr) : Statement (.status q h) := fun h => ⟨(fun _ e => nomatch e), (fun _ e => Option.some.inj e ▸ (and_fst h))⟩
theorem migBegin (q : Capsule) (h : KaHdr) (mask : Nat) : Statement (.migBegin q h mask) := fun h => ⟨(fun _ e => nomatch e), (fun _ e => Option.some.inj e ▸ (and_fst (and_fst h)))⟩
theorem migSwap (q : Capsule) (h : KaHdr) : Statement (.migSwap q h) := fun h => ⟨(fun _ e => nomatch e), (fun _ e => Option.some.inj e ▸ (and_fst h))⟩
theorem migExport (q : Capsule) (h : KaHdr) (nsid : Nat) (flags : Nat) (first : Nat) (last : Nat) (maxb : Nat) (visits : Nat) (bad : List Nat) : Statement (.migExport q h nsid flags first last maxb visits bad) := fun h => ⟨(fun _ e => nomatch e), (fun _ e => Option.some.inj e ▸ (and_fst (and_fst (and_fst (and_fst h)))))⟩
theorem migEvents (q : Capsule) (h : KaHdr) : Statement (.migEvents q h) := fun h => ⟨(fun _ e => nomatch e), (fun _ e => Option.some.inj e ▸ (and_fst h))⟩
theorem migZones (q : Capsule) (h : KaHdr) (nsid : Nat) (first : Nat) (count : Nat) : Statement (.migZones q h nsid first count) := fun h => ⟨(fun _ e => nomatch e), (fun _ e => Option.some.inj e ▸ (and_fst (and_fst (and_fst h))))⟩
theorem migFreeze (q : Capsule) (h : KaHdr) : Statement (.migFreeze q h) := fun h => ⟨(fun _ e => nomatch e), (fun _ e => Option.some.inj e ▸ (and_fst h))⟩
theorem migFreezeDone (t : Nat) : Statement (.migFreezeDone t) := fun _ => ⟨(fun _ e => nomatch e), (fun _ e => nomatch e)⟩
theorem migKeyExport (q : Capsule) (h : KaHdr) (x : List Nat) : Statement (.migKeyExport q h x) := fun h => ⟨(fun _ e => nomatch e), (fun _ e => Option.some.inj e ▸ (and_fst (and_fst h)))⟩
theorem migAbort (q : Capsule) (h : KaHdr) : Statement (.migAbort q h) := fun h => ⟨(fun _ e => nomatch e), (fun _ e => Option.some.inj e ▸ (and_fst h))⟩
theorem importBegin (q : Capsule) (h : KaHdr) (mask : Nat) : Statement (.importBegin q h mask) := fun h => ⟨(fun _ e => nomatch e), (fun _ e => Option.some.inj e ▸ (and_fst (and_fst h)))⟩
theorem importData (q : Capsule) (h : KaHdr) (nsid : Nat) (recs : List Nat) : Statement (.importData q h nsid recs) := fun h => ⟨(fun _ e => nomatch e), (fun _ e => Option.some.inj e ▸ (and_fst (and_fst (and_fst h))))⟩
theorem importZone (q : Capsule) (h : KaHdr) (nsid : Nat) (z : ZoneSpan) (ds : List Nat) : Statement (.importZone q h nsid z ds) := fun h => ⟨(fun _ e => nomatch e), (fun _ e => Option.some.inj e ▸ (and_fst (and_fst (and_fst (and_fst (and_fst h))))))⟩
theorem importCommit (q : Capsule) (h : KaHdr) : Statement (.importCommit q h) := fun h => ⟨(fun _ e => nomatch e), (fun _ e => Option.some.inj e ▸ (and_fst h))⟩
theorem importKey (q : Capsule) (h : KaHdr) (p : List Nat) : Statement (.importKey q h p) := fun h => ⟨(fun _ e => nomatch e), (fun _ e => Option.some.inj e ▸ (and_fst (and_fst h)))⟩
theorem operationQueued (die : Nat) : Statement (.operationQueued die) := fun _ => ⟨(fun _ e => nomatch e), (fun _ e => nomatch e)⟩
theorem gatherExpiry (die : Nat) : Statement (.gatherExpiry die) := fun _ => ⟨(fun _ e => nomatch e), (fun _ e => nomatch e)⟩
theorem bulkEscalation (die : Nat) : Statement (.bulkEscalation die) := fun _ => ⟨(fun _ e => nomatch e), (fun _ e => nomatch e)⟩
theorem bgWindowEnd (die : Nat) : Statement (.bgWindowEnd die) := fun _ => ⟨(fun _ e => nomatch e), (fun _ e => nomatch e)⟩
theorem bucketRefill : Statement (.bucketRefill) := fun _ => ⟨(fun _ e => nomatch e), (fun _ e => nomatch e)⟩
theorem laneDescriptor (die : Nat) : Statement (.laneDescriptor die) := fun _ => ⟨(fun _ e => nomatch e), (fun _ e => nomatch e)⟩
theorem readComplete (die : Nat) : Statement (.readComplete die) := fun _ => ⟨(fun _ e => nomatch e), (fun _ e => nomatch e)⟩
theorem programComplete (die : Nat) (ok : Bool) : Statement (.programComplete die ok) := fun _ => ⟨(fun _ e => nomatch e), (fun _ e => nomatch e)⟩
theorem eraseComplete (die : Nat) (ok : Bool) : Statement (.eraseComplete die ok) := fun _ => ⟨(fun _ e => nomatch e), (fun _ e => nomatch e)⟩
theorem suspendAccepted (die : Nat) : Statement (.suspendAccepted die) := fun _ => ⟨(fun _ e => nomatch e), (fun _ e => nomatch e)⟩
theorem runMinExpiry (die : Nat) : Statement (.runMinExpiry die) := fun _ => ⟨(fun _ e => nomatch e), (fun _ e => nomatch e)⟩
theorem suspendHoldExpiry (die : Nat) : Statement (.suspendHoldExpiry die) := fun _ => ⟨(fun _ e => nomatch e), (fun _ e => nomatch e)⟩
theorem operationTimeout (die : Nat) : Statement (.operationTimeout die) := fun _ => ⟨(fun _ e => nomatch e), (fun _ e => nomatch e)⟩
theorem resetLunReady (die : Nat) : Statement (.resetLunReady die) := fun _ => ⟨(fun _ e => nomatch e), (fun _ e => nomatch e)⟩
theorem lunStuck (die : Nat) : Statement (.lunStuck die) := fun _ => ⟨(fun _ e => nomatch e), (fun _ e => nomatch e)⟩
theorem zqCalShort (lane : Nat) : Statement (.zqCalShort lane) := fun _ => ⟨(fun _ e => nomatch e), (fun _ e => nomatch e)⟩
theorem readDqTrain (lane : Nat) (ce : Nat) (temp : Int) : Statement (.readDqTrain lane ce temp) := fun _ => ⟨(fun _ e => nomatch e), (fun _ e => nomatch e)⟩
theorem thymeMicroword (lane : Nat) (e : ThymeEnv) : Statement (.thymeMicroword lane e) := fun _ => ⟨(fun _ e => nomatch e), (fun _ e => nomatch e)⟩
theorem diagRead (p : Path) (l : Fin 64) (v : Nat) : Statement (.diagRead p l v) := fun h => ⟨(fun _ e => Option.some.inj e ▸ (and_fst h)), (fun _ e => nomatch e)⟩
theorem diagReadDone (lane : Nat) (r : DiagResult) : Statement (.diagReadDone lane r) := fun _ => ⟨(fun _ e => nomatch e), (fun _ e => nomatch e)⟩
theorem hardDecodeDone (climb : Nat) (converged : Bool) (zeros : Nat) : Statement (.hardDecodeDone climb converged zeros) := fun _ => ⟨(fun _ e => nomatch e), (fun _ e => nomatch e)⟩
theorem softPassDone (climb : Nat) (converged : Bool) (counts : List (Nat × Nat)) : Statement (.softPassDone climb converged counts) := fun _ => ⟨(fun _ e => nomatch e), (fun _ e => nomatch e)⟩
theorem rawSampleDone (band : Nat) (row : Nat) (mem : Nat) (diff : Nat) (decoded : Bool) : Statement (.rawSampleDone band row mem diff decoded) := fun _ => ⟨(fun _ e => nomatch e), (fun _ e => nomatch e)⟩
theorem cipherJobArrival (r : JobReq) : Statement (.cipherJobArrival r) := fun _ => ⟨(fun _ e => nomatch e), (fun _ e => nomatch e)⟩
theorem cipherJobDone (core : Nat) (intact : Bool) : Statement (.cipherJobDone core intact) := fun _ => ⟨(fun _ e => nomatch e), (fun _ e => nomatch e)⟩
theorem healthTestFail : Statement (.healthTestFail) := fun _ => ⟨(fun _ e => nomatch e), (fun _ e => nomatch e)⟩
theorem journalFlushTimer : Statement (.journalFlushTimer) := fun _ => ⟨(fun _ e => nomatch e), (fun _ e => nomatch e)⟩
theorem journalFlushDone : Statement (.journalFlushDone) := fun _ => ⟨(fun _ e => nomatch e), (fun _ e => nomatch e)⟩
theorem segmentCheckpoint (seg : Option (Nat × Nat)) : Statement (.segmentCheckpoint seg) := fun _ => ⟨(fun _ e => nomatch e), (fun _ e => nomatch e)⟩
theorem markDurable (m : MarkOf) : Statement (.markDurable m) := fun _ => ⟨(fun _ e => nomatch e), (fun _ e => nomatch e)⟩
theorem relocation (d : Nat) : Statement (.relocation d) := fun _ => ⟨(fun _ e => nomatch e), (fun _ e => nomatch e)⟩
theorem patrolTimer : Statement (.patrolTimer) := fun _ => ⟨(fun _ e => nomatch e), (fun _ e => nomatch e)⟩
theorem vinSample (mv : Nat) : Statement (.vinSample mv) := fun _ => ⟨(fun _ e => nomatch e), (fun _ e => nomatch e)⟩
theorem plProgramsDone : Statement (.plProgramsDone) := fun _ => ⟨(fun _ e => nomatch e), (fun _ e => nomatch e)⟩
theorem plRestartTimer : Statement (.plRestartTimer) := fun _ => ⟨(fun _ e => nomatch e), (fun _ e => nomatch e)⟩
theorem holdSample (mv : Nat) : Statement (.holdSample mv) := fun _ => ⟨(fun _ e => nomatch e), (fun _ e => nomatch e)⟩
theorem dramRetrain (ch : Fin 8) (ns : Nat) : Statement (.dramRetrain ch ns) := fun _ => ⟨(fun _ e => nomatch e), (fun _ e => nomatch e)⟩
theorem dramUe (rank : Fin 16) (a : Nat) (c : DramContent) (replaced : Bool) : Statement (.dramUe rank a c replaced) := fun _ => ⟨(fun _ e => nomatch e), (fun _ e => nomatch e)⟩
theorem spareForce (p : Path) (v : Nat) : Statement (.spareForce p v) := fun h => ⟨(fun _ e => Option.some.inj e ▸ (and_fst h)), (fun _ e => nomatch e)⟩
theorem spareCopyDone : Statement (.spareCopyDone) := fun _ => ⟨(fun _ e => nomatch e), (fun _ e => nomatch e)⟩
theorem transitSramUe (off : Nat) (c : SramContent) : Statement (.transitSramUe off c) := fun _ => ⟨(fun _ e => nomatch e), (fun _ e => nomatch e)⟩
theorem basilAllocate (client : Client) (size : Nat) (pool : Nat) (holders : Nat) : Statement (.basilAllocate client size pool holders) := fun _ => ⟨(fun _ e => nomatch e), (fun _ e => nomatch e)⟩
theorem basilShare (pool : Nat) (off : Nat) (n : Nat) : Statement (.basilShare pool off n) := fun _ => ⟨(fun _ e => nomatch e), (fun _ e => nomatch e)⟩
theorem basilRelease (pool : Nat) (off : Nat) (shares : Nat) : Statement (.basilRelease pool off shares) := fun _ => ⟨(fun _ e => nomatch e), (fun _ e => nomatch e)⟩
theorem sealedUe (m : Fin 7) (off : Nat) : Statement (.sealedUe m off) := fun _ => ⟨(fun _ e => nomatch e), (fun _ e => nomatch e)⟩
theorem scrubRead (m : Fin 7) (off : Nat) (r : ReadFinds) : Statement (.scrubRead m off r) := fun _ => ⟨(fun _ e => nomatch e), (fun _ e => nomatch e)⟩
theorem testDataWrite (p : Path) (v : Nat) : Statement (.testDataWrite p v) := fun h => ⟨(fun _ e => Option.some.inj e ▸ (and_fst h)), (fun _ e => nomatch e)⟩
theorem testDataRead (p : Path) : Statement (.testDataRead p) := fun h => ⟨(fun _ e => Option.some.inj e ▸ h), (fun _ e => nomatch e)⟩
theorem cacheClean (p : Path) (c : CacheId) (w : MaintWrite) : Statement (.cacheClean p c w) := fun h => ⟨(fun _ e => Option.some.inj e ▸ (and_fst (and_fst h))), (fun _ e => nomatch e)⟩
theorem cacheInvalidate (p : Path) (c : CacheId) (w : MaintWrite) : Statement (.cacheInvalidate p c w) := fun h => ⟨(fun _ e => Option.some.inj e ▸ (and_fst (and_fst h))), (fun _ e => nomatch e)⟩
theorem cacheCleanInvalidate (p : Path) (c : CacheId) (w : MaintWrite) : Statement (.cacheCleanInvalidate p c w) := fun h => ⟨(fun _ e => Option.some.inj e ▸ (and_fst (and_fst h))), (fun _ e => nomatch e)⟩
theorem cachePreload (p : Path) (c : CacheId) (w : MaintWrite) : Statement (.cachePreload p c w) := fun h => ⟨(fun _ e => Option.some.inj e ▸ (and_fst (and_fst h))), (fun _ e => nomatch e)⟩
theorem cacheMaintInvalid (p : Path) (c : CacheId) (v : Nat) : Statement (.cacheMaintInvalid p c v) := fun h => ⟨(fun _ e => Option.some.inj e ▸ (and_fst h)), (fun _ e => nomatch e)⟩
theorem maintDone (i : CacheId) : Statement (.maintDone i) := fun _ => ⟨(fun _ e => nomatch e), (fun _ e => nomatch e)⟩
theorem cacheEnable (p : Path) (c : CacheId) (v : Nat) : Statement (.cacheEnable p c v) := fun h => ⟨(fun _ e => Option.some.inj e ▸ (and_fst h)), (fun _ e => nomatch e)⟩
theorem cacheDisable (p : Path) (c : CacheId) (v : Nat) : Statement (.cacheDisable p c v) := fun h => ⟨(fun _ e => Option.some.inj e ▸ (and_fst h)), (fun _ e => nomatch e)⟩
theorem cacheDrainDone (i : CacheId) (bad : List Nat) : Statement (.cacheDrainDone i bad) := fun _ => ⟨(fun _ e => nomatch e), (fun _ e => nomatch e)⟩
theorem regionSelect (p : Path) (c : CacheId) (v : Nat) : Statement (.regionSelect p c v) := fun h => ⟨(fun _ e => Option.some.inj e ▸ (and_fst h)), (fun _ e => nomatch e)⟩
theorem regionCommit (p : Path) (c : CacheId) (v : Nat) : Statement (.regionCommit p c v) := fun h => ⟨(fun _ e => Option.some.inj e ▸ (and_fst h)), (fun _ e => nomatch e)⟩
theorem modeEntryStart : Statement (.modeEntryStart) := fun _ => ⟨(fun _ e => nomatch e), (fun _ e => nomatch e)⟩
theorem modeEntryCommit : Statement (.modeEntryCommit) := fun _ => ⟨(fun _ e => nomatch e), (fun _ e => nomatch e)⟩
theorem wakeFrame (p : Fin 2) (key : Nat) (late : List Nat) : Statement (.wakeFrame p key late) := fun _ => ⟨(fun _ e => nomatch e), (fun _ e => nomatch e)⟩
theorem energyDetect (p : Fin 2) (late : List Nat) : Statement (.energyDetect p late) := fun _ => ⟨(fun _ e => nomatch e), (fun _ e => nomatch e)⟩
theorem portWakeTimeout (p : Fin 2) : Statement (.portWakeTimeout p) := fun _ => ⟨(fun _ e => nomatch e), (fun _ e => nomatch e)⟩
theorem wakeN (late : List Nat) : Statement (.wakeN late) := fun _ => ⟨(fun _ e => nomatch e), (fun _ e => nomatch e)⟩
theorem timerSet (p : Path) (v : Nat) : Statement (.timerSet p v) := fun h => ⟨(fun _ e => Option.some.inj e ▸ (and_fst h)), (fun _ e => nomatch e)⟩
theorem timerExpiry (late : List Nat) : Statement (.timerExpiry late) := fun _ => ⟨(fun _ e => nomatch e), (fun _ e => nomatch e)⟩
theorem aonLoRead (p : Path) : Statement (.aonLoRead p) := fun h => ⟨(fun _ e => Option.some.inj e ▸ h), (fun _ e => nomatch e)⟩
theorem padHoldRelease (v : Nat) : Statement (.padHoldRelease v) := fun _ => ⟨(fun _ e => nomatch e), (fun _ e => nomatch e)⟩
theorem railGood (i : Nat) : Statement (.railGood i) := fun _ => ⟨(fun _ e => nomatch e), (fun _ e => nomatch e)⟩
theorem railGoodTimeout : Statement (.railGoodTimeout) := fun _ => ⟨(fun _ e => nomatch e), (fun _ e => nomatch e)⟩
theorem pmbusPoll (addr : Nat) (page : Nat) (st : Option Nat) : Statement (.pmbusPoll addr page st) := fun _ => ⟨(fun _ e => nomatch e), (fun _ e => nomatch e)⟩
theorem railSample (i : Nat) (mv : Nat) : Statement (.railSample i mv) := fun _ => ⟨(fun _ e => nomatch e), (fun _ e => nomatch e)⟩
theorem guardExitTimer : Statement (.guardExitTimer) := fun _ => ⟨(fun _ e => nomatch e), (fun _ e => nomatch e)⟩
theorem thmSample (c : Fin 32) (v : Int) (bad : Bool) : Statement (.thmSample c v bad) := fun _ => ⟨(fun _ e => nomatch e), (fun _ e => nomatch e)⟩
theorem graceExpiry : Statement (.graceExpiry) := fun _ => ⟨(fun _ e => nomatch e), (fun _ e => nomatch e)⟩
theorem shdnBudgetExpiry : Statement (.shdnBudgetExpiry) := fun _ => ⟨(fun _ e => nomatch e), (fun _ e => nomatch e)⟩
theorem posTick : Statement (.posTick) := fun _ => ⟨(fun _ e => nomatch e), (fun _ e => nomatch e)⟩
theorem minuteBoundary : Statement (.minuteBoundary) := fun _ => ⟨(fun _ e => nomatch e), (fun _ e => nomatch e)⟩
theorem wallSet (p : Path) (v : Nat) : Statement (.wallSet p v) := fun h => ⟨(fun _ e => Option.some.inj e ▸ (and_fst h)), (fun _ e => nomatch e)⟩
theorem wallLoRead (p : Path) : Statement (.wallLoRead p) := fun h => ⟨(fun _ e => Option.some.inj e ▸ h), (fun _ e => nomatch e)⟩
theorem recFreeze (p : Path) : Statement (.recFreeze p) := fun h => ⟨(fun _ e => Option.some.inj e ▸ h), (fun _ e => nomatch e)⟩
theorem recUnfreeze (p : Path) : Statement (.recUnfreeze p) := fun h => ⟨(fun _ e => Option.some.inj e ▸ h), (fun _ e => nomatch e)⟩
theorem freezeTimeout : Statement (.freezeTimeout) := fun _ => ⟨(fun _ e => nomatch e), (fun _ e => nomatch e)⟩
theorem recClear (p : Path) : Statement (.recClear p) := fun h => ⟨(fun _ e => Option.some.inj e ▸ h), (fun _ e => nomatch e)⟩
theorem rdDataRead (p : Path) : Statement (.rdDataRead p) := fun h => ⟨(fun _ e => Option.some.inj e ▸ h), (fun _ e => nomatch e)⟩
theorem posLoRead (p : Path) : Statement (.posLoRead p) := fun h => ⟨(fun _ e => Option.some.inj e ▸ h), (fun _ e => nomatch e)⟩
theorem faultLogWrite : Statement (.faultLogWrite) := fun _ => ⟨(fun _ e => nomatch e), (fun _ e => nomatch e)⟩
theorem watchdogExpiry (core : Nat) : Statement (.watchdogExpiry core) := fun _ => ⟨(fun _ e => nomatch e), (fun _ e => nomatch e)⟩
theorem stopBudgetExpiry : Statement (.stopBudgetExpiry) := fun _ => ⟨(fun _ e => nomatch e), (fun _ e => nomatch e)⟩
theorem resetN : Statement (.resetN) := fun _ => ⟨(fun _ e => nomatch e), (fun _ e => nomatch e)⟩
theorem por : Statement (.por) := fun _ => ⟨(fun _ e => nomatch e), (fun _ e => nomatch e)⟩
theorem startUp (e : StartEnv) : Statement (.startUp e) := fun _ => ⟨(fun _ e => nomatch e), (fun _ e => nomatch e)⟩
theorem namespaceReady (k : Fin 1024) : Statement (.namespaceReady k) := fun _ => ⟨(fun _ e => nomatch e), (fun _ e => nomatch e)⟩
theorem gpioEdge (levels : BitVec 16) : Statement (.gpioEdge levels) := fun _ => ⟨(fun _ e => nomatch e), (fun _ e => nomatch e)⟩
theorem programDeadlinePassed (die : Nat) : Statement (.programDeadlinePassed die) := fun _ => ⟨(fun _ e => nomatch e), (fun _ e => nomatch e)⟩
theorem warmBringUpDone (f : LaneFind) : Statement (.warmBringUpDone f) := fun _ => ⟨(fun _ e => nomatch e), (fun _ e => nomatch e)⟩
theorem i3cIbiEnable (on : Bool) : Statement (.i3cIbiEnable on) := fun _ => ⟨(fun _ e => nomatch e), (fun _ e => nomatch e)⟩
theorem portEnable (p : Path) (port : Fin 2) (v : Nat) : Statement (.portEnable p port v) := fun h => ⟨(fun _ e => Option.some.inj e ▸ (and_fst h)), (fun _ e => nomatch e)⟩
theorem dramCorrectedError (rank : Fin 16) : Statement (.dramCorrectedError rank) := fun _ => ⟨(fun _ e => nomatch e), (fun _ e => nomatch e)⟩
theorem tenantResetDone (t : Nat) : Statement (.tenantResetDone t) := fun _ => ⟨(fun _ e => nomatch e), (fun _ e => nomatch e)⟩
theorem tenantRemoveDone (t : Nat) : Statement (.tenantRemoveDone t) := fun _ => ⟨(fun _ e => nomatch e), (fun _ e => nomatch e)⟩

end Sys2Proof.Laws.Wf
end

