-- ==== Sys2Proof/Laws/Regs.lean ====
section
/-! SUPPORT. Register accesses: where a register's address leads, and what an access that passes every check answers. -/

namespace Sys2Proof.Machine

theorem regAddr_div (k : PageKind) (i off : Nat) (h : off < 0x1000) : regAddr k i off / 0x1000 = pageNo k i := by
  unfold regAddr pageBase; omega
theorem regAddr_mod (k : PageKind) (i off : Nat) (h : off < 0x1000) : regAddr k i off % 0x1000 = off := by
  unfold regAddr pageBase; omega

theorem pageIs_nim (i : Fin 4) : pageIs .nim i.val = true := by revert i; decide
theorem pageIs_tf (i : Fin 512) : pageIs .tf i.val = true := by
  have h := i.isLt
  unfold pageIs pageNo pageAt
  simp only [decide_eq_true_eq]
  split <;> try omega
  rw [if_neg (by omega), if_neg (by omega), if_neg (by omega), if_neg (by omega), if_neg (by omega), if_pos (by omega)]
  simp
theorem pageIs_lan (i : Fin 64) : pageIs .lan i.val = true := by revert i; decide

theorem regAccess_write (p : Path) (k : PageKind) (i off v : Nat) (s : State) (hp : pageIs k i = true) (ho : off < 0x1000)
    (h4 : off % 4 = 0) (hd : regDefined k off = true) (hw : regWritable k off = true) (h : RegOpen s p k i)
     : regAccess p (regAddr k i off) (some v) s = ⟨0, 0, doWrite s p k i off (v % 2 ^ 32)⟩ := by
  obtain ⟨hm, hs, hl⟩ := h
  have ha : pageAsleep s k i = false := by simp [pageAsleep, hm]
  have hr : lockRefuses s p k i off v = false := by
    unfold lockRefuses
    rcases hl with hl | hl <;> simp [hl]
  have e4 : regAddr k i off % 4 = 0 := by unfold regAddr pageBase; omega
  have hf : failedCheck s p k i (regAddr k i off) (some v) = none := by
    simp [failedCheck, regAddr_mod k i off ho, hd, hw, ha, hs, hr, e4]
  have hpg : pageAt (pageNo k i) = some (k, i) := by simpa [pageIs] using hp
  unfold regAccess
  simp only [regAddr_div k i off ho, hpg, hf, regAddr_mod k i off ho]

theorem writeReg_open (p : Path) (k : PageKind) (i off v : Nat) (s : State) (hp : pageIs k i = true) (ho : off < 0x1000)
    (h4 : off % 4 = 0) (hd : regDefined k off = true) (hw : regWritable k off = true) (h : RegOpen s p k i) :
    writeReg p k i off v s = emit (doWrite s p k i off (v % 2 ^ 32)) (.access (regAddr k i off) 0 0) := by
  have hr := regAccess_write p k i off v s hp ho h4 hd hw h
  have hm := h.1
  have hs := h.2.1
  unfold writeReg accessBy
  cases p with
  | i3c a => simp [Path.isSb] at hs
  | smbus a => simp [Path.isSb] at hs
  | mf c d => simp [pathOpen, hm, hr]
  | firmware => simp [pathOpen, hm, hr]
theorem regAccess_read (p : Path) (k : PageKind) (i off : Nat) (s : State) (hp : pageIs k i = true) (ho : off < 0x1000)
    (h4 : off % 4 = 0) (hd : regDefined k off = true) (hm : s.mode = .run) (hs : p.isSb = false) :
    regAccess p (regAddr k i off) none s = ⟨0, readValue s k i off, readEffect s k i off⟩ := by
  have ha : pageAsleep s k i = false := by simp [pageAsleep, hm]
  have e4 : regAddr k i off % 4 = 0 := by unfold regAddr pageBase; omega
  have hf : failedCheck s p k i (regAddr k i off) none = none := by
    simp [failedCheck, regAddr_mod k i off ho, hd, ha, hs, e4]
  have hpg : pageAt (pageNo k i) = some (k, i) := by simpa [pageIs] using hp
  unfold regAccess
  simp only [regAddr_div k i off ho, hpg, hf, regAddr_mod k i off ho, ha]
  rfl

theorem readReg_open (p : Path) (k : PageKind) (i off : Nat) (s : State) (hp : pageIs k i = true) (ho : off < 0x1000)
    (h4 : off % 4 = 0) (hd : regDefined k off = true) (hm : s.mode = .run) (hs : p.isSb = false) :
    readReg p k i off s = emit (readEffect s k i off) (.access (regAddr k i off) 0 (readValue s k i off)) := by
  have hr := regAccess_read p k i off s hp ho h4 hd hm hs
  unfold readReg accessBy
  cases p with
  | i3c a => simp [Path.isSb] at hs
  | smbus a => simp [Path.isSb] at hs
  | mf c d => simp [pathOpen, hm, hr]
  | firmware => simp [pathOpen, hm, hr]

end Sys2Proof.Machine
end

