-- ==== Sys2Proof/Laws/Step.lean ====
section
/-! SUPPORT. What a step can do: it answers a next state, whose end has been settled. -/

namespace Sys2Proof.Machine

/-- Every command answers a next state, settled. -/
theorem exec_settles (c : Instr) (s : State) : ∃ u, exec c s = .next (settle u) := by
  cases c <;> exact ⟨_, rfl⟩

/-- With no command waiting, and no admin command that has come to its turn, a step is a tick. -/
theorem step_idle (s : State) (h : s.pending = []) (hn : nextHeld s = none) : step s = tick s := by
  unfold step
  rw [h]
  dsimp only
  rw [hn]

/-- A tick settles what it left. -/
theorem tick_settles (s : State) : tick s = .next (settle (tickOp s)) := by
  unfold tick done
  exact Eq.refl _

/-- Every step answers a next state, settled. -/
theorem step_settles (s : State) : ∃ u, step s = .next (settle u) := by
  unfold step
  split
  · split
    · exact exec_settles _ _
    · exact ⟨_, tick_settles s⟩
  · exact exec_settles _ _

end Sys2Proof.Machine
end

