-- ==== Sys2Proof/Tests/Slice0.lean ====
section
/-! SUPPORT. Tests: for the statements of Certificates/Slice0/Obligations.lean states and operands that meet the hypotheses
of each clause (`wit_…`), ill-formed commands for every check of WellFormed.lean (`wf_…`), and values from the spec's tables
and worked examples (`test_…`). Hypotheses that rest on an opaque constant of Config (a signature that verifies) are met
relative to that constant. -/

open Sys2Proof Sys2Proof.Machine
namespace Sys2Proof.Tests
set_option synthInstance.maxSize 4000
set_option synthInstance.maxHeartbeats 400000
set_option maxRecDepth 10000

/-- A part in RUN with an admin connection of MF (0), one of tenant 5 (1) and an I/O connection of tenant 5 (2). -/
def base : State :=
  { mode := .run, now := 5000000000000,
    conns := [(0, { fn := some 512 }), (1, { fn := some 5 }), (2, { fn := some 5, qid := 1, rdma := false })],
    tenants := [(5, { state := .active, par := { ioqGrant := 4, maxNs := 4, credits := 64, maxClass := 2, openZones := 8, activeZones := 8 },
                      enroll := some ⟨[4], 2, 3⟩ })] }

/-- A capsule of a connection with its dword 10 and a buffer of 1 MiB. -/
def cap (conn dw10 : Nat) : Capsule :=
  { conn := conn, cid := 7, nsid := 1, dw10 := dw10, dw11 := 0, dw12 := 0, dw13 := 0, dw14 := 0, dw15 := 0, len := 1048576, keyed := 1, reserved := false }

/-- A zoned namespace of tenant 5 in key slot 9. -/
def zns : Ns := { tenant := 5, nsid := 1, zoned := true, zsize := 0, parity := 0, cls := 1, dieSet := 0, capacity := 1048576 }

/-- The same, conventional. -/
def cns : Ns := { zns with zoned := false }

/-- `base` with one namespace, bound to a key. -/
def withNs (n : Ns) : State := { base with nss := [(9, n)], nsKeys := [(9, 77)] }

theorem wit_ready_mf : Ready base (cap 0 0) fnMF := by decide
theorem wit_ready_tenant : Ready base (cap 1 0) 5 := by decide
theorem wit_service : ServiceReady { base with mode := .service } (cap 0 0) := by decide
theorem wit_regOpen : RegOpen base (.mf 0 0) .eth 0 ∧ RegOpen base (.mf 0 0) .tte 0 ∧ RegOpen base .firmware .pwr 0 ∧
    RegOpen base (.mf 0 0) .mtr 0 ∧ RegOpen base (.mf 0 0) .recd 0 ∧ RegOpen base (.mf 0 0) .tf 5 ∧ RegOpen base (.mf 0 0) .lan 0 ∧
    RegOpen base (.mf 0 0) .drx 0 ∧ RegOpen base (.mf 0 0) .sea 0 ∧ RegOpen base (.mf 0 0) .mcc 0 := by decide
theorem wit_ioReady : IoReady (withNs zns) (cap 2 0) 5 9 zns ∧ IoReady (withNs cns) (cap 2 0) 5 9 cns := by decide
theorem wit_authReady : AuthReady base (cap 1 0) 5 ∧ OnlyBits (cap 1 0) [0, 0, 0, 0, 0, 0] := by decide

/-! ### Statement by statement -/

/-- A link that is up; an idle payload; a data frame with the number 0, from the spec's layout with its CRC. -/
def linkUp0 : State := { base with nims := [(0, { state := .up })] }
def msg0 : NimMsg := nimNone
def goodFrame : List Nat := nimFrame 0 0 255 msg0

theorem wit_linkReceives_good : nimHasSync goodFrame = true ∧ bitsOf (ofLe ((goodFrame.drop 4).take 8)) 19 16 = 0 ∧
    bitsOf (ofLe ((goodFrame.drop 4).take 8)) 7 0 = ((nim linkUp0 0).dir .toTile).rxNext ∧ nimCrcOk goodFrame = true := by decide +kernel
theorem wit_linkReceives : ((nim linkUp0 0).state = .up ∧ ((nim linkUp0 0).dir .toTile).hunting = false ∧
    ((nim linkUp0 0).dir .toTile).confirm = false ∧ nimHasSync [] = false ∧ (1 : Nat) ≠ ((nim linkUp0 0).dir .toTile).phase) ∧
    (let s := { linkUp0 with nims := [(0, { state := .up, toTile := { request := some 3 } }), (1, { state := .retrain, toTile := { request := some 3 } })] };
    (nim s 0).state = .up ∧ ((nim s 0).dir .toTile).request = some 3 ∧ 3 ≤ s.now ∧ (nim s 1).state = .retrain ∧
      ((nim s 1).dir .toTile).request = some 3) := by decide
theorem wit_linkReceives_bad : nimHasSync (leBytes 4 nimSync ++ List.replicate 252 1) = true ∧
    nimCrcOk (leBytes 4 nimSync ++ List.replicate 252 1) = false := by decide +kernel
theorem wit_linkSends : ((nim linkUp0 0).state = .up ∧ ((nim linkUp0 0).dir .toHub).resend = [] ∧ ((nim linkUp0 0).dir .toHub).waiting = [] ∧
    ((nim linkUp0 0).dir .toHub).retry.length < 64) ∧
    (let d : NimDir := { resend := [(4, msg0)] }; d.resend = (4, msg0) :: []) ∧
    (let d : NimDir := { retry := List.replicate 64 (4, msg0) }; d.resend = [] ∧ d.waiting = [] ∧ 64 ≤ d.retry.length) ∧
    (let s := { base with nims := [(1, { state := .retrain, fails := 1 }), (2, { state := .retrain, fails := 2 })] };
      (nim s 1).state = .retrain ∧ (nim s 1).fails < 2 ∧ (nim s 2).state = .retrain ∧ 2 ≤ (nim s 2).fails) ∧
    RegOpen linkUp0 (.mf 0 0) .nim 0 := by decide
theorem wit_accesses : RegOpen base (.mf 0 0) .gpio 0 ∧ pageIs .gpio 0 = true ∧ regDefined .gpio 0x100 = true ∧ regWritable .gpio 0x100 = true ∧
    regWritable .dir 0x010 = true ∧ RegOpen base (.mf 0 0) .dir 0 ∧ pageIs .dir 0 = true ∧ regDefined .dir 0x010 = true := by decide
theorem wit_sideband : base.mode = .run ∧ sbHears base (.smbus 0x3A true) = true ∧ (SbBus.smbus 0x3A true).good = true := by decide
theorem wit_batches : (let q := { cap 0 (32 * 2 ^ 20 + 0x1040) with len := 8 }; Ready base q fnMF ∧
      OnlyBits q [0xFFFFFFFF, 0xFFFFFFFF, 0xFFFFFFFF, 0xFFFFFFFF, 0, 0] ∧ bitsOf q.dw10 24 20 = 0 ∧ runRegs q.dw10 = [0x1040 * 4] ∧ runRegs 0 = []) ∧
    (let a := regAccess (.mf 0 7) (0x1040 * 4) none (served base fnMF); a.s.mode ≠ .reset ∧ (connOf a.s 0).isSome = true) ∧
    (let q := { cap 0 1 with len := 8 }; Ready base q fnMF ∧
      OnlyBits q [0x7F, 0xFFFFFFFF, 0xFFFFFFFF, 0xFFFFFFFF, 0xFFFFFFFF, 0xFFFFFFFF] ∧ q.dw10 = [(0x1040 * 4, 1)].length) ∧
    (let r := writeAll (.mf 0 7) [(0x1040 * 4, 1)] (served base fnMF); r.2.mode ≠ .reset ∧ (connOf r.2 0).isSome = true) := by decide
theorem wit_timeRegisters : base.mode = .run ∧ RegOpen base (.mf 0 0) .pwr 0 ∧ base.recd.frozenAt = none ∧
    { base with recd := { frozenAt := some 3 } }.recd.frozenAt = some 3 ∧
    (let s := { base with aon := { base.aon with wall := some (120, 0) }, meter := { base.meter with minute := 2 } };
      RegOpen s (.mf 0 0) .mtr 0 ∧ s.aon.wall.isSome = true ∧ (0 % 2 ^ 32 % 256 * 2 ^ 32 + rd (wr s .mtr 0 0x100 120) .mtr 0 0x100) / 60 = s.meter.minute) ∧
    base.aon.wall.isSome = false := by decide
theorem wit_portRegisters : getF (storeWord base .eth 0 0x100 1) .eth 0 F.ETH_PORT_CTRL_ENABLE = 1 ∧
    (let s := setF { base with eth := [(0, { linkUp := true })] } .eth 0 F.ETH_PORT_CTRL_ENABLE 1; let s1 := storeWord s .eth 0 0x100 0x0A00;
     (eth s 0).linkUp = true ∧ getF s1 .eth 0 F.ETH_PORT_CTRL_ENABLE = 0 ∧
      getF s1 .eth 0 F.ETH_PORT_CTRL_LINK_HOLD ≠ 0) := by decide
theorem wit_tenantLaneTest : (tenant base 5).state = .active ∧ (tenant { base with tenants := [(5, { state := .quiesced })] } 5).state = .quiesced ∧
    (tenant { base with tenants := [(5, { state := .quiescing })] } 5).state = .quiescing ∧
    (let s := { base with dies := [(0, { st := .idle })] }; let s1 := storeWord s .lan 0 0x138 1;
     getF s1 .lan 0 F.LAN_DIAG_STAT_BUSY = 0 ∧ laneOfDie (puaDie 0) = 0 ∧ (dieAt s1 (puaDie 0)).st ≠ .absent ∧ dieOut s1 (puaDie 0) = false ∧
     (let s2 := { s1 with oos := { dies := [0] } }; dieOut s2 (puaDie 0) = true ∧ (dieAt s2 (puaDie 0)).st ≠ .absent)) ∧
    (let s1 := storeWord base .lan 1 0x138 1; laneOfDie (puaDie (getF s1 .lan 1 F.LAN_DIAG_PUA_LO_PUA_LO)) ≠ 1) ∧
    (let s1 := storeWord base .lan 0 0x138 1; (dieAt s1 (puaDie 0)).st = .absent) := by decide
theorem wit_spareAndTest : (let s := setF base .drc 0 F.DRC_RANK_STAT_RANK0 1; let s0 := storeWord s .drx 0 0x10C 1;
     let s1 := ((List.range 16).filter (fun r => rankState s0 r = 1)).foldl ceJudge s0;
     rankState s1 0 = 1 ∧ 0 ∉ s1.dram.noSpare ∧ getF s1 .drx 0 F.DRX_SPARE_STATE = 0) ∧
    (let s := setF (setF base .drc 0 F.DRC_RANK_STAT_RANK0 1) .drx 0 F.DRX_SPARE_STATE 2; let s0 := storeWord s .drx 0 0x10C 1;
     let s1 := ((List.range 16).filter (fun r => rankState s0 r = 1)).foldl ceJudge s0;
     rankState s1 0 = 1 ∧ 0 ∉ s1.dram.noSpare ∧ getF s1 .drx 0 F.DRX_SPARE_STATE ≠ 0) ∧ (winAt base 0 0).flips = 0 ∧
    getF base .sea 0 F.SEA_FLIP_ARMED ≠ 1 ∧ (let s := setF base .sea 0 F.SEA_FLIP_ARMED 1; getF s .sea 0 F.SEA_FLIP_ARMED = 1 ∧
      memIndex (getF s .sea 0 F.SEA_FLIP_TARGET) = (testSel s).1) := by decide

/-- Port 0 up, with interface 2 (IPv4) and interface 3 (IPv6) on it. -/
def portOn : State :=
  setF { base with eth := [(0, { linkUp := true, amLock := true })],
                   ifs := [(2, { addr := 0xFFFF00000009, cfg := 0x90000000 }), (3, { addr := 2 ^ 120 + 7, cfg := 0x90000000 })] }
    .eth 0 F.ETH_PORT_CTRL_ENABLE 1

theorem wit_ports : portLive portOn 0 = true ∧ (eth portOn 0).linkUp = true ∧
    (let s := setF { portOn with eth := [(0, { linkUp := true, xoff := [(3, 5)], paused := [(3, 5)], level := [(3, 30000000)] })] }
        .eth 0 F.ETH_PFC_CTRL_LOSSLESS 8;
      mget (eth s 0).xoff 3 = some 5 ∧ 5 ≤ s.now ∧ isLossless s 0 3 = true ∧ portSends s 0 = true ∧
      xonKib s 0 * 1024 ≤ mgetD (eth s 0).level 3 0 ∧ mget (eth s 0).paused 3 = some 5) ∧
    (let s := { portOn with eth := [(0, { holdUntil := some 5 })] };
      (eth s 0).holdUntil = some 5 ∧ 5 ≤ s.now ∧ getF s .eth 0 F.ETH_PORT_CTRL_ENABLE = 1 ∧ (eth s 0).linkUp = false ∧ s.mode = .run ∧
      portQuiet s 0 = true) ∧
    findIf portOn 0 0 0xFFFF00000009 = some 2 ∧ (ifAt portOn 2).isV4 = true ∧ findV6 portOn 0 (2 ^ 120 + 7) = some 3 := by decide

/-- A frame for interface 2 of `portOn`: 64 bytes, untagged, of IPv4. -/
def frame2 : EthFrame :=
  { port := 0, fecCorr := 0, fecUnc := 0, bytes := 64, dst := 0xFFFFFFFFFFFF, src := 1, tags := [], etherType := 0x0800, v6 := false, ipLen := 46,
    options := false, fragment := false, dstIp := 0xFFFF00000009, ce := false, wakeKey := 0, wakeSubtype := 0, body := .other }

theorem wit_ports_frame : let s := setF portOn .eth 0 F.ETH_PFC_CTRL_LOSSLESS 1; let s1 := bumpBy s .eth 0 F.ETH_FEC_CORR 0
    portLive s 0 = true ∧ (acceptIf s1 frame2).isSome = true ∧ isLossless s1 0 (framePrio frame2) = true ∧ frame2.ipLen ≤ portMtu s1 0 ∧
    rtpLevel (eth s 0) + frame2.bytes ≤ rtpSize ∧ isLossless portOn 0 (framePrio frame2) = false ∧
    (let e : EthPort := { level := [(0, 4194304)] }; rtpSize < rtpLevel e + frame2.bytes) ∧
    lossyLim portOn 0 < 4194240 + frame2.bytes ∧ portMtu s1 0 < 9300 ∧ frame2.etherType ≠ 0x88B5 ∧ acceptIf s1 { frame2 with dstIp := 8 } = none := by decide
theorem wit_connections : (connOf base 0 = some { fn := some 512 }) ∧ (connOf base 2 = some { fn := some 5, qid := 1, rdma := false }) ∧
    ({ rdma := false, hdgst := true } : Conn).hdgst = true ∧ ({ retries := 7 } : Conn).retries = 7 ∧
    ({ rdma := false, ackAt := some 5, rto := 1000000 } : Conn).ackAt = some 5 ∧ 5 + 67108864 ≤ base.now ∧
    ({ lastDrop := some 4999999999999 } : Conn).lastDrop = some 4999999999999 ∧
    base.now < 4999999999999 + getF base .tte 0 F.TTE_CC_CTRL_DEC_GAP * 1000 ∧
    (0 + max 1 (getF base .tte 0 F.TTE_CC_CTRL_INC_PERIOD) * 10000 ≤ base.now) := by decide
theorem wit_newConnections : findIf portOn 0 0 0xFFFF00000009 = some 2 ∧ portLive portOn 0 = true ∧ connOf portOn 44 = none ∧
    poolEmpty portOn 2 false false = false ∧ 1024 + 128 ≤ portMtu portOn 0 := by decide
theorem wit_tls : (let s := { base with tenants := [(5, { state := .active, psk := [(8, 1)] })] };
      pskKnown s { psk := 8, pskKe := true, pskDheKe := false, secp384r1 := false, aes128 := true, aes256 := false } = true ∧
      pskKnown s { psk := 8, pskKe := true, pskDheKe := false, secp384r1 := false, aes128 := false, aes256 := true } = false) ∧
    freeTslot base = some 1024 ∧ ({ slot := 1024, rxSeq := 2 ^ 64 - 1, txSeq := 0, rxGen := 0 } : Tls).rxSeq = 2 ^ 64 - 1 ∧
    mgetD { base with tslots := [(1024, 3)] }.tslots 1024 0 ≠ 0 ∧ mgetD base.tslots 1024 0 = 0 := by decide
theorem wit_cacheMaintenance : RegOpen base (.mf 0 0) (CacheId.page .mcc) 0 ∧ (cacheAt base .mcc).bad = [] ∧ getF base .mcc 0 F.CACHE_STAT_MAINT_BUSY = 0 ∧
    getF base .mcc 0 F.CACHE_STAT_DRAINING = 0 ∧ bitsOf 16 4 4 = 1 ∧ bitsOf 2 3 1 ≠ 4 ∧ bitsOf 2 31 16 = 0 ∧
    getF (setF base .mcc 0 F.CACHE_STAT_MAINT_BUSY 1) .mcc 0 F.CACHE_STAT_MAINT_BUSY = 1 ∧ (cacheAt base .mcc).held = none ∧
    cacheFind { lines := [(lineKey 3 2, ⟨7, true⟩)] } 3 7 = some 2 ∧ cacheFind { lines := [(lineKey 3 2, ⟨7, true⟩)] } 3 8 = none := by decide
theorem wit_cacheControl : (let s1 := storeCtrl base (.mf 0 0) .mcc 0 1;
      getF s1 .mcc 0 F.CACHE_CTRL_ENABLE = 1 ∧ getF s1 .mcc 0 F.CACHE_STAT_ENABLED = 0 ∧ getF s1 .mcc 0 F.CACHE_STAT_DRAINING = 0) ∧
    (let s0 := storeCtrl (setF base .mcc 0 F.CACHE_STAT_ENABLED 1) (.mf 0 0) .mcc 0 0;
      getF s0 .mcc 0 F.CACHE_CTRL_ENABLE = 0 ∧ getF s0 .mcc 0 F.CACHE_STAT_ENABLED = 1 ∧ getF s0 .mcc 0 F.CACHE_STAT_DRAINING = 0) ∧
    (let d := setF base .mcc 0 F.CACHE_STAT_DRAINING 1; let s1 := storeCtrl d (.mf 0 0) .mcc 0 1; let s0 := storeCtrl d (.mf 0 0) .mcc 0 0;
      getF s1 .mcc 0 F.CACHE_CTRL_ENABLE = 1 ∧ getF s1 .mcc 0 F.CACHE_STAT_DRAINING = 1 ∧
      getF s0 .mcc 0 F.CACHE_CTRL_ENABLE = 0 ∧ getF s0 .mcc 0 F.CACHE_STAT_DRAINING = 1) ∧
    (let t := addBad .mcc [] (setF base .mcc 0 F.CACHE_STAT_DRAINING 1);
      getF t .mcc 0 F.CACHE_STAT_DRAINING = 1 ∧ getF t .mcc 0 F.CACHE_STAT_MAINT_BUSY = 0) := by decide
/-- A client whose requests name pool 1, and one whose requests name pool 4. -/
def req1 : BasilReq := ⟨.tte 0, 4096, 1⟩
def req4 : BasilReq := ⟨.parity 0 0, 262144, 1⟩

theorem wit_transitBuffers : (eligible req1).find? (fun p => decide (0 < poolFree base p)) = some 1 ∧
    (let s := { base with basil := { base.basil with count := [(bufAt 0 0, 1)], used := [bufAt 0 0], stalled := [req1] } };
      mgetD s.basil.count (bufAt 0 0) 0 = 1 ∧ s.basil.used.contains (bufAt 0 0) = true ∧
      s.basil.stalled.find? (fun r => (eligible r).contains (bufAt 1 0 / 2 ^ 20)) = some req1 ∧
      s.basil.stalled.find? (fun r => (eligible r).contains (bufAt 0 0 / 2 ^ 20)) = none) := by decide
theorem wit_transitBuffers_stalled : ∀ p ∈ eligible req4,
    poolFree { base with basil := { base.basil with used := List.replicate (poolCount 4) (4 * 2 ^ 20) } } p = 0 := by
  intro p hp
  have : p = 4 := by revert hp; rw [show eligible req4 = [4] by decide]; simp
  subst this
  unfold poolFree
  rw [List.filter_replicate_of_pos (by decide), List.length_replicate, Nat.sub_self]
theorem wit_dram : (let s := setF base .drx 0 F.DRX_RETRAIN_ENABLE 1; getF s .drx 0 F.DRX_RETRAIN_ENABLE = 1 ∧ s.mode = .run ∧
      mgetD s.dram.pauses 0 0 < s.now / (max 8 (getF s .drx 0 F.DRX_RETRAIN_PERIOD_MS) * 1000000) + 1) ∧
    (let s := setF base .drc 0 F.DRC_RANK_STAT_RANK0 1; rankState s 0 = 1 ∧ reached s 0 0 = true ∧
      ((mgetD s.dram.ce 0 []).filter (fun t => s.now < t + ceWindow s)).length + 1 ≤ getF s .drx 0 F.DRX_SPARE_CTRL_CE_THR) ∧
    (let s := setF (setF base .drc 0 F.DRC_RANK_STAT_RANK0 1) .drx 0 F.DRX_SPARE_CTRL_CE_THR 0;
      let l := (mgetD [(0, [s.now])] 0 []).filter (fun t => s.now < t + ceWindow s);
      getF s .drx 0 F.DRX_SPARE_CTRL_CE_THR < 0 + 1 ∧ getF s .drx 0 F.DRX_SPARE_CTRL_CE_THR < l.length) ∧
    (let s := setF base .drx 0 F.DRX_SPARE_STATE 1; getF s .drx 0 F.DRX_SPARE_STATE = 1 ∧
      rankBytes s ≤ 2 * ({ s with now := 10 ^ 11 }.now - s.dram.copyAt)) := by decide
theorem wit_sealedMemories : getF base .sea 0 F.SEA_SCRUB_CTRL_PERIOD_H ≠ 0 ∧ 5 < sealedSize 1 ∧ sealedSize 1 ≤ sealedSize 1 + 63 ∧
    (winAt base 1 0).flips = 0 ∧ (winAt { base with windows := [(64, ⟨1, 1⟩), (65, ⟨1, 2⟩)] } 1 0).flips = 1 ∧
    2 ≤ (winAt { base with windows := [(64, ⟨1, 1⟩), (65, ⟨1, 2⟩)] } 1 1).flips := by decide

/-- A die set of eight flash dies with one open band for the stream of class 1. -/
def ds0 : DieSet := { mode := 1, parity := 0, owner := 0xFFFF, opPct := 7, streams := 1, flags := 0, laneMask := 255, streamMap := [], members := [0, 32, 64, 96, 128, 160, 192, 224], bandBlocks := 1, initSpare := [4, 4, 4, 4, 4, 4, 4, 4], spare := [4, 4, 4, 4, 4, 4, 4, 4] }
def band0 : Band := { dieSet := 0, stream := 0, bits := 1, rows := 100, groups := 0, members := (List.range 8).map (fun i => (i, i * 32, 5)) }
/-- `withNs` with the die set and its band. -/
def media (n : Ns) : State :=
  { withNs n with diesets := [(0, ds0)], bands := [(0, band0)], dies := (List.range 8).map (fun i => (i * 32, { st := .idle })) }
/-- A capsule of the I/O connection. -/
def capw : Capsule := cap 2 0

theorem wit_passes : Passes (media zns) (ioCmd (media zns) capw 5 9 zns .write 0 1 false [] []) ∧
    Passes (media cns) (ioCmd (media cns) capw 5 9 cns .write 0 1 false [] []) := by decide

/-- `zns` with its zone 0 in a state, with a write pointer. -/
def znsAt (st : ZState) (wp : Nat) : Ns := { zns with zones := [(0, { state := st, wp := wp, epoch := 3 })] }

/-- A tenant that asks for TLS and for authentication, a connection under that tenant's PSK, and one of the discovery service. -/
def connects : State :=
  { base with conns := [(0, { hello := some 8, tls := some { slot := 1024, rxSeq := 0, txSeq := 0, rxGen := 0 } }), (1, { disc := true })],
              tenants := [(5, { state := .active, par := { flags := 3, ioqGrant := 4, ifMask := 1, allow := [44] }, psk := [(8, 1)], secrets := [(44, 2)] })] }
def toTenant (qid : Nat) : ConnectData := ⟨5, 6, 44, 3, qid, 31, 1000⟩

theorem wit_connect : let s := connects; let d := toTenant 0; let t := tenant s 5
    (∃ c, connOf s 0 = some c ∧ c.ready = true ∧ c.fn = none ∧ c.disc = false ∧ c.tls.isSome = true ∧ c.hello = some 8 ∧ (ifAt s c.ifIdx).mgmt = false ∧
      t.par.ifMask / 2 ^ c.ifIdx % 2 = 1) ∧ PduGood s (cap 0 0) ∧ s.fwHold = none ∧ (∀ h ∈ s.held, h.1 ≠ 0) ∧ s.mode = .run ∧ s.plRun = none ∧
      s.pwr.entry = none ∧ (cap 0 0).reserved = false ∧ (cap 0 0).unknown = false ∧
      d.cntlid = d.subsys + 1 ∧ t.state = .active ∧ d.hostNqn ≠ 0 ∧ t.par.allow.contains d.hostNqn = true ∧
      (mget t.psk 8).isSome = true ∧ t.secrets.any (fun p => p.1 = d.hostNqn) = true ∧ d.qid = 0 ∧ d.sqsize = 31 ∧ (ctrl s d.subsys).assoc = none := by
  decide
/-- A controller with an association whose keep-alive timeout has passed. -/
def assoc0 : Assoc := { conn := some 1, hostNqn := 44, hostId := 3, kato := 1000, kaAt := 0, authStep := 0, authDone := false, lostAt := none }
theorem wit_connect_other : (∃ c, connOf connects 1 = some c ∧ c.disc = true ∧ c.ready = true ∧ c.fn = none) ∧
    connectCheck connects {} { toTenant 0 with hostNqn := 45 } = some stConnectHost ∧
    (let s := { connects with ctrls := [(5, { assoc := some assoc0 })] };
      (toTenant 4).qid ≤ (tenant s 5).par.ioqGrant ∧ mget (ctrl s 5).ioqs 4 = none ∧ ∃ a, (ctrl s 5).assoc = some a ∧ a.conn.isSome = true ∧ a.hostNqn = 44 ∧
        a.hostId = 3) := by decide
def withCtrl (k : Ctrl) : State := { base with ctrls := [(5, k)] }
theorem wit_connect_end : (connOf base 1 = some { fn := some 5 } ∧ base.mode = .run ∧ base.plRun = none ∧ base.pwr.entry = none ∧ base.fwHold = none ∧
    (cap 1 0).reserved = false ∧ authMissing base 5 = false) ∧
    (let s := withCtrl { assoc := some assoc0 }; (ctrl s 5).assoc = some assoc0 ∧ assoc0.kato ≠ 0 ∧ assoc0.since + assoc0.kato * 1000000 ≤ s.now) := by
  decide
theorem wit_properties : let q := cap 1 0
    Ready base { q with dw11 := 0x1C } 5 ∧ (Ready base { q with dw11 := 0x14, dw12 := 1 } 5 ∧ (ctrl (served base 5) 5).cc % 2 = 0) ∧
    (Ready base { q with dw11 := 0x14, dw12 := 0x4000 } 5 ∧ bitsOf 0x4000 15 14 = 1) ∧
    (Ready (withCtrl { cc := 1 }) { q with dw11 := 0x14 } 5 ∧ (ctrl (served (withCtrl { cc := 1 }) 5) 5).cc % 2 = 1) ∧
    (let t := withCtrl { resetting := true }; (ctrl t 5).resetting = true ∧ ∀ p ∈ t.cmds, p.2.fn ≠ 5) := by decide
theorem wit_authentication : (let s := { withCtrl { assoc := some assoc0 } with tenants := [(5, { state := .active, secrets := [(44, 2)] })] };
      AuthReady s (cap 1 0) 5 ∧ (ctrl (served s 5) 5).assoc = some { assoc0 with kaAt := s.now } ∧ hasSecret (served s 5) 5 = true) ∧
    [9, 2].find? ([1, 2, 3].contains ·) = some 2 ∧ [0].find? ([0, 1, 2, 3].contains ·) = some 0 ∧ [9].find? ([1, 2, 3].contains ·) = none ∧
    (∀ n ∈ [1, 2, 3, 9], AuthReady (withCtrl { assoc := some { assoc0 with authStep := n } }) (cap 1 0) 5) ∧
    (let a := { assoc0 with authStep := 4, authChallenge := some 7 }; AuthReady (withCtrl { assoc := some a }) (cap 1 0) 5 ∧
      a.authChallenge.isSome = true) := by decide
theorem wit_controllers : (Ready base (cap 1 0) 5 ∧ OnlyBits (cap 1 0) [0, 0, 0, 0, 0, 0]) ∧
    (let t := { base with conns := [(0, { fn := some 513, hostNqn := 44 })] }; let q := { cap 0 (0x70 + 255 * 65536) with len := 1024 };
      Ready t q 513 ∧ OnlyBits q logMasks ∧ logLid q = 0x70 ∧ logLen q = 1024 ∧ logOff q ≤ (discoveryPage (served t 513) 44).len) ∧
    (∀ fid ∈ [0x07, 0x0F, 0x81, 0x01, 0x0B], Ready base (cap 1 fid) 5 ∧
      OnlyBits (cap 1 fid) [0x800000FF, 0xFFFFFFFF, 0xFFFFFFFF, 0xFFFFFFFF, 0x7F, 0xFFFFFFFF] ∧
      OnlyBits (cap 1 fid) [0x7FF, 0xFFFFFFFF, 0, 0, 0x7F, 0] ∧ bitsOf (cap 1 fid).dw10 31 31 = 0 ∧ hostIdLen (cap 1 fid) ≤ (cap 1 fid).len) ∧
    (ctrl (served base 5) 5).aers.length < 4 ∧ (ctrl (served base 5) 5).events = [] ∧
    (ctrl (served (withCtrl { events := [3] }) 5) 5).events = 3 :: [] := by decide
theorem wit_ioReady_media : (∀ n ∈ [znsAt .empty 0, znsAt .implicit 9, znsAt .full 9, znsAt .readOnly 9, zns, cns], IoReady (media n) capw 5 9 n) ∧
    IoReady (media cns) { capw with dw11 := 4 } 5 9 cns ∧ IoReady (addBad .mcc [] (bumpBy (media zns) .bas 0 F.BAS_ECC_CORR 0)) capw 5 9 zns ∧
    IoReady (bumpBy (media zns) .bas 0 F.BAS_ECC_CORR 0) capw 5 9 zns ∧ IoReady (bumpBy (media cns) .bas 0 F.BAS_ECC_CORR 0) { capw with dw12 := 2 ^ 25 } 5 9 cns := by
  decide
theorem wit_zoneActions :
    (let n := znsAt .empty 0; Passes (media n) (ioCmd (media n) capw 5 9 n (.zmSend 3 false) 0 0 false [] [])) ∧
    (let n := znsAt .implicit 9; (zoneOf n 0).state.isOpen = true ∧
      Passes (media n) (ioCmd (media n) capw 5 9 n (.zmSend 1 false) 0 0 false [] [])) ∧
    (let n := znsAt .implicit 9; (zoneOf n 0).state ≠ .full ∧
      Passes (media n) (ioCmd (media n) capw 5 9 n (.zmSend 2 false) 0 0 false [] [])) ∧
    (let n := znsAt .full 9; (zoneOf n 0).state ≠ .empty ∧ (zoneOf n 0).epoch + 1 ≠ 0xFFFFFFFF ∧
      Passes (media n) (ioCmd (media n) capw 5 9 n (.zmSend 4 false) 0 0 false [] [])) ∧
    (let n := znsAt .readOnly 9; (zoneOf n 0).state = .readOnly ∧
      Passes (media n) (ioCmd (media n) capw 5 9 n (.zmSend 5 false) 0 0 false [] [])) ∧ bitsOf capw.dw13 8 8 = 0 := by decide
theorem wit_zoneActions_all : let q := { capw with dw13 := 256 }; let n := znsAt .implicit 9
    bitsOf q.dw13 8 8 = 1 ∧ IoReady (media n) q 5 9 n ∧ Passes (media n) (ioCmd (media n) q 5 9 n (.zmSend 1 true) 0 0 false [] []) := by decide
theorem wit_reads :
    (let s0 := addBad .mcc [] (bumpBy (media zns) .bas 0 F.BAS_ECC_CORR 0); Passes s0 (ioCmd s0 capw 5 9 zns .read 0 1 false [] [])) ∧
    (Passes (media cns) (ioCmd (media cns) capw 5 9 cns .flush 0 0 false [] [])) ∧
    (let q := { capw with nsid := 0xFFFFFFFF }; let s := media cns; IoServed s q 5 ∧ nsSlot s 5 q.nsid = none ∧
      Passes s { ioCmd s q 5 9 cns .flush 0 0 false [] [] with nsk := none, cls := 0 }) ∧
    (let q := { capw with dw11 := 4 }; cns.zoned = false ∧ bitsOf q.dw11 2 2 = 1 ∧
      Passes (media cns) (ioCmd (media cns) q 5 9 cns .dsm 0 0 false [] [(0, 8)])) ∧
    (bitsOf capw.dw11 2 2 = 0 ∧ Passes (media cns) (ioCmd (media cns) capw 5 9 cns .dsm 0 0 false [] [(0, 8)])) ∧
    (zns.zoned = true ∧ Passes (media zns) (ioCmd (media zns) capw 5 9 zns .zmRecv 0 0 false [] [])) := by decide
theorem wit_writes :
    (let s := bumpBy (media zns) .bas 0 F.BAS_ECC_CORR 0; IoReady s capw 5 9 zns ∧ Passes (media zns) (ioCmd (media zns) capw 5 9 zns .write 0 1 false [] []) ∧
      0 % zoneSize zns = (zoneOf zns 0).wp ∧ 0 % zoneSize zns + 1 ≤ zoneSize zns) ∧
    (let n := znsAt .implicit 9; Passes (media n) (ioCmd (media n) capw 5 9 n .write 0 1 false [] []) ∧ 0 % zoneSize n ≠ (zoneOf n 0).wp) ∧
    (let q := { capw with dw10 := zoneSize zns - 1, dw12 := 1 }; Passes (media zns) (ioCmd (media zns) q 5 9 zns .write (zoneSize zns - 1) 2 false [] []) ∧
      zoneSize zns < (zoneSize zns - 1) % zoneSize zns + 2) ∧
    (let s := bumpBy (media zns) .bas 0 F.BAS_ECC_CORR 0; bitsOf capw.dw12 25 25 = 0 ∧
      Passes s (ioCmd s capw 5 9 zns (.writeZeroes false) 0 1 false [] [])) ∧
    (Passes (media cns) (ioCmd (media cns) capw 5 9 cns .write 0 1 false [] [])) ∧
    (let s := bumpBy (media cns) .bas 0 F.BAS_ECC_CORR 0; let q := { capw with dw12 := 2 ^ 25 }; bitsOf q.dw12 25 25 = 1 ∧
      Passes s (ioCmd s q 5 9 cns (.writeZeroes true) 0 1 false [] [])) ∧
    (let s := bumpBy (media zns) .bas 0 F.BAS_ECC_CORR 0; Passes s (ioCmd s capw 5 9 zns .append 0 1 false [] [])) := by decide
/-- A capsule that asks for the first 512 bytes of a log page. -/
def log (conn lid : Nat) : Capsule := cap conn (lid + 127 * 65536)
theorem wit_logPages : let m := log 0 0xE0; let q := log 1 0xC0
    (Ready base m fnMF ∧ OnlyBits m logMasks ∧ bitsOf m.dw10 7 0 = 0xE0 ∧ (bitsOf m.dw10 31 16 + bitsOf m.dw11 15 0 * 65536 + 1) * 4 = 512 ∧ m.len = 1048576) ∧
    (Ready base q 5 ∧ OnlyBits q logMasks ∧ bitsOf q.dw10 7 0 = 0xC0 ∧ bitsOf q.dw10 15 15 = 0) ∧
    (∀ lid ∈ [0xC1, 0xC1 + 256, 0x02, 0x81, 0x01, 0x04, 0x05, 0xBF], Ready base (log 1 lid) 5 ∧ OnlyBits (log 1 lid) logMasks) ∧
    bitsOf (log 1 (0xC1 + 256)).dw10 14 8 = 1 ∧ OnlyBits { log 1 0xC1 with dw11 := 65536 } logMasks ∧ bitsOf 65536 31 16 = 1 ∧
    (Ready base (log 0 0x03) fnMF ∧ OnlyBits (log 0 0x03) logMasks) ∧ logHas 5 0x05 = true ∧
    (let s := withNs zns; Ready s (log 1 0xBF) 5 ∧ nsSlot (served s 5) 5 1 = some 9 ∧ nsAt (served s 5) 9 = some zns ∧ nsChecks (served s 5) 5 1 = none) := by
  decide

theorem wit_adminService : let q := { cap 1 0x1C with len := 4096 }
    (Ready base q 5 ∧ OnlyBits q [0xFFFF00FF, 0xFF00FFFF, 0, 0, 0x7F, 0] ∧ q.dw10 = 0x1C ∧ 4096 ≤ q.len) ∧
    (nsSlot (served (withNs zns) 5) 5 q.nsid = some 9 ∧ nsAt (served (withNs zns) 5) 9 = some zns ∧ nsChecks (served (withNs zns) 5) 5 q.nsid = none) ∧
    (let c : Cmd := { ioCmd base capw 5 9 cns .flush 0 0 false [] [] with phase := .ready }; let t := { base with cmds := [(0, c)] };
      let cn : Conn := { fn := some 5, qid := 1, rdma := false }; t.plRun = none ∧
      t.cmds.find? (fun p => p.2.conn = c.conn && p.2.cid = c.cid && p.2.phase = .ready) = some (0, c) ∧ connOf t c.conn = some cn ∧
      cn.tls = none) := by decide
theorem wit_abort : (let q := cap 1 7; OnlyBits q [0xFFFFFFFF, 0, 0, 0, 0, 0] ∧ bitsOf q.dw10 15 0 ≠ 0 ∧ (mget (ctrl (served base 5) 5).ioqs 7) = none ∧
      ((served base 5).cmds.filter (fun c => c.2.fn = 5 && c.2.op = .abort)).length < 4) ∧
    (let s := { base with ctrls := [(5, { aers := [(1, 9)] })] }; let q := cap 1 (9 * 65536); Ready s q 5 ∧ bitsOf q.dw10 15 0 = 0 ∧
      (ctrl (served s 5) 5).aers.find? (fun a => a.2 = bitsOf q.dw10 31 16) = some (1, 9)) ∧
    (let c := ioCmd base capw 5 9 cns .flush 0 0 false [] []; let s := { base with ctrls := [(5, { ioqs := [(7, 2)] })], cmds := [(0, c), (1, { c with cid := 8, phase := .dispatched })] };
      ((mget (ctrl s 5).ioqs 7).bind (fun id => s.cmds.find? (fun c => c.2.conn = id && c.2.cid = 7))) = some (0, c) ∧ c.past = false ∧
      ({ c with phase := .dispatched } : Cmd).past = true) := by decide
theorem wit_maintenance : (let s := withNs cns; let q := cap 1 0; Ready s q 5 ∧ OnlyBits q [0x3FFF, 0, 0, 0, 0, 0] ∧ formatChk q 5 (served s 5) = none ∧
      nsSlot (served s 5) 5 q.nsid = some 9) ∧
    (let q := cap 1 4; Ready base q 5 ∧ OnlyBits q [0x7FF, 0xFFFFFFFF, 0, 0, 0, 0] ∧ sanitizeChk q 4 5 (served base 5) = none) ∧
    (let q := cap 1 1; Ready base q 5 ∧ sanitizeChk q 1 5 (served base 5) = none) ∧ Ready base (cap 0 2) fnMF ∧
    OnlyBits (cap 0 2) [0xFFFFFFFF, 0, 0, 0, 0, 0] := by decide
theorem wit_maintenance_mf : (let q := { cap 0 8191 with dw11 := 1 }; Ready base q fnMF ∧ OnlyBits q [0x1FFF, 0x3FFF, 1, 0, 0, 0] ∧ bitsOf q.dw10 12 0 + bitsOf q.dw11 13 0 = 8192 ∧
      64 + 64 * bitsOf q.dw11 13 0 ≤ q.len) ∧
    Ready base (cap 0 1) fnMF ∧ OnlyBits (cap 0 1) [1, 0, 0, 0, 0, 0] ∧
    (let s := { base with fwHold := some ⟨0, true, 1, [], none, 0, 3, 0, 9⟩ }; Ready { s with fwHold := none } (cap 0 0) fnMF ∧ s.fwHold.isSome = true) := by
  decide
theorem wit_maintenance_faultLog : (let e : FaultEntry := ⟨0, 0, 0, 0, 0, 0, 0, 0, 0, 0⟩; let s := { base with flog := { base.flog with queue := [e] } };
      s.flog.queue = e :: [] ∧ s.flog.log.length < 8192 ∧ 8192 ≤ (List.replicate 8192 e).length) :=
  ⟨rfl, by decide, by rw [List.length_replicate]⟩

/-- A good Tenant block of R210: one queue, one namespace, 32 credits, metering enabled. -/
def tblock : Block := [(0, 4), (2, 1), (4, 1), (0x18, 32)]
/-- A good block of a zoned namespace with one zone of 65,536 sectors. -/
def nblock : Block := [(0, 2), (4, 1), (0x12, 1)]
/-- A good block of a die set of eight dies. -/
def dblock : Block := [(0, 1), (2, 0xFF), (3, 0xFF), (4, 8), (5, 7), (6, 1), (8, 0xFF)]

theorem wit_tenants : let q := cap 0 6
    (Ready base q fnMF ∧ OnlyBits q [0x1FF, 0, 0, 0, 0, 0] ∧ (tenant (served base fnMF) 6).state = .free ∧ 4096 ≤ q.len ∧
      tenantBlockBad (served base fnMF) 6 tblock false = none) ∧
    (let s := { base with tenants := [(6, { state := .active, par := tenantPar tblock })] }; let s1 := served s fnMF; let x := tenant s1 6;
      Ready s q fnMF ∧ x.state ≠ .free ∧ tenantBlockBad s1 6 tblock true = none ∧ needsQuiesce x.par (tenantPar tblock) = false ∧ x.quiesced = false) ∧
    (let s := { base with tenants := [(6, { state := .active, par := { tenantPar tblock with ioqGrant := 5 } })] }; let s1 := served s fnMF;
      needsQuiesce (tenant s1 6).par (tenantPar tblock) = true ∧ tenantBlockBad s1 6 tblock true = none) ∧
    (let s := { base with tenants := [(6, { state := .quiesced, quiesced := true })] }; let s1 := served s fnMF; let x := tenant s1 6;
      Ready s q fnMF ∧ x.state = .quiesced ∧ x.quiesced = true ∧ (migOf s1 6).logs = false) ∧
    (let u := { base with tenants := [(5, { state := .quiescing, drain := [3] })] };
      (tenant u 5).state = .quiescing ∧ cmdsGone u (tenant u 5).drain = true ∧ tenantWaits u 5 = false) := by decide

/-- A credential blob of R473 for tenant 6 up to its ciphertext: kind 1, hash 1, an identity of one byte, a secret of length 0. -/
def credHead : List Nat := [1, 1, 6, 0, 1, 0, 0, 0] ++ List.replicate 24 0 ++ [65] ++ List.replicate 319 0

theorem fitBytes_append (a l : List Nat) : fitBytes (a.length + l.length) (a ++ l) = fitBytes a.length a ++ fitBytes l.length l := by
  unfold fitBytes
  rw [List.range_add, List.map_append, List.map_map]
  congr 1
  · exact List.map_congr_left (fun i hi => by rw [List.getD_append _ _ _ _ (List.mem_range.mp hi)])
  · refine List.map_congr_left (fun i _ => ?_)
    show (a ++ l).getD (a.length + i) 0 % 256 = _
    rw [List.getD_append_right _ _ _ _ (Nat.le_add_right ..), Nat.add_sub_cancel_left]
theorem fitBytes_bytes (l : List Nat) (h : ∀ x ∈ l, x < 256) : fitBytes l.length l = l := by
  refine List.ext_getElem (by simp [fitBytes]) (fun i h1 h2 => ?_)
  simp [fitBytes, h2, Nat.mod_eq_of_lt (h _ (List.getElem_mem h2))]
/-- A blob that opens: the head under the tag that the key gives it. -/
theorem wit_credential (key : List Nat) : ∃ data, let b := fitBytes 368 data
    (∃ sec, credOpen key b = some sec ∧ putCred [] b sec = some []) ∧ credTenant b = 6 ∧ credKind b = 1 ∧ credOk b = true := by
  let tag := gcmTag key (List.replicate 12 0) (pkgBytes credHead 0 0x120) (pkgBytes credHead 0x120 64)
  have hb : fitBytes 368 (credHead ++ tag) = credHead ++ tag := by
    have h := fitBytes_append credHead tag
    rw [fitBytes_bytes tag (fun _ => gcmTag_lt), gcmTag_length, show fitBytes credHead.length credHead = credHead by decide] at h
    exact h
  have hp (o n : Nat) (h : o + n ≤ 352) : pkgBytes (credHead ++ tag) o n = pkgBytes credHead o n := by
    have hl : credHead.length = 352 := by decide
    simp only [pkgBytes]
    rw [List.drop_append_of_le_length (by omega), List.take_append_of_le_length (by simp; omega)]
  have ht : pkgBytes (credHead ++ tag) 0x160 16 = tag := by
    have hl : credHead.length = 352 := by decide
    simp only [pkgBytes]
    rw [← hl, List.drop_left, List.take_of_length_le (by rw [gcmTag_length])]
  have hf (o n : Nat) (h : o + n ≤ 352) : pkgField (credHead ++ tag) o n = pkgField credHead o n := congrArg ofLe (hp o n h)
  have hiv : credIv (credHead ++ tag) = List.replicate 12 0 := by rw [credIv, hp _ _ (by omega)]; decide
  refine ⟨credHead ++ tag, ?_⟩
  simp only [hb]
  refine ⟨⟨_, if_pos ?_, ?_⟩, ?_, ?_, ?_⟩
  · rw [ht, hiv, hp _ _ (by omega), hp _ _ (by omega)]
  · rw [putCred, if_pos (by rw [credSecretLen, hf _ _ (by omega)]; decide)]; rfl
  · rw [credTenant, hf _ _ (by omega)]; decide
  · rw [credKind, hf _ _ (by omega)]; decide
  · have hi : credIdLen (credHead ++ tag) = 1 := by rw [credIdLen, hf _ _ (by omega)]; decide
    simp only [credOk, hi, credKind, credHash, credSecretLen, hf _ _ (show 0 + 1 ≤ 352 by omega), hf _ _ (show 1 + 1 ≤ 352 by omega),
      hf _ _ (show 6 + 2 ≤ 352 by omega), hp _ _ (show 0x14 + 12 ≤ 352 by omega), hp _ _ (show 0x20 + 1 + (256 - 1) ≤ 352 by omega)]
    decide

/-- `media` without bands, in a die set that has room for another namespace of tenant 5. -/
def roomy : State := setF { media cns with bands := [], diesets := [(0, { ds0 with bandBlocks := 1000 })], tenants := [(5, { state := .active, par := { ioqGrant := 4, maxNs := 4, credits := 64, maxClass := 2, openZones := 8, activeZones := 8, mapMib := 64 } })] } .til 0 F.TIL_GEOM1_WL 300
theorem wit_namespaces : let q := cap 0 5; let s1 := served roomy fnMF
    Ready roomy q fnMF ∧ OnlyBits q [0x1FF, 0, 0, 0, 0, 0] ∧ (tenant s1 5).state ≠ .free ∧ 256 ≤ q.len ∧ nsBlockBad s1 5 nblock = none ∧ freeNsSlot s1 = some 0 := by decide
theorem wit_dieSets : let s := { media cns with diesets := [], bands := [], nss := [] }; let s1 := served s fnMF
    (let ms := chooseMembers ((presentDies s1).filter (dieFree s1)) (maskLanes (blkField dblock 8 8)) (blkField dblock 4 1) (blkField dblock 4 1);
      Ready s (cap 0 3) fnMF ∧ OnlyBits (cap 0 3) [0x7F, 0, 0, 0, 0, 0] ∧ dsAt s1 3 = none ∧ dsBlockBad s1 dblock ms = none) ∧
    (let s := { media cns with nss := [], bands := [] }; let s1 := served s fnMF; Ready s (cap 0 0) fnMF ∧ OnlyBits (cap 0 0) [0xFF, 0, 0, 0, 0, 0] ∧ bitsOf (cap 0 0).dw10 7 7 = 0 ∧ 4096 ≤ (cap 0 0).len ∧
      dsAt s1 0 = some ds0 ∧ s1.nss = []) ∧
    (let s := media cns; let s1 := served s fnMF; let q := { cap 0 5 with dw11 := 1 };
      Ready s q fnMF ∧ OnlyBits q [0x1FF, 0x1F, 0, 0, 0, 0] ∧ (tenant s1 q.dw10).state ≠ .free ∧ nsSlot s1 q.dw10 q.dw11 = some 9 ∧ nsCmds s1 9 = [] ∧
      (∀ w ∈ s1.adminWaits, w.2.2 ≠ .format 9) ∧ (migOf s1 q.dw10).logs = false) ∧
    (let u := { base with tenants := [(5, { state := .resetting, cmd := some (0, 3) }), (6, { state := .removing, removeStep := 2, cmd := some (0, 3) })] };
      (tenant u 5).state = .resetting ∧ (tenant u 5).endHeld = false ∧ (tenant u 5).cmd = some (0, 3) ∧ (tenant u 6).state = .removing ∧
      (tenant u 6).removeStep = 2 ∧ (tenant u 6).cmd = some (0, 3)) := by decide
theorem wit_attestation : (Ready base (cap 1 0) 5 ∧ OnlyBits (cap 1 0) secMasks) ∧
    (let r : SecResp := ⟨0, 0, 0, [], true, 0⟩; let s := { base with secs := [(10, r), (11, r)] };
      Ready s (cap 1 (0xE8 * 2 ^ 24)) 5 ∧ mget (served s 5).secs (5 * 2) = some r ∧ mget (served s 5).secs (5 * 2 + 1) = some r ∧ r.due ≤ (served s 5).now) ∧
    (let q := { cap 1 (0xE8 * 2 ^ 24) with len := 4096 }; Ready base q 5 ∧ OnlyBits q secMasks ∧ q.dw11 ≤ 2097152 ∧ q.len ≤ 4096) ∧
    measIdx.contains 1 = true := by decide
/-- A request of tenant 5 to the part in a state, under the MAC that its key gives it. -/
def kaHdr (op ctr : Nat) (body : List Nat) : KaHdr := ⟨ctr, hmac384 (kCmd 5 ⟨[4], 2, 3⟩) (kaHead op 0 ctr body)⟩
def qka : Capsule := cap 1 (0xF0 * 2 ^ 24)
theorem kaAccepts_of {s : State} {op ctr : Nat} {body : List Nat} (h : Ready s qka 5) (he : enrollOf s 5 = some ⟨[4], 2, 3⟩) (hc : 3 < ctr % 2 ^ 64) :
    KaAccepts s qka 5 op (kaHdr op ctr body) body ⟨[4], 2, 3⟩ := ⟨h, by decide, by decide, by decide, by decide, by decide, he, rfl, hc⟩
theorem wit_keyAgreement : let s : State := { media cns with nsKeys := [] }
    KaAccepts s qka 5 3 (kaHdr 3 9 []) [] ⟨[4], 2, 3⟩ ∧ KaAccepts s qka 5 2 (kaHdr 2 9 (leBytes 4 1)) (leBytes 4 1) ⟨[4], 2, 3⟩ ∧
    (∀ h, let s1 := kaTaken s qka 5 h ⟨[4], 2, 3⟩; nsSlot s1 5 1 = some 9 ∧ (migOf s1 5).state = .idle ∧ (nsAt s1 9).any (·.erase.isSome) = false ∧
      slotState s1 9 = 1) := by
  refine ⟨kaAccepts_of (by decide) (by decide) (by decide), kaAccepts_of (by decide) (by decide) (by decide), fun h => ?_⟩
  exact ⟨rfl, rfl, rfl, rfl⟩
theorem wit_enroll : (let s := { base with tenants := [(5, { state := .active })] }; Ready s qka 5 ∧ enrollOf s 5 = none) ∧
    (ecPoint (4 :: beBytes 48 ecG.x ++ beBytes 48 ecG.y)).isSome = true :=
  ⟨by decide, by decide +kernel⟩
theorem wit_cryptoErase : (let n := { cns with erase := some .format, eraseWait := [3] }; let s := withNs n;
      nsAt s 9 = some n ∧ n.erase.isSome = true ∧ n.eraseDone = false ∧ ∀ i ∈ n.eraseWait, mget s.cmds i = none) ∧
    (let n := { cns with erase := some .format, eraseDone := true }; nsAt (withNs n) 9 = some n ∧ n.eraseDone = true) := by decide
/-- A sector of namespace 1 of key slot 9 that opens under the key 77. -/
def sealed0 : Sector := ⟨9, 0, 1, 0, false, 0, 1, 0, 0, 0, 12, 0⟩
def sector0 : Sector := { sealed0 with tag := sealed0.tagOf 77 1 }
/-- A read that has the ciphertext of its first sector. -/
def reads0 : Cmd := { ioCmd base capw 5 9 zns .read 0 1 false [] [] with phase := .dispatched, plain := [(0, sector0)] }

theorem wit_cipherJobs : (let free := (coresOk base).filter (fun c => (coreAt base c).job.isNone);
      free.find? (fun c => (coreAt base c).cache.contains 40) = none ∧ free.head? = some 0) ∧
    (let s := { base with cores := [(3, { cache := [40] })] }; let free := (coresOk s).filter (fun c => (coreAt s c).job.isNone);
      free.find? (fun c => (coreAt s c).cache.contains 40) = some 3) := by decide
theorem wit_cipherJobs_sector : let s := { withNs zns with cmds := [(4, reads0)] }; let j : CJob := { what := .dec 4 0, addr := 9, cls := reads0.cls, blocks := 256 }
    s.cmds.find? (fun q => q.2.conn = 2 && q.2.cid = 7 && (mget q.2.plain 0).isSome) = some (4, reads0) ∧
    ((allJobs s).all (fun j => j.what ≠ .dec 4 0) = true ∧ reads0.nsk.getD 0 = j.addr) ∧
    (let t := { s with cores := [(3, { job := some (j, 5) })] }; (coreAt t 3).job = some (j, 5)) ∧
    mget s.cmds 4 = some reads0 ∧ mget reads0.plain 0 = some sector0 ∧ mget s.nsKeys 9 = some 77 ∧
    sector0.opened 77 ((nsAt s 9).elim 0 (·.nsid)) = some (sector0.crypt 77 sector0.ct) :=
  ⟨rfl, by decide, rfl, rfl, rfl, rfl, if_pos rfl⟩

/-- `media cns` with a migration of tenant 5, and a pool large enough for its log. -/
def moving (m : Mig) : State :=
  { media cns with migs := [(5, m)], tenants := [(5, { state := .active, par := { maxNs := 4, mapMib := 64 }, enroll := some ⟨[4], 2, 3⟩ })] }
theorem moving_ready (m : Mig) : Ready (moving m) qka 5 :=
  ⟨rfl, rfl, rfl, ⟨rfl, rfl, rfl⟩, ⟨by decide, _, rfl, .inl rfl⟩, rfl, rfl, rfl, rfl, by decide, by with_unfolding_all rfl, rfl⟩
/-- Whatever the operands of a request, its MAC makes it accepted. -/
theorem moving_accepts (m : Mig) (op : Nat) (body : List Nat) : KaAccepts (moving m) qka 5 op (kaHdr op 9 body) body ⟨[4], 2, 3⟩ :=
  kaAccepts_of (moving_ready m) rfl (by decide)

theorem wit_migrationSource (h : KaHdr) : (let s1 := kaTaken (moving {}) qka 5 h ⟨[4], 2, 3⟩;
      (migOf s1 5).state = .idle ∧ maskNamed s1 5 1 = true ∧ mapHeld s1 5 + logMib s1 5 1 ≤ (tenant s1 5).par.mapMib) ∧
    (let s1 := kaTaken (moving { state := .copying, mask := 1 }) qka 5 h ⟨[4], 2, 3⟩;
      (migOf s1 5).state.logging = true ∧ (migOf s1 5).state = .copying ∧ migTarget s1 5 1 = .inr (9, cns) ∧ (migOf s1 5).state.abortable = true) :=
  ⟨⟨rfl, rfl, Nat.le_of_ble_eq_true rfl⟩, rfl, rfl, by with_unfolding_all rfl, rfl⟩
theorem wit_migrationSource_zoned (h : KaHdr) : let s := { moving { state := .copying, mask := 1 } with nss := [(9, zns)] }
    KaAccepts s qka 5 0x14 (kaHdr 0x14 9 []) [] ⟨[4], 2, 3⟩ ∧ migTarget (kaTaken s qka 5 h ⟨[4], 2, 3⟩) 5 1 = .inr (9, zns) ∧ zns.zoned = true :=
  ⟨kaAccepts_of (by decide) (by decide) (by decide), by with_unfolding_all rfl, rfl⟩
theorem wit_migrationSource_end : (let s := moving { state := .copying }; Ready s (cap 0 5) fnMF ∧ OnlyBits (cap 0 5) [tenantMask, 0, 0, 0, 0, 0] ∧
      (tenant (served s fnMF) 5).state ≠ .free ∧ (migOf (served s fnMF) 5).state.abortable = true) ∧
    (let s := moving { state := .frozen, draining := true, waitFor := [4] };
      (migOf s 5).state = .frozen ∧ (migOf s 5).draining = true ∧ ∀ i ∈ (migOf s 5).waitFor, mget s.cmds i = none) := by decide
/-- The token of R520 of another part's tenant 1: its serial number, no namespaces, a point of the curve, a signature, a chain. -/
def token (serial : Nat) (sig chain : List Nat) : List Nat :=
  leBytes 16 serial ++ [1, 0, 0, 0] ++ leBytes 4 chain.length ++ (4 :: beBytes 48 ecG.x ++ beBytes 48 ecG.y) ++ [0, 0, 0] ++ sig ++ chain
theorem wit_migrationSource_frozen (h : KaHdr) (serial : Nat) (sig chain key : List Nat)
    (hc : Config.certifies (tokChain (token serial sig chain)) = some (tokSerial (token serial sig chain), key))
    (hs : tokSerial (token serial sig chain) ≠ Config.serial % 2 ^ 128)
    (hv : ecdsaVerify key (tokSig (token serial sig chain)) (importSigned (tokSerial (token serial sig chain)) (tokTenant (token serial sig chain))
      (tokMask (token serial sig chain)) (tokEpk (token serial sig chain))) = true) :
    (let s1 := kaTaken (moving { state := .frozen }) qka 5 h ⟨[4], 2, 3⟩;
      (migOf s1 5).state = .frozen ∧ (migOf s1 5).draining = false ∧ tokenOk (migOf s1 5) (token serial sig chain) = true) ∧
    (ecPoint (tokEpk (token serial sig chain))).isSome = true := by
  refine ⟨⟨rfl, rfl, ?_⟩, ?_⟩
  · have hm : tokMask (token serial sig chain) = 0 := rfl
    rw [hm] at hv
    simp only [tokenOk, hc, hm]
    rw [hv, show (migOf (kaTaken (moving { state := .frozen }) qka 5 h ⟨[4], 2, 3⟩) 5).mask = 0 from rfl]
    simpa using hs
  · exact (by decide +kernel : (ecPoint (4 :: beBytes 48 ecG.x ++ beBytes 48 ecG.y)).isSome = true)
theorem wit_migrationDestination (h : KaHdr) : (let s1 := kaTaken { moving {} with nsKeys := [] } qka 5 h ⟨[4], 2, 3⟩;
      (migOf s1 5).state = .idle ∧ maskNamed s1 5 1 = true ∧ (maskIds 1).all (importable s1 5) = true ∧ getF s1 .dbg 0 F.DBG_TOKEN_SINCE_POR ≠ 1) ∧
    (let s1 := kaTaken (moving { state := .importing, mask := 1 }) qka 5 h ⟨[4], 2, 3⟩;
      (migOf s1 5).state = .importing ∧ migTarget s1 5 1 = .inr (9, cns)) :=
  ⟨⟨rfl, rfl, rfl, by with_unfolding_all exact Nat.ne_of_beq_eq_false rfl⟩, rfl, by with_unfolding_all rfl⟩
theorem wit_migrationDestination_accepts : KaAccepts { moving {} with nsKeys := [] } qka 5 0x18 (kaHdr 0x18 9 [1, 0, 0, 0]) (leBytes 2 1 ++ [0, 0]) ⟨[4], 2, 3⟩ :=
  kaAccepts_of (by decide) (by decide) (by decide)

/-- A flash operation of die 0. -/
def op0 (k : FlashKind) (w : Owner) : FlashOp := { kind := k, die := 0, pua := 0, owner := w, cls := 1, deadline := 0 }
/-- The part with die 0 in a state. -/
def die0 (x : Die) : State := { base with dies := [(0, x)] }

theorem wit_cirrus : (let s := { die0 { st := .idle } with feeds := [op0 .erase (.erase 0 3)] };
      nextFeed s 0 = some (op0 .erase (.erase 0 3)) ∧ (dieAt s 0).queue.length < 256) ∧
    (let s := die0 { st := .prog, queue := [{ op0 .read (.climb 0) with cls := 0 }] };
      ((dieAt s 0).queue.filter (fun o => bulkSusp s o && !o.susp)).length ≠ 0) ∧
    (let s := die0 { st := .idle }; (dieAt s 0).winAt + max 1 (getF s .qeng 0 F.QENG_BG_CTRL_BG_WIN_MS) * 1000000 ≤ s.now) ∧
    (let s := die0 { st := .prog, cur := some (op0 .program (.prog 0 0 0)), suspSent := true };
      (dieAt s 0).cur = some (op0 .program (.prog 0 0 0)) ∧ (dieAt s 0).suspSent = true) ∧
    (let s := die0 { st := .erase, cur := some (op0 .erase (.erase 0 3)), suspSent := true };
      (dieAt s 0).cur = some (op0 .erase (.erase 0 3)) ∧ (dieAt s 0).suspSent = true) := by decide
theorem wit_cirrus_full : let x : Die := { st := .prog, queue := List.replicate 256 (op0 .read (.climb 0)) }
    nextFeed { die0 x with feeds := [op0 .read (.climb 0)] } 0 = some (op0 .read (.climb 0)) ∧ 256 ≤ x.queue.length ∧ (op0 .read (.climb 0)).stalled = false := by
  refine ⟨by decide, ?_, rfl⟩
  rw [List.length_replicate]
theorem wit_lanes : (let s := { die0 { st := .idle, descs := [op0 .read (.climb 0)] } with nims := [(0, { state := .up }), (1, { state := .retrain })] };
      (dieAt s 0).descs = op0 .read (.climb 0) :: [] ∧ linkCarries s 0 = true ∧ resultsWait s 0 = false ∧ resultsWait s 512 = true) ∧
    (let s := die0 { st := .read, cur := some (op0 .read (.climb 7)) };
      (dieAt s 0).cur = some (op0 .read (.climb 7)) ∧ (op0 .read (.climb 7)).kind = .read) ∧
    (let s := die0 { st := .prog, cur := some (op0 .program (.prog 0 0 0)) }; (dieAt s 0).cur = some (op0 .program (.prog 0 0 0))) ∧
    (let s := die0 { st := .erase, cur := some (op0 .erase (.erase 0 3)) };
      (dieAt s 0).cur = some (op0 .erase (.erase 0 3)) ∧ (dieAt s 0).resetAt = none ∧ timedOut s 0 = true) ∧
    (let s := die0 { st := .idle, resetAt := some 3 }; (dieAt s 0).resetAt = some 3 ∧ 3 + 10000000 ≤ s.now) := by decide
theorem wit_lanes_calibrate : let s := setF { base with lanes := [(2, { trained := true })] } .lan 2 F.LAN_CE_POP_CE 9
    laneInService s 2 = true ∧ (mgetD s.lanes 2 {}).zqAt + 128000000 ≤ s.now ∧ 3 ∈ cePop s 2 ∧ mget (mgetD s.lanes 2 {}).trainedAtC 3 = none := by
  decide

def env0 : ThymeEnv := ⟨false, false, false, false, 0, 0, 0⟩
/-- A sequencer at word 0 of patch RAM, which holds `w`. -/
def atPatch (w : BitVec 128) : State := { base with thyme := [(0, { pc := 16384, running := true, ready := true })], patch := [(0, w)] }
theorem foldl_stays {α : Type} (f : State → α → State) (s : State) (h : ∀ a, f s a = s) : ∀ l : List α, l.foldl f s = s
  | [] => rfl
  | a :: l => by rw [List.foldl_cons, h, foldl_stays f s h l]
theorem atPatch_waiting (w : BitVec 128) (d : Nat) : (thymeOf (atPatch w) d).waiting = false := by
  rcases d with _ | d
  · rfl
  · rfl
theorem atPatch_granted (w : BitVec 128) : laneGranted (atPatch w) 0 env0 = atPatch w := by
  have h1 : ∀ d, thymeStart (atPatch w) d = atPatch w := fun d => rfl
  have h2 : ∀ d, (fun s d => thymeWake s 0 d env0) (atPatch w) d = atPatch w := by
    intro d
    simp only [thymeWake, atPatch_waiting, Bool.false_and, Bool.false_eq_true, if_false]
  have h3 : runningCtx (atPatch w) 0 = some 0 := by
    have e : runningCtx (atPatch w) 0 = runningCtx (atPatch 0) 0 := rfl
    rw [e]
    decide
  unfold laneGranted
  rw [foldl_stays _ _ h1]
  simp only
  rw [foldl_stays _ _ h2]
  unfold thymeGrant
  rw [h3]
theorem wit_sequencers : ∀ w ∈ [(0 : BitVec 128), BitVec.ofNat 128 (5 * 2 ^ 110)],
    laneGranted (atPatch w) 0 env0 = atPatch w ∧ runningCtx (atPatch w) 0 = some 0 ∧ (thymeOf (atPatch w) 0).waiting = false ∧
      fetchWord (atPatch w) (thymeOf (atPatch w) 0).pc = w ∧ uw w 89 89 = 0 ∧ (uw w 112 110 = 0 ∨ uw w 112 110 = 5) := by
  intro w hw
  have e : runningCtx (atPatch w) 0 = runningCtx (atPatch 0) 0 := rfl
  refine ⟨atPatch_granted w, e.trans (by decide), rfl, by simp [fetchWord, atPatch, thymeOf, mgetD, mget], ?_⟩
  revert w
  simp only [List.mem_cons, List.not_mem_nil, or_false]
  rintro w (rfl | rfl)
  · exact fun _ => ⟨by decide, .inl (by decide)⟩
  · exact fun _ => ⟨by decide, .inr (by decide)⟩
theorem wit_diagnosticReads : (let s := { base with lanes := [(2, { diag := some 3, diagRead := true })] };
      (mgetD s.lanes 2 {}).diag = some 3 ∧ (mgetD s.lanes 2 {}).diagRead = true ∧ (0 : Nat) ≤ getF s .sig 0 F.SIG_DET_CTRL_ERASED_THR ∧
      getF s .sig 0 F.SIG_DET_CTRL_ERASED_THR < 40000) ∧
    (let s := { base with lanes := [(2, { diag := some 3, diagRead := false })] }; (mgetD s.lanes 2 {}).diag = some 3 ∧
      (mgetD s.lanes 2 {}).diagRead = false ∧ 3 + 100000000 ≤ s.now) := by decide

/-- A climb with its codeword in the decoder. -/
def climb0 (step : Nat) : Climb :=
  { pua := 0, sub := 0, cls := 1, deadline := 0, susp := false, step := step, readers := [], decoding := true, det := 3 * 65536, dec := 512, refined := [4] }
theorem wit_decoding : (let s := { base with climbs := [(4, climb0 1), (5, climb0 2), (6, climb0 4), (7, { climb0 1 with readers := [.host 0 0] })] };
      mget s.climbs 4 = some (climb0 1) ∧ (climb0 1).decoding = true ∧ (climb0 1).step ≤ 3 ∧ 3 ≤ (climb0 1).erasedThr ∧ (climb0 1).erasedThr < 4 ∧
      (climb0 1).readers.all (verifies s (climbWord s (climb0 1))) = true ∧ [Reader.host 0 0].all (verifies s (climbWord s (climb0 1))) = false ∧
      resultsWait s (puaDie 0) = false ∧ resultsWait { s with nims := [(0, { state := .retrain })] } (puaDie 0) = true ∧
      mget s.climbs 6 = some (climb0 4) ∧ (climb0 4).onSoft = true ∧ (climb0 4).passes + 1 < (climb0 4).passMax ∧
      ({ climb0 4 with passes := 3 } : Climb).passMax ≤ 3 + 1) ∧
    (let x : RawSample := ⟨0, 5, 1, 1, 0, 100⟩; let s := { media cns with raws := [x] };
      s.raws.find? (fun x => x.band = 0 && x.row = 5 && x.mem = 1 && x.left = 0) = some x ∧ bandAt s 0 = some band0 ∧ 100 ≤ x.thr ∧ x.thr < 101 ∧
      resultsWait s (band0.die 1) = false) := by decide
theorem wit_journal : (let s := { base with jr := { base.jr with oldest := some 3, staged := [.zone 9 0 0 1] } };
      s.jr.oldest = some 3 ∧ 3 + 64000 ≤ s.now ∧ s.jr.flushing = [] ∧ s.jr.staged ≠ []) ∧
    (let s := { base with jr := { base.jr with flushing := [.zone 9 0 0 1] } }; s.jr.flushing ≠ []) ∧
    segTurn (withNs cns) 9 0 = true ∧ segTurn (withNs zns) 9 0 = true ∧
    (let s := { base with bandCtr := { base.bandCtr with wanted := some 64 }, sealCtr := { wanted := some 64 } }; s.bandCtr.wanted = some 64 ∧
      s.sealCtr.wanted = some 64) ∧
    (let s := withNs { cns with wseq := { next := 3, wanted := some 64 }, nonce := { next := 3, wanted := some 64 } };
      (∀ q ∈ s.nss, q.1 = 9 → q.2.wseq.wanted = some 64) ∧ ∀ q ∈ s.nss, q.1 = 9 → q.2.nonce.wanted = some 64) ∧
    (let t : Tenant := { deferSeq := { next := 3, wanted := some 64 } }; mget [(5, t)] 5 = some t ∧ t.deferSeq.wanted = some 64) := by decide

/-- `media` with its one band closed, and a victim or not. -/
def closed (v : Option Victim) : State := { media cns with bands := [(0, { band0 with closed := true, victim := v })] }
theorem wit_relocations : (let s1 := judgeReloc (closed none) 0; (dsAt s1 0).isSome = true ∧ s1.bands.filter (fun q => q.2.dieSet = 0 && q.2.victim.isSome) = [] ∧
      nextVictim s1 0 ((dsAt s1 0).getD ds0) = some (0, { band0 with closed := true })) ∧
    (let s1 := judgeReloc (media cns) 0; nextVictim s1 0 ((dsAt s1 0).getD ds0) = none) ∧
    (let s1 := judgeReloc (closed (some {})) 0; (dsAt s1 0).isSome = true ∧ s1.bands.filter (fun q => q.2.dieSet = 0 && q.2.victim.isSome) ≠ []) ∧
    (let s := setF base .mape 0 F.MAPE_RETAIN_PATROL_H 1; getF s .mape 0 F.MAPE_RETAIN_PATROL_H ≠ 0 ∧
      s.patrolAt + getF s .mape 0 F.MAPE_RETAIN_PATROL_H * 3600000000000 ≤ s.now) := by decide

/-- The sense thresholds of the example after R729: VIN_THR 0x0271_0244 and HOLD_THR 0x0304_018C. -/
def sensed : State :=
  storeWord (storeWord { base with pwr := { base.pwr with sense := { vinLow := 4, armed := true } } } .pwr 0 0x120 0x02710244) .pwr 0 0x124 0x0304018C
theorem wit_supplySenses : (let t := modSense sensed (senseVin (guardJudge sensed) 579)
      sensed.mode ≠ .reset ∧ 5 ≤ t.pwr.sense.vinLow ∧ t.pwr.sense.armed = true ∧ t.pwr.sense.raised = false ∧ min 1000 579 < vinWarn (guardJudge sensed)) ∧
    (modSense sensed (senseVin (guardJudge sensed) 625)).pwr.sense.vinLow < 5 := by decide
theorem wit_supplySenses_hold : (let s := { sensed with holdLow := true }; holdReset s ≤ min 1000 772 ∧ s.holdLow = true ∧ holdReady s ≤ min 1000 772) ∧
    (holdReset sensed ≤ min 1000 771 ∧ sensed.holdLow = false ∧ min 1000 771 < holdReady sensed ∧ min 1000 300 < holdReset sensed ∧
      sensed.pwr.sense.holdRst = 0) ∧
    (let s := { base with mode := .guard }; s.mode = .guard ∧ guardCause s = false ∧
      s.pwr.guardAt + max 1 (getF s .pwr 0 F.PWR_GUARD_CTRL_EXIT_S) * 1000000000 ≤ s.now) := by decide
/-- A board whose regulator at address 0x40 feeds rail 3. -/
def polled : State :=
  { base with profile := some ⟨0, 0, 0, [], [], [], [], [], [⟨0x40, 0, 3⟩], false, []⟩, pwr := { base.pwr with rails := (List.range 17).map (fun i => (i, { on := true, goodAt := some 0 })) } }
theorem wit_rails : (let p : PlRun := { cause := .pfWarn, step := 3, began := 3 }; let s := { base with plRun := some p };
      s.plRun = some p ∧ p.step = 3 ∧ p.ended = false ∧ programsLeft s = false) ∧
    (let p : PlRun := { cause := .pfWarn, step := 5, began := 3, step4End := some 9 };
      let s := { base with plRun := some p, pwr := { base.pwr with sense := { okSince := some 7 } } };
      s.plRun = some p ∧ p.cause = .pfWarn ∧ p.step4End = some 9 ∧ s.pwr.sense.okSince = some 7 ∧ max 9 (7 + 1000000) + 10000000 ≤ s.now) ∧
    (let s := { base with pwr := { base.pwr with seq := [3, 4] } }; s.pwr.seq = 3 :: [4] ∧ s.pwr.seqAt + 2000000 ≤ s.now) ∧
    (pmbPolled polled 0x40 0 = true ∧ (0 : Nat) &&& 0xF73F = 0 ∧ (1 : Nat) &&& 0xF73F ≠ 0 ∧ mgetD polled.pwr.nacks (0x40 * 256) 0 = 0 ∧
      mgetD [(0x4000, 1)] (0x40 * 256) 0 = 1) := by decide
theorem wit_rails_sample : let s := guardJudge polled; railWatched s 3 = true ∧ (railAt s 3).on = true ∧
    (railNext s 3 5000 (railAt s 3)).resetSince = none ∧ (railNext s 3 5000 (railAt s 3)).warnSince = none ∧
    (let s := { s with pwr := { s.pwr with rails := [(3, { on := true, goodAt := some 0, warnSince := some 3, resetSince := some 3 })] } };
      let r := railNext s 3 0 (railAt s 3); r.resetSince = some 3 ∧ 3 + 1000 ≤ s.now ∧ r.warnSince = some 3 ∧ 3 + 10000 ≤ s.now ∧ r.warned = false) := by
  decide

theorem wit_modeEntries : (let s := setF base .pwr 0 F.PWR_MODE_CTRL_PS 1; getF s .pwr 0 F.PWR_MODE_CTRL_PS = 1 ∧ entryIdle s = true) ∧
    (let s := { base with pwr := { base.pwr with entry := some 2 } }; programsLeft s = false ∧ s.pwr.entry = some 2) := by decide

/-- Port 0 with a wake key, as the part sleeps in a mode. -/
def asleep (m : Mode) (until' : Option Nat) (en : Nat) : State :=
  setF (setF (setF { base with mode := m, eth := [(0, { wakeKey := 5, serdesUntil := until', linkUp := true })] } .eth 0 F.ETH_WAKE_CTRL_FRAME_WAKE 1)
    .eth 0 F.ETH_WAKE_CTRL_ENERGY_WAKE en) .eth 0 F.ETH_PORT_CTRL_ENABLE 1
theorem wit_wakes : (let s := asleep .doze none 1; s.mode = .doze ∧ (eth s 0).wakeKey = 5 ∧ getF s .eth 0 F.ETH_WAKE_CTRL_FRAME_WAKE = 1 ∧
      getF s .eth 0 F.ETH_PORT_CTRL_ENABLE = 1 ∧ (eth s 0).linkUp = true) ∧
    (let s := asleep .hold (some 7) 1; s.mode = .hold ∧ (eth s 0).wakeKey = 5 ∧ getF s .eth 0 F.ETH_WAKE_CTRL_FRAME_WAKE = 1 ∧
      getF s .eth 0 F.ETH_WAKE_CTRL_ENERGY_WAKE = 1 ∧ getF s .eth 0 F.ETH_PORT_CTRL_ENABLE = 1 ∧ (eth s 0).serdesUntil = some 7 ∧ 7 ≤ s.now) := by decide
theorem wit_wakes_energy : (let s := asleep .hold none 0; getF s .eth 0 F.ETH_WAKE_CTRL_ENERGY_WAKE = 0 ∧
      getF s .eth 0 F.ETH_WAKE_CTRL_FRAME_WAKE = 1 ∧ (eth s 0).serdesUntil = none) ∧
    (let s := setF { base with mode := .doze } .pwr 0 F.PWR_WAKE_EN_WAKE_N 1; getF s .pwr 0 F.PWR_WAKE_EN_WAKE_N = 1 ∧ s.mode = .doze) ∧
    (let s := setF { base with pwr := { base.pwr with entry := some 1 } } .pwr 0 F.PWR_WAKE_EN_WAKE_N 1; getF s .pwr 0 F.PWR_WAKE_EN_WAKE_N = 1 ∧
      s.mode = .run ∧ s.pwr.entry = some 1) ∧
    (let s := setF { base with mode := .hold } .pwr 0 F.PWR_WAKE_EN_WAKE_N 1; getF s .pwr 0 F.PWR_WAKE_EN_WAKE_N = 1 ∧ s.mode = .hold) := by decide
theorem wit_wakes_timer : (let s := { base with aon := { base.aon with timer := some 9 } }; s.aon.timer = some 9 ∧ 9 ≤ s.now ∧ s.mode = .run ∧ s.pwr.entry = none) ∧
    (let s := setF { base with mode := .doze, aon := { base.aon with timer := some 9 } } .pwr 0 F.PWR_WAKE_EN_TIMER 1;
      s.mode = .doze ∧ getF (raise { s with aon := { s.aon with timer := none } } .pwr 0 F.PWR_INT_RAW_TIMER) .pwr 0 F.PWR_WAKE_EN_TIMER = 1) ∧
    (∃ q ∈ (die0 { st := .bringUp }).dies, q.1 / 32 = 0 ∧ q.2.st = .bringUp) := by decide
theorem wit_temperatures : (let s1 := thermTime base; let raw := rawReading s1 0 100 false; let new := chNext s1 0 (faultCode 0 100 false raw) raw;
      chSampled base 0 = true ∧ new.health = 0 ∧ new.limit ≠ 2) ∧
    (let s := { base with therm := { base.therm with chs := [(0, { limit := 1 })] } }; let s1 := thermTime s; let raw := rawReading s1 0 460 false;
      (chNext s1 0 (faultCode 0 460 false raw) raw).limit = 2) := by decide
theorem wit_temperatures_grace : (let s := { base with stage := .notify, therm := { base.therm with chs := [(1, { got := [true, true, false] })] } };
      let s1 := thermTime s; s.stage = .notify ∧ anyLevel s1 2 = false ∧ anyLevel s1 1 = true ∧ s1.therm.stageAt + graceNs s1 ≤ s.now) ∧
    (let s := { base with therm := { base.therm with stop := some 3 } }; s.therm.stop = some 3 ∧ s.therm.shdn = false ∧
      3 + max 1 (getF s .thm 0 F.THM_THR_CTRL_SHDN_MS) * 1000000 ≤ s.now) := by decide
theorem wit_records : (base.aon.posAt + 1000000000 ≤ base.now ∧ recRuns base = true ∧ recRuns { base with mode := .doze } = false ∧
      recRuns { base with mode := .starting } = false) ∧
    (let s := { base with aon := { base.aon with wall := some (0, 0) } }; wallNow s = some 5000 ∧ s.meter.minute + 1 ≤ 5000 / 60) ∧
    (let s := { base with recd := { base.recd with frozenAt := some 3 } };
      3 + max 1 (getF s .recd 0 F.REC_CFG_FREEZE_MAX_S) * 1000000000 ≤ s.now) ∧
    (let q := { cap 0 510 with dw11 := 2 }; Ready base q fnMF ∧ OnlyBits q [0x1FF, 0x3FF, 0, 0, 0, 0] ∧ 0 < bitsOf q.dw11 9 0 ∧
      bitsOf q.dw10 8 0 + bitsOf q.dw11 9 0 = 512 ∧ 3856 * bitsOf q.dw11 9 0 ≤ q.len) := by decide
theorem wit_firmware_download : let q := cap 0 1023; Ready base q fnMF ∧ OnlyBits q [0xFFFFFFFF, 0xFFFFFFFF, 0, 0, 0, 0] ∧ (q.dw10 + 1) * 4 % 4096 = 0 ∧
    q.dw11 = 0 ∧ (q.dw10 + 1) * 4 ≤ q.len := by decide
theorem wit_firmware_slots : let s1 := served base fnMF
    (∀ v ∈ [0, 8, 16, 25], OnlyBits (cap 0 v) [0x3F, 0, 0, 0, 0, 0]) ∧
    fwSlot s1 (cap 0 0) = some 1 ∧ 1 ≠ fwRunning s1 ∧ bitsOf 8 5 3 = 1 ∧ fwSlot s1 (cap 0 8) = some 1 ∧ bitsOf 16 5 3 = 2 ∧ fwSlot s1 (cap 0 16) = some 1 ∧
      bitsOf 26 5 3 = 3 ∧ fwSlot s1 (cap 0 26) = some 1 ∧ slotValid (setF s1 .fwp 0 F.FWP_SLOT_STAT_VALID_B 1) 1 = true := by decide

/-- The digest of no bytes (FIPS 180-4). -/
def emptySum : List Nat := beBytes 48 0x38B060A751AC96384CD9327EB1B1E36A21FDB71114BE07434C0CC7BF63F6E1DA274EDEBFE76F65FBD51AD2F14898B95B
theorem test_sha384 : sha384 [] = emptySum := by decide +kernel
/-- A package of a kind with one empty section of a type, under the keys and signatures that end it. -/
def package (kind type : Nat) : List Nat :=
  [0x45, 0x58, 0x54, 0x4C, 1, 0, kind, 0, 0, 0, 0, 0, 0, 0, 0, 0, 0, 2, 0, 0, 1, 0, 0, 0, 0, 0, 0, 0, 0, 0, 0, 0] ++
    ([type, 0, 0, 0, 0, 2, 0, 0, 0, 0, 0, 0, 0, 0, 0, 0] ++ (emptySum ++ List.replicate 416 0))
theorem wit_package (kind type : Nat) (hk : (kind, type) ∈ [(1, 1), (2, 4)])
    (h1 : ofLe (sha384 (pkgBytes (package kind type) 0x120 97)) = Config.keyDigest 0 0) (h2 : Config.keyRevoked 0 = false)
    (h3 : ecdsaVerify (pkgBytes (package kind type) 0x120 97) (pkgBytes (package kind type) 0x1A0 96) (pkgBytes (package kind type) 0 0x1A0) = true) :
    pkgReason [kind] 0 (package kind type) = none := by
  have shape : ∀ p ∈ [(1, 1), (2, 4)], let b := package p.1 p.2
      pkgTotal b = 512 ∧ b.length = 512 ∧ pkgReservedZero b = true ∧
        pkgField b 0 4 = 0x4C545845 ∧ pkgField b 4 2 = 1 ∧ pkgKind b = p.1 ∧ pkgKeyId b = 0 ∧ pkgNsect b = 1 ∧ pkgSvn b = 0 ∧ patchBytes b = none ∧
        sectionBytes b ⟨p.2, 512, 0, ofLe emptySum⟩ = [] ∧ typesOk p.1 [p.2] = true := by decide +kernel
  have a4 : pkgSections (package kind type) = [⟨type, 512, 0, ofLe emptySum⟩] := by
    simp only [List.mem_cons, Prod.mk.injEq, List.not_mem_nil, or_false] at hk
    rcases hk with ⟨rfl, rfl⟩ | ⟨rfl, rfl⟩ <;> rfl
  obtain ⟨a1, a2, a3, a5, a6, a7, a8, a9, a10, a11, a12, a13⟩ := shape (kind, type) hk
  dsimp only at a1 a2 a3 a5 a6 a7 a8 a9 a10 a11 a12 a13
  unfold pkgReason
  rw [a1, a2, a3, a4, a5, a6, a7, a8, a9, a10, a11, h1, h2, h3]
  simp [sectionsFit, a12, a13, test_sha384]
theorem wit_service_stages : ServiceReady { base with mode := .service } (cap 0 0) ∧ OnlyBits (cap 0 0) [0x3F, 0, 0, 0, 0, 0] ∧
    OnlyBits (cap 0 0) [0, 0, 0, 0, 0, 0] ∧ debugOk base (fitBytes 256 []) = false ∧
    (∀ t ∈ ({ base with tenants := [] } : State).tenants, t.2.state = .free) ∧ base.diesets = [] := by decide
theorem wit_resets : (base.mode = .run ∧ base.plRun = none) ∧
    (let p : PlRun := { cause := .orderly 6 0, step := 3, began := 3, budget := some (6, 0, 3) }; let s := { base with plRun := some p };
      s.plRun = some p ∧ p.budget = some (6, 0, 3) ∧ p.step < 5 ∧ 3 + stopBudget s ≤ s.now) ∧
    (let s := withNs { cns with recovered := false }; (nsAt s 9).map (·.recovered) = some false ∧ s.mode = .run) ∧ State.reset.mode = .reset := by decide
theorem newChallenge_slots (s : State) : rd (newChallenge s) .fwp 0 F.FWP_SLOT_STAT_NEXT.off = rd s .fwp 0 F.FWP_SLOT_STAT_NEXT.off := by
  unfold newChallenge setF
  simp only
  rw [rd_wr_ne _ _ _ _ _ _ _ _ (by decide), rd_wr_ne _ _ _ _ _ _ _ _ (by decide), rd_wr_ne _ _ _ _ _ _ _ _ (by decide),
    rd_wr_ne _ _ _ _ _ _ _ _ (by decide)]
  rfl
theorem bootImage_empty (s : State) (h : rd s .fwp 0 F.FWP_SLOT_STAT_NEXT.off = 0) : (bootImage [] s).2 = none := by
  have hf : ∀ f : Fld, f.off = F.FWP_SLOT_STAT_NEXT.off → getF s .fwp 0 f = bitsOf 0 f.hi f.lo := fun f hf => by
    unfold getF; rw [hf, h]
  have h1 : trialBack s = s := by
    unfold trialBack
    rw [hf F.FWP_SLOT_STAT_TRIAL rfl]
    rfl
  have h2 : ∀ n, slotValid s n = false := by
    intro n
    unfold slotValid
    split
    · rw [hf F.FWP_SLOT_STAT_VALID_A rfl]; decide
    · rw [hf F.FWP_SLOT_STAT_VALID_B rfl]; decide
  have h3 : pkgReason [1] (svnMin s) [] = some 2 := rfl
  unfold bootImage trySlot tryNor
  simp only [h1, h2, h3, Bool.false_eq_true, if_false]
theorem wit_startUp : let e : StartEnv := ⟨31, 127, [], [], [], [], ⟨0, 0, 0, [], [], [], [], [], [], false, []⟩, [], none, [], [], [], [], [], [], 0, none, [], 0⟩
    let s1 := unsealKeys e (e.badCores.eraseDups.foldl coreFails (selfTests e (logReset State.reset)))
    (bootImage e.nor ((s1.tenants.map Prod.fst).foldl tenantBack (newChallenge s1))).2 = none :=
  bootImage_empty _ ((newChallenge_slots _).trans (by decide))
/-- With a package that is good in the NOR and neither slot valid, an image is found. -/
theorem wit_startUp_image (s : State) (nor : List Nat) (h : rd s .fwp 0 F.FWP_SLOT_STAT_NEXT.off = 0) (hp : pkgReason [1] (svnMin s) nor = none) :
    (bootImage nor s).2 ≠ none := by
  have hf : ∀ f : Fld, f.off = F.FWP_SLOT_STAT_NEXT.off → getF s .fwp 0 f = bitsOf 0 f.hi f.lo := fun f hf => by
    unfold getF; rw [hf, h]
  have h1 : trialBack s = s := by
    unfold trialBack
    rw [hf F.FWP_SLOT_STAT_TRIAL rfl]
    rfl
  have h2 : ∀ n, slotValid s n = false := by
    intro n
    unfold slotValid
    split
    · rw [hf F.FWP_SLOT_STAT_VALID_A rfl]; decide
    · rw [hf F.FWP_SLOT_STAT_VALID_B rfl]; decide
  unfold bootImage trySlot tryNor
  simp [h1, h2, hp]
theorem wit_quiet : Quiet { base with tenants := [], diesets := [] } := by
  refine ⟨by decide, by decide, by decide, by decide, by decide, by decide, by decide, by decide, by decide, by decide, by decide, by decide,
    by decide, ?_, by decide, ?_⟩
  · rintro f (rfl | ⟨x, hx, -⟩)
    · decide
    · exact absurd hx (by simp)
  · intro q hq t ht
    simp only [base, List.mem_cons, List.not_mem_nil, or_false] at hq
    rcases hq with rfl | rfl | rfl <;> cases ht
theorem wit_reports : pageIs .gpio 0 = true ∧ PageKind.gpio ≠ .boot ∧ rd base .gpio 0 0x030 = 0 ∧ rd (report base .gpio 0 2 1 3 4 5 6) .gpio 0 0x030 ≠ 0 ∧
    (0x100 : Nat) < 0x1000 := by decide
theorem wit_pins : base.mode ≠ .hold ∧ base.mode ≠ .reset ∧ getF base .pwr 0 F.PWR_PAD_HOLD_GPIO = 0 ∧ cccHears { base with mode := .hold } = false ∧
    getF (setF base .pwr 0 F.PWR_PAD_HOLD_GPIO 1) .pwr 0 F.PWR_PAD_HOLD_GPIO ≠ 0 ∧
    (let s := setF (setF base .mgt 0 F.MGT_SB_CTRL_I3C_EN 1) .mgt 0 F.MGT_SB_STAT_DA_VALID 1; cccHears s = true ∧ getF s .mgt 0 F.MGT_SB_STAT_DA_VALID = 1) ∧
    pinState base (.wp 3) = .high ∧ pinState { base with mode := .service } (.wp 3) = .low ∧
    pinState { base with oos := { tiles := [3] } } (.wp 3) = .low := by
  decide
theorem wit_accessCodes : (pageFields .gpio).any (fun f => f.acc = .rw) = true ∧ (pageFields .gpio).any (fun f => f.acc = .rw1c) = true ∧
    (pageFields .gpio).any (fun f => f.acc = .ro) = true ∧ (pageFields .recd).any (fun f => f.acc = .rw1s) = true := by decide
/-- Each row of R72's table: no page, misaligned, no register, asleep, denied, locked, read-only, OK. -/
theorem wit_accessChecks : (regAccess (.mf 0 0) 0x00800000 none base).st = 1 ∧ (regAccess (.mf 0 0) 0x00125012 none base).st = 2 ∧
    (regAccess (.mf 0 0) (regAddr .gpio 0 0xFFC) none base).st = 3 ∧
    (regAccess .firmware (regAddr .tte 0 0x11C) none { base with mode := .doze }).st = 4 ∧
    (regAccess (.smbus 0x3A) (regAddr .tte 0 0x11C) none base).st = 5 ∧
    (regAccess (.mf 0 0) (regAddr .gpio 0 0x100) (some 0) (wr base .gpio 0 0x038 2)).st = 6 ∧
    (regAccess (.mf 0 0) 0x00000000 (some 1) base).st = 7 ∧ (regAccess (.mf 0 0) (regAddr .gpio 0 0x100) (some 0) base).st = 0 := by decide

/-! ### Ill-formed commands: one for each check -/

def badQ : Capsule := { cap 0 0 with cid := 65536 }
theorem wf_fits : Instr.wf (.registerWrite .firmware 0 (2 ^ 32)) = false ∧ Instr.wf (.registerWrite .firmware 0 (2 ^ 32 - 1)) = true := by decide
theorem wf_isByte : Instr.wf (.replayRequest 0 .toHub 256) = false ∧ Instr.wf (.replayRequest 0 .toHub 255) = true := by decide
theorem wf_isAddr7 : Instr.wf (.pmbusPoll 128 0 none) = false ∧ Instr.wf (.pmbusPoll 127 0 none) = true := by decide
theorem wf_isPhase : Instr.wf (.nimbusFrameReceived 0 .toHub 256 (List.replicate 256 0)) = false := by decide
theorem wf_isFrame : Instr.wf (.nimbusFrameReceived 0 .toHub 0 []) = false := by decide
theorem wf_isPrio : Instr.wf (.pfcFrame 0 ⟨0, [(8, 0)]⟩) = false ∧ Instr.wf (.pfcFrame 0 ⟨0, [(7, 0)]⟩) = true := by decide
theorem wf_isVlan : Instr.wf (.arpRequest 0 4096 ⟨0, 0⟩) = false ∧ Instr.wf (.arpRequest 0 4095 ⟨0, 0⟩) = true := by decide
theorem wf_isPage : Instr.wf (.errClr .firmware 4096 0) = false := by decide
theorem wf_isTenant : Instr.wf (.quiesceComplete 512) = false ∧ Instr.wf (.quiesceComplete 511) = true := by decide
theorem wf_isFunction : Instr.wf (.keepAliveTimeout 514) = false ∧ Instr.wf (.keepAliveTimeout 513) = true := by decide
theorem wf_keySlot : Instr.wf (.cryptoEraseDone 1024) = false := by decide
theorem wf_isDie : Instr.wf (.lunStuck 2048) = false ∧ Instr.wf (.lunStuck 2047) = true := by decide
theorem wf_isLane : Instr.wf (.zqCalShort 64) = false := by decide
theorem wf_isCe : Instr.wf (.readDqTrain 0 8 0) = false := by decide
theorem wf_isCore : Instr.wf (.cipherJobDone 16 true) = false := by decide
theorem wf_isRail : Instr.wf (.railGood 17) = false ∧ Instr.wf (.railGood 0x103) = true := by decide
theorem wf_isPool : Instr.wf (.basilShare 5 0 1) = false := by decide
theorem wf_path : Instr.wf (.recClear (.mf 0 65536)) = false := by decide
theorem wf_bus : Instr.wf (.sbLastResult (.i3c 128)) = false := by decide
theorem wf_capsule : Instr.wf (.flush badQ) = false ∧ Instr.wf (.flush (cap 0 0)) = true := by decide
theorem wf_block : Instr.wf (.tenantCreate (cap 0 0) [(4096, 1)]) = false ∧ Instr.wf (.tenantCreate (cap 0 0) [(1, 1), (0, 1)]) = false ∧
    Instr.wf (.tenantCreate (cap 0 0) tblock) = true := by decide
theorem wf_connect : Instr.wf (.connect (cap 0 0) ⟨5, 65536, 44, 3, 0, 31, 1000⟩) = false := by decide
theorem wf_frame : Instr.wf (.frameReceived { frame2 with dst := 2 ^ 48 }) = false ∧ Instr.wf (.frameReceived frame2) = true := by decide
theorem wf_newConn : Instr.wf (.tcpSyn ⟨⟨0, 0, 4096, 0, 0, 0⟩, []⟩) = false ∧ Instr.wf (.tcpSyn ⟨⟨0, 0, 4095, 0, 0, 0⟩, [.mss 1460]⟩) = true := by decide
theorem wf_tcpOpt : Instr.wf (.tcpSyn ⟨⟨0, 0, 0, 0, 0, 0⟩, [.mss 65536]⟩) = false := by decide
theorem wf_rdma : Instr.wf (.rdmaCmConnectRequest ⟨⟨0, 0, 0, 0, 0, 0⟩, ⟨65536, true, false, false⟩⟩) = false := by decide
theorem wf_auth : Instr.wf (.authenticationSend (cap 0 0) (.negotiate [256] [0] false)) = false := by decide
theorem wf_isPoint : Instr.wf (.enroll (cap 0 0) 0 4 []) = false ∧ Instr.wf (.enroll (cap 0 0) 0 4 (List.replicate 96 4)) = true := by decide
theorem wf_isCacheLine : Instr.wf (.cacheClean .firmware .mcc ⟨0, [2 ^ 19]⟩) = false := by decide
theorem wf_client : Instr.wf (.basilAllocate (.parity (2 ^ 32) 0) 1 4 1) = false ∧ Instr.wf (.basilAllocate (.parity 0 0) 1 0 1) = false := by decide
theorem wf_sram : Instr.wf (.transitSramUe 0 (.readData 0 65536 0)) = false := by decide
theorem wf_cred : Instr.wf (.tenantCred (cap 0 0) [256]) = false := by decide
theorem wf_diag : Instr.wf (.diagReadDone 0 ⟨65536, none⟩) = false := by decide
theorem wf_find : Instr.wf (.warmBringUpDone ⟨0, 0, 0, [⟨32, 0, 0, none⟩]⟩) = false ∧ Instr.wf (.warmBringUpDone ⟨0, 0, 0, [⟨31, 0, 0, none⟩]⟩) = true := by decide
theorem wf_job : Instr.wf (.cipherJobArrival (.other 0 0x2001 0 0)) = false := by decide
theorem wf_ka : Instr.wf (.importKey (cap 0 0) ⟨0, []⟩ []) = false ∧ Instr.wf (.importKey (cap 0 0) ⟨0, List.replicate 48 0⟩ [255]) = true := by decide
theorem wf_mark : Instr.wf (.markDurable (.wseq 1024)) = false := by decide
theorem wf_msg : Instr.wf (.nimbusTxFrame 0 .toHub (some ⟨true, true, 4096, 0, 0, []⟩)) = false := by decide
/-- A profile and a start-up of an empty board. -/
def profile0 : Profile := ⟨0, 0, 0, [], [], [], [], [], [], false, []⟩
def env1 (sorPass : Nat) : StartEnv := ⟨sorPass, 127, [], [], [], [], profile0, [], none, [], [], [], [], [], [], 0, none, [], 0⟩
theorem wf_profile : Instr.wf (.fwCommitReplace (cap 0 0) { profile0 with vinThr := 2 ^ 32 } .matched) = false := by decide
theorem wf_env : Instr.wf (.startUp (env1 32)) = false ∧ Instr.wf (.startUp (env1 31)) = true := by decide
theorem wf_thyme : Instr.wf (.thymeMicroword 0 ⟨false, false, false, false, 0, 256, 0⟩) = false := by decide
theorem wf_token : Instr.wf (.migKeyExport (cap 0 0) ⟨0, List.replicate 48 0⟩ [256]) = false := by decide
theorem wf_dram : Instr.wf (.dramUe 0 0 (.stagingWrite 0 65536) false) = false := by decide
theorem wf_rec : Instr.wf (.importData (cap 0 0) ⟨0, List.replicate 48 0⟩ 1 [256]) = false := by decide
theorem wf_zone : Instr.wf (.importZone (cap 0 0) ⟨0, List.replicate 48 0⟩ 1 ⟨0, 1⟩ [256]) = false := by decide
/-! ### Values from the spec's tables and worked examples -/

/-- The worked example of R16: TF037.CTRL is at byte address 0x0012_5010. -/
theorem test_register_address : regAddr .tf 37 0x010 = 0x00125010 := by decide
/-- R69's table. -/
theorem test_present : regWord base .dir 0 0x180 = 0x3FFF07FF ∧ regWord base .dir 0 0x184 = 0x0FFF00FF ∧ regWord base .dir 0 0x188 = 0xFFFFFFFF ∧
    regWord base .dir 0 0x190 = 0 ∧ regWord base .dir 0 0x1A0 = 0xFFFFFFFF := by decide
/-- The example of R15 in a part: ERR_COUNT 5 reads 5 and is then 0. -/
theorem test_rc_read : (let s := setF base .gpio 0 F.HDR_ERR_COUNT 5
    getF s .gpio 0 F.HDR_ERR_COUNT = 5 ∧ getF (readEffect s .gpio 0 F.HDR_ERR_COUNT.off) .gpio 0 F.HDR_ERR_COUNT = 0) := by decide
/-- The lookup example after R298: PUA 0x12_DA22_B01A. -/
theorem test_pua : puaDie 0x12DA22B01A = 1206 ∧ puaPlane 0x12DA22B01A = 2 ∧ puaBlk 0x12DA22B01A = 0x456 ∧ puaPage 0x12DA22B01A = 0x01A ∧
    laneOfDie 1206 = 37 ∧ tileOfDie 1206 = 2 ∧ mkPua 1206 2 0x456 0x01A = 0x12DA22B01A := by decide
/-- The example after R650: a latency of 141.333 µs goes to bin 13. -/
theorem test_latency_bin : latBin 141 = 13 ∧ latBin 15 = 0 ∧ latBin 131072 = 47 := by decide
/-- The soft-decoding example: n0 = 3,120 and n1 = 410 give 8. -/
theorem test_refined_entry : refinedEntry 3120 410 = 8 := by decide
/-- The CRC-32 of IEEE 802.3 (R25) of the ASCII digits 1 to 9 is 0xCBF43926, its published check value. -/
theorem test_crc32 : crc32 [0x31, 0x32, 0x33, 0x34, 0x35, 0x36, 0x37, 0x38, 0x39] = 0xCBF43926 := by decide
/-- AES-256-GCM of a block of zeros under a key and an IV of zeros: the published values of NIST's test case 14. -/
theorem test_gcm : gcmCrypt (List.replicate 32 0) (List.replicate 12 0) (List.replicate 16 0) = beBytes 16 0xCEA7403D4D606B6E074EC5D3BAF39D18 ∧
    gcmTag (List.replicate 32 0) (List.replicate 12 0) [] (beBytes 16 0xCEA7403D4D606B6E074EC5D3BAF39D18) =
      beBytes 16 0xD0D1C8A799996BF0265B98B5D48AB919 := by decide +kernel
/-- The example of R353: the counter resumes at its durable mark. -/
theorem test_counter_resumes : ({ next := 0x100093A00, mark := 0x100200000 } : Counter).resume.next = 0x100200000 := by decide
/-- The thresholds of the example after R729: 625 and 580 mV, 772 and 396 mV. -/
theorem test_sense_thresholds : vinWarn sensed = 625 ∧ vinPfw sensed = 580 ∧ holdReady sensed = 772 ∧ holdReset sensed = 396 := by decide
/-- R57 and R672: the second report in a row is counted and not captured. -/
theorem test_second_report : (let s := report (report base .gpio 0 2 1 3 4 5 6) .gpio 0 2 1 9 9 9 9
    getF s .gpio 0 F.HDR_ERR_COUNT = 2 ∧ getF s .gpio 0 F.HDR_ERR_OVF = 1 ∧ rd s .gpio 0 0x028 = 5) := by decide
/-- R72: the byte address 0x0012_5012 is misaligned, and a write of DIR.ID is refused. -/
theorem test_access_checks : (regAccess (.mf 0 0) 0x00125012 none base).st = 2 ∧ (regAccess (.mf 0 0) 0x00000000 (some 1) base).st = 7 ∧
    (regAccess (.mf 0 0) 0x00800000 none base).st = 1 := by decide
/-- No word of any width spells a command: the rows of the table have no bits. -/
theorem test_no_word (s : State) (nbits w : Nat) : decodeTableWord nbits w = none ∧ s.withFetchWord nbits w = s := ⟨rfl, rfl⟩
/-- State.reset is what the first power leaves: a part reset of kind POR of a part that has held nothing. -/
theorem test_reset_is_por : (porReset {}).pos = State.reset.pos ∧ (porReset {}).pcyc = State.reset.pcyc ∧ (porReset {}).mode = State.reset.mode ∧
    (porReset {}).pwr = State.reset.pwr ∧ (porReset {}).conns = State.reset.conns := by decide

end Sys2Proof.Tests
end

section
/-! PROOFS. Fields of a register word bit by bit, the fields of the register tables, and what is stored by a write under
the access codes (00_scope.md R12). -/

namespace Sys2Proof.Machine

/-! ### Fields of a word, bit by bit -/

theorem bitsOf_lt (v hi lo : Nat) : bitsOf v hi lo < 2 ^ (hi + 1 - lo) := Nat.mod_lt _ (Nat.two_pow_pos _)

theorem testBit_bitsOf (v hi lo j : Nat) : (bitsOf v hi lo).testBit j = (decide (lo + j ≤ hi) && v.testBit (lo + j)) := by
  have h : j < hi + 1 - lo ↔ lo + j ≤ hi := by omega
  simp [bitsOf, Nat.testBit_mod_two_pow, Nat.testBit_div_two_pow, h, Nat.add_comm j]

/-- The bits below a field, the field and the bits above it. -/
theorem putBits_eq_parts (v hi lo x : Nat) : putBits v hi lo x =
    2 ^ lo * (2 ^ (hi + 1 - lo) * (v / 2 ^ lo / 2 ^ (hi + 1 - lo)) + x % 2 ^ (hi + 1 - lo)) + v % 2 ^ lo := by
  unfold putBits
  generalize hi + 1 - lo = n
  have hv := Nat.div_add_mod v (2 ^ lo)
  have hq : 2 ^ lo * (v / 2 ^ lo) = 2 ^ lo * (2 ^ n * (v / 2 ^ lo / 2 ^ n)) + 2 ^ lo * (v / 2 ^ lo % 2 ^ n) := by
    rw [← Nat.mul_add, Nat.div_add_mod]
  rw [Nat.mul_comm _ (2 ^ lo), Nat.mul_comm (x % 2 ^ n) (2 ^ lo), Nat.mul_add]
  omega

theorem testBit_putBits (v hi lo x j : Nat) :
    (putBits v hi lo x).testBit j = if lo ≤ j ∧ j ≤ hi then x.testBit (j - lo) else v.testBit j := by
  rw [putBits_eq_parts, Nat.testBit_two_pow_mul_add _ (Nat.mod_lt _ (Nat.two_pow_pos lo)),
    Nat.testBit_two_pow_mul_add _ (Nat.mod_lt _ (Nat.two_pow_pos _))]
  by_cases hlo : j < lo
  · rw [if_pos hlo, if_neg (by omega), Nat.testBit_mod_two_pow]
    simp [hlo]
  · by_cases hhi : j ≤ hi
    · rw [if_neg hlo, if_pos (by omega), if_pos (by omega), Nat.testBit_mod_two_pow]
      simp only [show j - lo < hi + 1 - lo by omega, decide_true, Bool.true_and]
    · rw [if_neg hlo, if_neg (by omega), if_neg (by omega), Nat.testBit_div_two_pow, Nat.testBit_div_two_pow]
      congr 1
      omega

/-- A field reads as before after another one was put. -/
theorem bitsOf_putBits_disjoint (v hi lo hi' lo' x : Nat) (h : hi < lo' ∨ hi' < lo) :
    bitsOf (putBits v hi lo x) hi' lo' = bitsOf v hi' lo' := by
  refine Nat.eq_of_testBit_eq fun j => ?_
  rw [testBit_bitsOf, testBit_bitsOf, testBit_putBits]
  by_cases hj : lo' + j ≤ hi'
  · rw [if_neg (by omega)]
  · simp [hj]

/-! ### The fields of the register tables -/

/-- Two fields share no bit of one register. -/
abbrev Fld.Apart (f g : Fld) : Prop := f.off ≠ g.off ∨ f.hi < g.lo ∨ g.hi < f.lo

theorem Fld.Apart.symm {f g : Fld} (h : f.Apart g) : g.Apart f := h.imp Ne.symm Or.symm

/-- A field lies in a 32-bit word. -/
abbrev Fld.InWord (f : Fld) : Prop := f.lo ≤ f.hi ∧ f.hi < 32

theorem pageFields_apart (k : PageKind) : (pageFields k).Pairwise Fld.Apart := by cases k <;> decide +kernel

theorem fieldsOf_inWord (k : PageKind) : ∀ f ∈ fieldsOf k, f.InWord := by cases k <;> decide +kernel

/-- A page's own fields stand in none of INT_EN, INT_OUT and LOCK, which are the common header's. -/
theorem pageFields_off (k : PageKind) : ∀ f ∈ pageFields k, f.off ≠ 0x1C ∧ f.off ≠ 0x20 ∧ f.off ≠ 0x38 := by
  cases k <;> decide +kernel

/-- The one register of the common header that the header's own fields let a write change is LOCK. -/
theorem tabHdr_kept : ∀ f ∈ tabHdr, f.off ≠ 0x38 → f.acc ≠ .rw ∧ f.acc ≠ .rw1c ∧ f.acc ≠ .rw1s := by decide

theorem resetWord_lt_of_field (k : PageKind) : ∀ f ∈ fieldsOf k, resetWord k f.off < 2 ^ 32 := by
  cases k <;> decide +kernel

theorem resetWord_undefined (k : PageKind) (off : Nat) (h : ∀ f ∈ fieldsOf k, f.off ≠ off) : resetWord k off = 0 := by
  unfold resetWord
  generalize fieldsOf k = l at h
  induction l with
  | nil => rfl
  | cons f t ih =>
    rw [List.foldl_cons, if_neg (h f (List.mem_cons_self ..))]
    exact ih fun g hg => h g (List.mem_cons_of_mem _ hg)

/-- Every register's reset word has 32 bits. -/
theorem resetWord_lt (k : PageKind) (off : Nat) : resetWord k off < 2 ^ 32 := by
  by_cases h : ∃ f ∈ fieldsOf k, f.off = off
  · obtain ⟨f, hf, rfl⟩ := h
    exact resetWord_lt_of_field k f hf
  · rw [resetWord_undefined k off fun f hf he => h ⟨f, hf, he⟩]
    decide

theorem fieldsAt_inWord (k : PageKind) (off : Nat) : ∀ f ∈ fieldsAt k off, f.InWord := by
  have own : ∀ f ∈ pageFields k, f.InWord := fun f hf => fieldsOf_inWord k f (List.mem_append_right _ hf)
  intro f hf
  unfold fieldsAt at hf
  split at hf
  · obtain ⟨g, hg, rfl⟩ := List.mem_map.mp hf
    exact own g (List.mem_of_mem_filter hg)
  · split at hf
    · obtain ⟨g, hg, rfl⟩ := List.mem_map.mp hf
      exact own g (List.mem_of_mem_filter hg)
    · exact fieldsOf_inWord k f (List.mem_of_mem_filter hf)

/-! ### Storing a write -/

/-- What a field holds after a write of `x` to it, by its access code (R12). -/
def Fld.afterWrite (f : Fld) (old x : Nat) : Nat :=
  match f.acc with
  | .rw => x
  | .rw1c => old - (old &&& x)
  | .rw1s => old ||| x
  | _ => old

theorem Fld.afterWrite_kept (f : Fld) (old x : Nat) (h : f.acc ≠ .rw ∧ f.acc ≠ .rw1c ∧ f.acc ≠ .rw1s) :
    f.afterWrite old x = old := by
  obtain ⟨hw, hc, hs⟩ := h
  unfold Fld.afterWrite
  split
  · exact absurd ‹_› hw
  · exact absurd ‹_› hc
  · exact absurd ‹_› hs
  · rfl

theorem putField_kept (f : Fld) (v w : Nat) (h : f.acc ≠ .rw ∧ f.acc ≠ .rw1c ∧ f.acc ≠ .rw1s) : putField f v w = w := by
  obtain ⟨hw, hc, hs⟩ := h
  unfold putField
  split
  · exact absurd ‹_› hw
  · exact absurd ‹_› hc
  · exact absurd ‹_› hs
  · rfl

theorem putField_lt (f : Fld) (v w : Nat) (hf : f.InWord) (hw : w < 2 ^ 32) : putField f v w < 2 ^ 32 := by
  unfold putField
  cases f.acc
  case rw | rw1c | rw1s => exact putBits_lt _ _ _ _ hw hf.2 hf.1
  all_goals exact hw

theorem bitsOf_putField_same (f : Fld) (v w : Nat) :
    bitsOf (putField f v w) f.hi f.lo = f.afterWrite (bitsOf w f.hi f.lo) (bitsOf v f.hi f.lo) := by
  have hw := bitsOf_lt w f.hi f.lo
  have hv := bitsOf_lt v f.hi f.lo
  unfold putField Fld.afterWrite
  cases f.acc
  case rw => exact (bitsOf_putBits ..).trans (Nat.mod_eq_of_lt hv)
  case rw1c => exact (bitsOf_putBits ..).trans (Nat.mod_eq_of_lt (Nat.lt_of_le_of_lt (Nat.sub_le ..) hw))
  case rw1s => exact (bitsOf_putBits ..).trans (Nat.mod_eq_of_lt (Nat.or_lt_two_pow hw hv))
  all_goals rfl

theorem bitsOf_putField_apart (f g : Fld) (v w : Nat) (ho : g.off = f.off) (h : g.Apart f) :
    bitsOf (putField g v w) f.hi f.lo = bitsOf w f.hi f.lo := by
  have hd : g.hi < f.lo ∨ f.hi < g.lo := h.resolve_left fun hne => hne ho
  unfold putField
  cases g.acc
  case rw | rw1c | rw1s => exact bitsOf_putBits_disjoint _ _ _ _ _ _ hd
  all_goals rfl

/-- A register's word after a write: every field of a list put in turn. -/
abbrev putFields (l : List Fld) (v w : Nat) : Nat := l.foldl (fun w f => putField f v w) w

theorem putFields_lt (l : List Fld) (v w : Nat) (hl : ∀ f ∈ l, f.InWord) (hw : w < 2 ^ 32) : putFields l v w < 2 ^ 32 := by
  induction l generalizing w with
  | nil => exact hw
  | cons f t ih =>
    exact ih _ (fun g hg => hl g (List.mem_cons_of_mem _ hg)) (putField_lt f v w (hl f (List.mem_cons_self ..)) hw)

theorem putFields_kept (l : List Fld) (v w : Nat) (h : ∀ f ∈ l, f.acc ≠ .rw ∧ f.acc ≠ .rw1c ∧ f.acc ≠ .rw1s) :
    putFields l v w = w := by
  induction l with
  | nil => rfl
  | cons f t ih =>
    rw [putFields, List.foldl_cons, putField_kept f v w (h f (List.mem_cons_self ..))]
    exact ih fun g hg => h g (List.mem_cons_of_mem _ hg)

theorem bitsOf_putFields_apart (l : List Fld) (f : Fld) (v w : Nat) (ho : ∀ g ∈ l, g.off = f.off) (h : ∀ g ∈ l, g.Apart f) :
    bitsOf (putFields l v w) f.hi f.lo = bitsOf w f.hi f.lo := by
  induction l generalizing w with
  | nil => rfl
  | cons g t ih =>
    have hg := bitsOf_putField_apart f g v w (ho g (List.mem_cons_self ..)) (h g (List.mem_cons_self ..))
    exact (ih _ (fun x hx => ho x (List.mem_cons_of_mem _ hx)) fun x hx => h x (List.mem_cons_of_mem _ hx)).trans hg

/-- A field of a list of fields that share no bit holds what its own access code says. -/
theorem bitsOf_putFields_mem (l : List Fld) (f : Fld) (v w : Nat) (hl : l.Pairwise Fld.Apart) (ho : ∀ g ∈ l, g.off = f.off)
    (hf : f ∈ l) : bitsOf (putFields l v w) f.hi f.lo = f.afterWrite (bitsOf w f.hi f.lo) (bitsOf v f.hi f.lo) := by
  induction l generalizing w with
  | nil => cases hf
  | cons g t ih =>
    obtain ⟨hg, ht⟩ := List.pairwise_cons.mp hl
    have hot : ∀ x ∈ t, x.off = f.off := fun x hx => ho x (List.mem_cons_of_mem _ hx)
    rcases List.mem_cons.mp hf with rfl | hft
    · exact (bitsOf_putFields_apart t f v _ hot fun x hx => (hg x hx).symm).trans (bitsOf_putField_same f v w)
    · have hgf := bitsOf_putField_apart f g v w (ho g (List.mem_cons_self ..)) (hg f hft)
      exact (ih (putField g v w) ht hot hft).trans (by rw [hgf])

/-- The word that a write stores. -/
theorem rd_storeWord_same (s : State) (k : PageKind) (i off v : Nat) :
    rd (storeWord s k i off v) k i off = putFields (fieldsAt k off) v (rd s k i off) := by
  have hr := resetWord_lt k off
  rw [storeWord, rd_wr_same _ _ _ _ _ hr,
    Nat.mod_eq_of_lt (putFields_lt _ v _ (fieldsAt_inWord k off) (rd_lt s k i off hr))]

theorem rd_storeWord_ne (s : State) (k l : PageKind) (i j off o v : Nat) (h : pageBase l j + o ≠ pageBase k i + off) :
    rd (storeWord s k i off v) l j o = rd s l j o := rd_wr_ne s k l i j off o _ h

/-- In a register that holds one of a page's own fields, a write acts through the page's own fields alone. -/
theorem putFields_fieldsAt (k : PageKind) (f : Fld) (v w : Nat) (hf : f ∈ pageFields k) :
    putFields (fieldsAt k f.off) v w = putFields ((pageFields k).filter (fun g => g.off = f.off)) v w := by
  obtain ⟨hen, hout, hlock⟩ := pageFields_off k f hf
  have hdr : putFields (tabHdr.filter (fun g => g.off = f.off)) v w = w := putFields_kept _ v w fun g hg => by
    obtain ⟨hg, ho⟩ := List.mem_filter.mp hg
    exact tabHdr_kept g hg (of_decide_eq_true ho ▸ hlock)
  rw [fieldsAt, if_neg hen, if_neg hout, fieldsOf, List.filter_append, putFields, List.foldl_append]
  exact congrArg (putFields _ v) hdr

/-- Each of a page's own fields holds after a write what its access code says (R12). -/
theorem getF_storeWord_same (s : State) (k : PageKind) (i v : Nat) (f : Fld) (hf : f ∈ pageFields k) :
    getF (storeWord s k i f.off v) k i f = f.afterWrite (getF s k i f) (bitsOf v f.hi f.lo) := by
  unfold getF
  rw [rd_storeWord_same, putFields_fieldsAt k f v _ hf]
  exact bitsOf_putFields_mem _ f v _ ((pageFields_apart k).filter _)
    (fun g hg => of_decide_eq_true (List.mem_filter.mp hg).2) (List.mem_filter.mpr ⟨hf, decide_eq_true rfl⟩)

/-- Settles O4: the fields of a register share no bit, so each one's access code alone decides what it holds. -/
theorem writesFollowTheAccessCodes : Obligations.WritesFollowTheAccessCodes := by
  unfold Obligations.WritesFollowTheAccessCodes
  intro k i v f s hf
  have hget := getF_storeWord_same s k i v f hf
  refine ⟨fun h => ?rw, fun h => ?rw1c, fun h => ?rw1s, fun hw hc hs => hget.trans (f.afterWrite_kept _ _ ⟨hw, hc, hs⟩),
    fun l j o => rd_storeWord_ne s k l i j f.off o v, rfl⟩
  all_goals rw [hget, Fld.afterWrite, h]

end Sys2Proof.Machine
end

section
/-! PROOFS. Accesses that pass every check: writes, reads and ERR_CLR through a page in RUN (00_scope.md R12;
02_register_pages.md R57). -/

namespace Sys2Proof.Machine

theorem exec_registerWrite_open (p : Path) (k : PageKind) (i off v : Nat) (s : State) (hp : pageIs k i = true)
    (ho : off < 0x1000) (h4 : off % 4 = 0) (hd : regDefined k off = true) (hw : regWritable k off = true) (h : RegOpen s p k i) :
    exec (.registerWrite p (regAddr k i off) v) s =
      .next (settle (emit (doWrite s p k i off (v % 2 ^ 32)) (.access (regAddr k i off) 0 0))) :=
  congrArg done (writeReg_open p k i off v s hp ho h4 hd hw h)

theorem exec_rcRead_open (p : Path) (k : PageKind) (i off : Nat) (s : State) (hp : pageIs k i = true) (ho : off < 0x1000)
    (h4 : off % 4 = 0) (hd : regDefined k off = true) (hm : s.mode = .run) (hs : p.isSb = false) :
    exec (.rcRead p (regAddr k i off)) s =
      .next (settle (emit (readEffect s k i off) (.access (regAddr k i off) 0 (readValue s k i off)))) :=
  congrArg done (readReg_open p k i off s hp ho h4 hd hm hs)

/-- ERR_CLR is a write of CTRL with bit 31 set. -/
theorem exec_errClr_eq (p : Path) (k : PageKind) (i v : Nat) (s : State) :
    exec (.errClr p (pageNo k i) v) s = exec (.registerWrite p (regAddr k i 0x010) (2 ^ 31 + v % 2 ^ 31)) s := rfl

/-- The common header's registers but for CTRL and LOCK store what is written under the access codes. -/
theorem doWrite_header (s : State) (p : Path) (k : PageKind) (i off v : Nat) (hh : off < 0x100) (hc : off ≠ 0x010)
    (hl : off ≠ 0x038) : doWrite s p k i off v = storeWord s k i off v := by
  unfold doWrite
  rw [if_neg (by omega), if_neg hl, if_neg hc]

/-- CTRL of a page that gives its bits no effect of their own. -/
theorem doWrite_ctrl (s : State) (p : Path) (k : PageKind) (i v : Nat) (ht : k ≠ .tf) (hm : k ≠ .mcc) (hc : k ≠ .ccc) :
    doWrite s p k i 0x010 v = storeCtrl s p k i v := by
  unfold doWrite
  rw [if_neg (by decide), if_neg (by decide), if_pos rfl]
  split
  · exact absurd rfl ht
  · exact absurd rfl hm
  · exact absurd rfl hc
  · rfl

/-- With no lock of the page in force, ERR_CLR re-arms capture and CTRL is stored. -/
theorem storeCtrl_errClr (s : State) (p : Path) (k : PageKind) (i v : Nat) (hv : v / 2 ^ 31 % 2 = 1)
    (h : p.isFw = true ∨ rd s k i 0x038 = 0) : storeCtrl s p k i v = storeWord (errClr s k i) k i 0x010 v := by
  have hlock : (!p.isFw && decide (rd s k i 0x038 % 2 = 1)) = false := by
    rcases h with h | h <;> simp [h]
  simp only [storeCtrl, hv, hlock, if_true, Bool.false_eq_true, if_false]

/-- The pages none of whose registers has an effect of its own when read. -/
theorem readEffect_plain (s : State) (k : PageKind) (i off : Nat) (h : k ∉ [.pwr, .recd, .mtr, .sea, .gpio]) :
    readEffect s k i off = clearRc s k i off := by
  unfold readEffect
  split <;> simp at h ⊢

theorem readValue_plain (s : State) (k : PageKind) (i off : Nat) (h : k ∉ [.pwr, .recd, .mtr, .sea, .gpio]) :
    readValue s k i off = regWord s k i off &&& readMask k off := by
  unfold readValue
  split <;> simp at h ⊢

/-- Settles O12: an access of an open page passes every check of R72, and its effect is the register's own. -/
theorem accessesComplete : Obligations.AccessesComplete := by
  unfold Obligations.AccessesComplete
  intro p k i off v s h hp ho h4 hd
  have hread := exec_rcRead_open p k i off s hp ho h4 hd h.1 h.2.1
  refine ⟨fun hw => ?_, hread, fun hk => ?_, fun hctrl hw => ?_⟩
  · have hwrite := exec_registerWrite_open p k i off v s hp ho h4 hd hw h
    exact ⟨hwrite, fun hh hc hl => by rw [hwrite, doWrite_header s p k i off _ hh hc hl]⟩
  · rw [hread, readEffect_plain s k i off hk, readValue_plain s k i off hk]
  · subst hctrl
    have hclr := exec_registerWrite_open p k i 0x010 (2 ^ 31 + v % 2 ^ 31) s hp ho h4 hd hw h
    rw [← exec_errClr_eq] at hclr
    refine ⟨hclr, fun ht hm hc => ?_⟩
    rw [hclr, doWrite_ctrl s p k i _ ht hm hc, storeCtrl_errClr s p k i _ (by omega) h.2.2, errClr]

end Sys2Proof.Machine
end

section
/-! PROOFS. Nimbus links: what a change of one direction leaves, what a receiver makes of 256 bytes that arrive, and how a
replay is asked for and answered (01_part_and_chiplets.md R26, R29–R33, R38). -/

namespace Sys2Proof.Machine

/-! ### One direction of a link -/

@[simp] theorem NimLink.setDir_state (l : NimLink) (w : NimWay) (d : NimDir) : (l.setDir w d).state = l.state := by
  cases w <;> rfl

@[simp] theorem NimLink.dir_setDir (l : NimLink) (w : NimWay) (d : NimDir) : (l.setDir w d).dir w = d := by
  cases w <;> rfl

@[simp] theorem NimLink.dir_flip_setDir (l : NimLink) (w : NimWay) (d : NimDir) :
    (l.setDir w d).dir w.flip = l.dir w.flip := by
  cases w <;> rfl

@[simp] theorem nim_modNimDir (s : State) (n : Nat) (w : NimWay) (f : NimDir → NimDir) :
    nim (modNimDir s n w f) n = (nim s n).setDir w (f ((nim s n).dir w)) := nim_setNim ..

/-- The ACK that a direction's frames carry is of the opposite receiver (R26). -/
@[simp] theorem nimAck_setDir (l : NimLink) (w : NimWay) (d : NimDir) : nimAck (l.setDir w d) w = nimAck l w := by
  unfold nimAck
  rw [NimLink.dir_flip_setDir]

/-! ### Receiving -/

section Receiving
variable {s : State} {n : Nat} {w : NimWay} {b : List Nat}

/-- A receiver that is aligned takes a frame with the sync word at its phase, and looks at the CRC (R30, R31). -/
theorem nimFrameIn_aligned (hup : (nim s n).state = .up) (hh : ((nim s n).dir w).hunting = false)
    (hc : ((nim s n).dir w).confirm = false) (hs : nimHasSync b = true) :
    nimFrameIn n w ((nim s n).dir w).phase b s = if nimCrcOk b then nimGood s n w b else nimCrcFail s n w := by
  simp [nimFrameIn, hup, hh, hc, hs]

/-- No sync word at the phase of a receiver that does not hunt is a loss of sync (R30). -/
theorem nimFrameIn_noSync {phase : Nat} (hup : (nim s n).state = .up) (hh : ((nim s n).dir w).hunting = false)
    (h : nimHasSync b = false ∨ phase ≠ ((nim s n).dir w).phase) : nimFrameIn n w phase b s = nimSyncLoss s n w := by
  have hno : ¬(nimHasSync b = true ∧ phase = ((nim s n).dir w).phase) := fun ⟨hs, hp⟩ =>
    h.elim (fun hf => by simp [hf] at hs) (fun hne => hne hp)
  simp only [nimFrameIn, hup, hh, hno, if_false, Bool.false_eq_true]

/-- A good data frame frees what its ACK names and is then delivered or discarded (R26, R29). -/
theorem nimGood_data (ht : bitsOf (ofLe ((b.drop 4).take 8)) 19 16 = 0) :
    nimGood s n w b = nimData (modNimDir s n w.flip (fun d => nimAcked d (bitsOf (ofLe ((b.drop 4).take 8)) 15 8))) n w
      (bitsOf (ofLe ((b.drop 4).take 8)) 7 0) (nimMsgOf b) := by
  simp only [nimGood, ht]

theorem nimCrcFail_up (hup : (nim s n).state = .up) : nimCrcFail s n w = nimEvent (modNimDir
    (raise (bump s .nim n (nimHalf F.NIM_CRC_FAIL_TILE_RX F.NIM_CRC_FAIL_HUB_RX w)) .nim n F.NIM_INT_RAW_CRC_FAIL) n w
    (fun d => { d with confirm := true })) n w := if_pos hup

theorem nimSyncLoss_up (hup : (nim s n).state = .up) : nimSyncLoss s n w = nimEvent (modNimDir
    (raise (bump s .nim n (nimHalf F.NIM_SYNC_LOSS_TILE_RX F.NIM_SYNC_LOSS_HUB_RX w)) .nim n F.NIM_INT_RAW_SYNC_LOSS) n w
    (fun d => { d with hunting := true, seen := none, confirm := false })) n w := if_pos hup

/-! ### Asking for a replay -/

theorem replayRequest_up (seq : Nat) (hup : (nim s n).state = .up) :
    replayRequest n w seq s = modNimDir s n w (fun d => nimResend d seq) := if_pos hup

/-- A request that is overdue on an UP link is sent again and is a link event (R32, R33). -/
theorem replayTimeout_up {t : Nat} (hr : ((nim s n).dir w).request = some t) (ht : t ≤ s.now) (hup : (nim s n).state = .up) :
    replayTimeout n w s = nimEvent (nimAsk s n w) n w := by
  simp [replayTimeout, hr, ht, hup]

/-- One that is overdue while the link retrains is counted alone (R33, R34). -/
theorem replayTimeout_retrain {t : Nat} (hr : ((nim s n).dir w).request = some t) (ht : t ≤ s.now)
    (hre : (nim s n).state = .retrain) : replayTimeout n w s = nimCountAsk s n w := by
  simp [replayTimeout, hr, ht, hre]

end Receiving

/-- Settles O10: each arrival on an UP link is good, damaged or without sync, and each request is answered or overdue. -/
theorem linkReceives : Obligations.LinkReceives := by
  unfold Obligations.LinkReceives
  refine ⟨fun n w b s hup hh => ⟨fun hc hs => ⟨fun hcrc ht => ?good, fun hcrc => ?damaged⟩, fun phase hp => ?noSync⟩,
    fun n w seq s hup => congrArg done (replayRequest_up seq hup),
    fun n w t s hr ht => ⟨fun hup => congrArg done (replayTimeout_up hr ht hup),
      fun hre => congrArg done (replayTimeout_retrain hr ht hre)⟩⟩
  case good =>
    refine congrArg done ((nimFrameIn_aligned hup hh hc hs).trans ?_)
    rw [if_pos hcrc, nimGood_data ht, nimData, nim_modNimDir_flip]
  case damaged =>
    refine congrArg done ((nimFrameIn_aligned hup hh hc hs).trans ?_)
    rw [if_neg (by simp [hcrc]), nimCrcFail_up hup]
  case noSync => exact congrArg done ((nimFrameIn_noSync hup hh hp).trans (nimSyncLoss_up hup))

end Sys2Proof.Machine
end

section
/-! PROOFS. Nimbus links: what a transmitter sends in a frame slot, how a training attempt ends, and how firmware starts a
retrain (01_part_and_chiplets.md R27, R28, R34–R36). -/

namespace Sys2Proof.Machine

/-! ### Sending -/

/-- What a block hands over at a frame slot waits behind what waited already. -/
def nimOffer (n : Nat) (w : NimWay) (offer : Option NimMsg) (s : State) : State :=
  modNimDir s n w (fun d => { d with waiting := d.waiting ++ offer.toList })

theorem nimOffer_none (n : Nat) (w : NimWay) (s : State) : nimOffer n w none s = modNimDir s n w id := by
  simp [nimOffer, modNimDir]

@[simp] theorem nim_nimOffer (n : Nat) (w : NimWay) (offer : Option NimMsg) (s : State) : nim (nimOffer n w offer s) n =
    (nim s n).setDir w { (nim s n).dir w with waiting := ((nim s n).dir w).waiting ++ offer.toList } := nim_modNimDir ..

section Slot
variable {s : State} {n : Nat} {w : NimWay} {offer : Option NimMsg}

/-- A frame that is to be resent goes first (R28, R32). -/
theorem nimTx_resend {p : Nat × NimMsg} {t : List (Nat × NimMsg)} (hup : (nim s n).state = .up)
    (hr : ((nim s n).dir w).resend = p :: t) : nimTx n w offer s =
      emit (modNimDir (nimOffer n w offer s) n w (fun d => { d with resend := t }))
        (.nimFrame n w (nimFrame 0 p.1 (nimAck (nim s n) w) p.2)) := by
  simp [nimTx, nimOffer, hup, hr]

/-- The next data frame takes the next sequence number and is kept, while fewer than 64 are unacknowledged (R28). -/
theorem nimTx_next {m : NimMsg} {t : List NimMsg} (hup : (nim s n).state = .up) (hr : ((nim s n).dir w).resend = [])
    (hw : ((nim s n).dir w).waiting ++ offer.toList = m :: t) (hk : ((nim s n).dir w).retry.length < 64) :
    nimTx n w offer s = emit (modNimDir (nimOffer n w offer s) n w (fun d =>
        { d with waiting := t, retry := d.retry ++ [(d.nextSeq, m)], nextSeq := (d.nextSeq + 1) % 256 }))
      (.nimFrame n w (nimFrame 0 ((nim s n).dir w).nextSeq (nimAck (nim s n) w) m)) := by
  simp [nimTx, nimOffer, hup, hr, hw, hk]

/-- With 64 frames unacknowledged, or nothing to send, an idle frame fills the slot (R27, R28). -/
theorem nimTx_idle (hup : (nim s n).state = .up) (hr : ((nim s n).dir w).resend = [])
    (hi : ((nim s n).dir w).waiting ++ offer.toList = [] ∨ 64 ≤ ((nim s n).dir w).retry.length) :
    nimTx n w offer s = nimSendFree (nimOffer n w offer s) n w 1 := by
  cases hw : ((nim s n).dir w).waiting ++ offer.toList with
  | nil => simp [nimTx, nimOffer, hup, hr, hw]
  | cons m t =>
    have hk : ¬((nim s n).dir w).retry.length < 64 := Nat.not_lt.mpr (hi.resolve_left (by simp [hw]))
    simp [nimTx, nimOffer, hup, hr, hw, hk]

/-- Offering a frame changes neither the free values nor what the slot's frame acknowledges. -/
theorem nimSendFree_nimOffer (type : Nat) : nimSendFree (nimOffer n w offer s) n w type =
    emit { nimOffer n w offer s with free := s.free + 1 }
      (.nimFrame n w (nimFrame type ((Config.freeWord s.free).toNat % 256) (nimAck (nim s n) w) nimNone)) := by
  have hack : nimAck (nim (nimOffer n w offer s) n) w = nimAck (nim s n) w := by rw [nim_nimOffer, nimAck_setDir]
  rw [← hack]
  rfl

end Slot

/-! ### Training attempts -/

section Training
variable {s : State} {n : Nat}

/-- A successful attempt is counted, brings the link UP and lets the waiting results cross (R34). -/
theorem trainingEnd_success (p : Phases) (hre : (nim s n).state = .retrain) :
    trainingEnd n (some p) s = deliverResults (nimUp (bump s .nim n F.NIM_RETRAIN_DONE) n p.tile p.hub) n := if_pos hre

/-- A failed attempt with fewer than two failed before it is counted (R35). -/
theorem trainingEnd_failure (hre : (nim s n).state = .retrain) (hf : (nim s n).fails < 2) :
    trainingEnd n none s = setNim (bump s .nim n F.NIM_RETRAIN_FAILED) n { nim s n with fails := (nim s n).fails + 1 } := by
  have hlt : (nim s n).fails + 1 < 3 := Nat.succ_lt_succ hf
  simp [trainingEnd, hre, hlt]

/-- The third failed attempt in a row takes the tile out of service (R35). -/
theorem trainingEnd_thirdFailure (hre : (nim s n).state = .retrain) (hf : 2 ≤ (nim s n).fails) : trainingEnd n none s =
    tileOut (dropResults (raise (setNim (bump s .nim n F.NIM_RETRAIN_FAILED) n { nim s n with state := .failed, fails := 3 })
      .nim n F.NIM_INT_RAW_LINK_FAIL) n) n := by
  have hlt : ¬(nim s n).fails + 1 < 3 := by omega
  simp [trainingEnd, hre, hlt]

end Training

/-! ### Retrain requests -/

/-- A receiver that a retrain has stopped: it neither hunts nor has an alignment to confirm (R34). -/
def NimDir.stopped (d : NimDir) : NimDir := { d with hunting := false, seen := none, confirm := false }

theorem nimStart_up {s : State} {n : Nat} (hup : (nim s n).state = .up) :
    nimStart s n = raise (setNim s n ⟨.retrain, (nim s n).toTile.stopped, (nim s n).toHub.stopped, [], 0⟩)
      .nim n F.NIM_INT_RAW_RETRAIN := if_pos hup

/-- The end that starts a retrain of an UP link sends a retrain request (R34, R36). -/
theorem nimRetrain_up {s : State} {n : Nat} {w : NimWay} (hup : (nim s n).state = .up) :
    nimRetrain s n w = nimSendFree (nimStart s n) n w 3 := if_pos hup

theorem odd_or_one_mod_word (v : Nat) : (v ||| 1) % 2 ^ 32 % 2 = 1 := by
  rw [Nat.mod_mod_of_dvd _ (by decide), Nat.or_mod_two_eq_one]
  exact Or.inr rfl

/-- A write of a page's own register, outside the common header. -/
theorem doWrite_block (s : State) (p : Path) (k : PageKind) (i off v : Nat) (h : 0x100 ≤ off) :
    doWrite s p k i off v = blockWrite s k i off v := if_pos h

/-- A write of LINK_CTRL with RETRAIN_REQ set (R36). -/
theorem blockWrite_retrainReq (s : State) (i v : Nat) (h : v % 2 = 1) :
    blockWrite s .nim i 0x100 v = nimRetrain (storeWord s .nim i 0x100 v) i .toTile := if_pos h

/-- RETRAIN_REQ stores its register's word and starts a retrain from the hub's end. -/
theorem writeReg_retrainReq {s : State} {p : Path} {n : Fin 4} (v : Nat) (h : RegOpen s p .nim n) :
    writeReg p .nim n 0x100 (v ||| 1) s = emit (nimRetrain (storeWord s .nim n 0x100 ((v ||| 1) % 2 ^ 32)) n .toTile)
      (.access (regAddr .nim n 0x100) 0 0) := by
  rw [writeReg_open p .nim n 0x100 (v ||| 1) s (pageIs_nim n) (by decide) (by decide) (by decide) (by decide) h]
  rw [doWrite_block _ _ _ _ _ _ (by decide), blockWrite_retrainReq _ _ _ (odd_or_one_mod_word v)]

/-- Settles O11: one case for each thing that a slot can carry and each way an attempt can end. -/
theorem linkSends : Obligations.LinkSends := by
  unfold Obligations.LinkSends
  refine ⟨fun n w s hup => ⟨fun p t hr => ?resend, fun m hr hw hk => ?next, fun m hr hw hk => ?full, fun hr hw => ?nothing⟩,
    fun n tp hp s hre => ⟨congrArg done (trainingEnd_success ⟨tp, hp⟩ hre),
      fun hf => congrArg done (trainingEnd_failure hre hf), fun hf => congrArg done (trainingEnd_thirdFailure hre hf)⟩,
    fun p n v s h => ?request⟩
  case resend =>
    refine congrArg done ((nimTx_resend hup hr).trans ?_)
    rw [nimOffer_none]
    rfl
  case next => exact congrArg done (nimTx_next hup hr (by simp [hw]) hk)
  case full => exact congrArg done ((nimTx_idle hup hr (Or.inr hk)).trans (nimSendFree_nimOffer 1))
  case nothing =>
    refine congrArg done ((nimTx_idle hup hr (Or.inl (by simp [hw]))).trans ?_)
    rw [nimSendFree_nimOffer, nimOffer_none]
    rfl
  case request =>
    obtain ⟨hopen, hup⟩ := h
    have hup1 : (nim (storeWord s .nim n 0x100 ((v ||| 1) % 2 ^ 32)) n).state = .up := hup
    refine congrArg done ((writeReg_retrainReq v hopen).trans ?_)
    rw [nimRetrain_up hup1, nimStart_up hup1]
    rfl

end Sys2Proof.Machine
end

section
/-! PROOFS. What ends on a lane: descriptors that arrive, reads, programs and erases that end, operations over their time,
and calibration (01_part_and_chiplets.md R34; 09_flash_lanes_thyme.md R371, R379–R381, R388). -/

namespace Sys2Proof.Machine

/-! ### Descriptors and operations that end -/

section Ends
variable {s : State} {d : Nat} {o : FlashOp}

/-- Over a link that is up, the oldest descriptor on its way arrives (R34, R379). -/
theorem laneDescriptor_arrives {t : List FlashOp} (hd : (dieAt s d).descs = o :: t) (hl : linkCarries s d = true) :
    laneDescriptor d s = fillPlaces (arrive (modDie s d (fun x => { x with descs := t })) d o) d := by
  simp [laneDescriptor, hd, hl]

/-- What whoever asked for a read learns when its data has crossed the bus (R379). -/
def readReaches (s : State) (d : Nat) : Owner → State
  | .climb g => descReadDone s g
  | .raw h w pos => { s with raws := s.raws.map (fun x =>
      if x.band = h && x.row = w && x.mem = pos then { x with left := x.left - 1 } else x) }
  | .diag => { s with lanes := mset s.lanes (laneOfDie d) { mgetD s.lanes (laneOfDie d) {} with diagRead := true } }
  | _ => s

/-- A read that is ready crosses the bus and is counted at its block (R379). -/
theorem readComplete_read (hc : (dieAt s d).cur = some o) (hk : o.kind = .read) : readComplete d s =
    nextOp (readReaches (countRead (busOut (endCur s d) d (readCycles s d o)) o.pua) d o.owner) d := by
  have hr : o.isRead = true := decide_eq_true hk
  cases ho : o.owner <;> simp only [readComplete, readReaches, hc, hr, ho, Bool.not_true, Bool.false_eq_true, if_false]

/-- A program's result reaches the hub, or waits for the end of the link's retrain, and a failed one is reported (R34,
R388). -/
theorem programComplete_prog {h r pos : Nat} (ok : Bool) (hc : (dieAt s d).cur = some o) (ho : o.owner = .prog h r pos) :
    let l := laneOfDie d
    let s1 := if ok then endCur s d
      else blockError (bump (endCur s d) .lan l F.LAN_FAILS_PROGRAM) .lan l 1 1 (o.pua % 2 ^ 32) (o.pua / 2 ^ 32)
    programComplete d ok s = nextOp
      (if resultsWait s d then holdResult s1 d (.prog h r pos ok) else pump (progResult s1 h r pos ok)) d := by
  simp only [programComplete, hc, ho]

/-- An erase's result reaches the hub, or waits for the end of the link's retrain, and a failed one is reported (R34,
R388). -/
theorem eraseComplete_erase {die blk : Nat} (ok : Bool) (hc : (dieAt s d).cur = some o) (ho : o.owner = .erase die blk) :
    let l := laneOfDie d
    let p := mkPua d 0 blk 0
    let s1 := if ok then endCur s d
      else blockError (bump (endCur s d) .lan l F.LAN_FAILS_ERASE) .lan l 2 2 (p % 2 ^ 32) (p / 2 ^ 32)
    eraseComplete d ok s = nextOp
      (if resultsWait s d then holdResult s1 d (.erase die blk ok) else pump (eraseResult s1 die blk ok)) d := by
  simp only [eraseComplete, hc, ho]

end Ends

/-! ### Operations over their time (R381) -/

section Overdue
variable {s : State} {d : Nat}

/-- The LUN is reset, and the operation and one that is suspended end without a result. -/
theorem operationTimeout_overdue {o : FlashOp} (hc : (dieAt s d).cur = some o) (ht : timedOut s d = true)
    (hr : (dieAt s d).resetAt = none) :
    let l := laneOfDie d
    let s1 := modDie (blockError (bump s .lan l F.LAN_TIMEOUTS_COUNT) .lan l 3 3 (o.pua % 2 ^ 32) (o.pua / 2 ^ 32)) d
      (fun x => { x with cur := none, sus := none, suspSent := false, resetAt := some s.now, gatherAt := none })
    operationTimeout d s =
      pump ((o :: (dieAt s d).sus.toList).foldl opEnds (emit (busOut s1 d [0xFA]) (.lane l "reset" d))) := by
  simp only [operationTimeout, hc, ht, hr, Option.isNone_none, Bool.and_self, if_true]

theorem resetLunReady_reset (hr : (dieAt s d).resetAt ≠ none) : resetLunReady d s =
    nextOp (modDie s d (fun x => { x with resetAt := none, st := .idle })) d := if_pos (Option.isSome_iff_ne_none.mpr hr)

/-- A LUN that is not ready 10 ms after its reset is reported, and its flash die leaves service. -/
theorem lunStuck_overdue {t : Nat} (hr : (dieAt s d).resetAt = some t) (ht : t + 10000000 ≤ s.now) :
    lunStuck d s = pump (dieLeaves (raise (blockError s .lan (laneOfDie d) 4 6 (d * 2 ^ 26 % 2 ^ 32) (d * 2 ^ 26 / 2 ^ 32))
      .lan (laneOfDie d) F.LAN_INT_RAW_DIE_FAULT) d) := by
  simp only [lunStuck, hr, ht, if_true]

end Overdue

/-! ### Calibration (R371) -/

section Calibration
variable {s : State} {l : Nat} (hs : laneInService s l = true)
include hs

theorem zqCalShort_due (hz : (mgetD s.lanes l {}).zqAt + 128000000 ≤ s.now) :
    zqCalShort l s = (cePop s l).foldl (fun s c => emit (emit s (.bus l [0xD9])) (.lane l "ZQ_SHORT" c))
      { s with lanes := mset s.lanes l { mgetD s.lanes l {} with zqAt := s.now } } :=
  if_pos (by simp [hs, hz])

/-- A populated CE_n trains when it never has, or when the temperature has moved 8 °C since. -/
theorem readDqTrain_moved {ce : Nat} {temp : Int} (hce : ce ∈ cePop s l)
    (hm : ∀ t, mget (mgetD s.lanes l {}).trainedAtC ce = some t → 1024 ≤ (temp - t).natAbs) :
    readDqTrain l ce temp s = emit { s with lanes := mset s.lanes l { mgetD s.lanes l {} with
      trainedAtC := mset (mgetD s.lanes l {}).trainedAtC ce temp } } (.lane l "READ_DQ_TRAIN" ce) := by
  cases ht : mget (mgetD s.lanes l {}).trainedAtC ce with
  | none => simp [readDqTrain, hs, hce, ht]
  | some t => simp [readDqTrain, hs, hce, ht, hm t ht]

end Calibration

/-- Settles O45: one lemma for each thing that can end on a lane. -/
theorem lanesComplete : Obligations.LanesComplete := by
  unfold Obligations.LanesComplete
  refine fun d s => ⟨fun o t hd hl => congrArg done (laneDescriptor_arrives hd hl), fun o hc hk => ?read,
    fun o h r pos ok hc ho => congrArg done (programComplete_prog ok hc ho),
    fun o die blk ok hc ho => congrArg done (eraseComplete_erase ok hc ho),
    fun o hc ht hr => congrArg done (operationTimeout_overdue hc ht hr),
    fun hr => congrArg done (resetLunReady_reset hr),
    fun t hr ht => congrArg done (lunStuck_overdue hr ht),
    fun n hs => ⟨fun hz => congrArg done (zqCalShort_due hs hz),
      fun ce hce temp hm => congrArg done (readDqTrain_moved hs hce hm)⟩⟩
  case read =>
    refine congrArg done ((readComplete_read hc hk).trans ?_)
    cases o.owner <;> rfl

end Sys2Proof.Machine
end

section
/-! PROOFS. Results of decoding: hard decodes, soft passes and the samples of word lines, each at once or after the
retrain of its tile's link (01_part_and_chiplets.md R34; 10_signal_channel.md R414, R416–R421, R425, R426). -/

namespace Sys2Proof.Machine

/-- A step succeeds: the decoder converged, and the codeword's metadata verifies for every reader (R420). -/
abbrev stepSucceeds (s : State) (c : Climb) (conv : Bool) : Bool := conv && c.readers.all (verifies s (climbWord s c))

/-! ### Hard decodes -/

section Hard
variable {s : State} {id : Nat} {c : Climb} {conv : Bool} {zeros : Nat} (hc : mget s.climbs id = some c)
include hc

theorem hardDecodeDone_now (hw : resultsWait s (puaDie c.pua) = false) :
    hardDecodeDone id conv zeros s = hardResult id conv zeros s := by
  simp [hardDecodeDone, hc, hw]

variable (hd : c.decoding = true) (hs : c.step ≤ 3)
include hd hs

/-- While the link retrains a hard decode's result waits for its end (R34). -/
theorem hardDecodeDone_held (hw : resultsWait s (puaDie c.pua) = true) : hardDecodeDone id conv zeros s =
      holdResult (modClimb s id (fun c => { c with decoding := false })) (puaDie c.pua) (.hard id conv zeros) := by
  simp [hardDecodeDone, hc, hd, hs, hw]

/-- An erased codeword ends its climb (R421). -/
theorem hardResult_erased (hz : zeros ≤ c.erasedThr) : hardResult id conv zeros s =
      if c.readers.all (·.isPatrol) then dropClimb s id else climbUnc s id c true := by
  simp [hardResult, hc, hd, Nat.not_lt.mpr hs, hz]

/-- A codeword with which the step succeeds ends its climb, and the tracked set is judged (R416, R418). -/
theorem hardResult_good (hz : c.erasedThr < zeros) (hg : stepSucceeds s c conv = true) :
    hardResult id conv zeros s = climbOk (if c.step = 1 then trackReset s (puaDie c.pua)
      else trackHit s (puaDie c.pua) (if c.step = 2 then 0 else c.set) c.trackHits) id c (climbWord s c) := by
  simp only [hardResult, hc, hd, hg, Nat.not_lt.mpr hs, Nat.not_le.mpr hz, Bool.not_true, decide_false, Bool.or_self,
    Bool.false_eq_true, if_false, if_true]

/-- Any other codeword fails the step (R418). -/
theorem hardResult_bad (hz : c.erasedThr < zeros) (hg : stepSucceeds s c conv = false) :
    hardResult id conv zeros s = climbFail s id := by
  simp only [hardResult, hc, hd, hg, Nat.not_lt.mpr hs, Nat.not_le.mpr hz, Bool.not_true, decide_false, Bool.or_self,
    Bool.false_eq_true, if_false]

end Hard

/-! ### Soft passes -/

section Soft
variable {s : State} {id : Nat} {c : Climb} {conv : Bool} {counts : List (Nat × Nat)} (hc : mget s.climbs id = some c)
include hc

theorem softPassDone_now (hw : resultsWait s (puaDie c.pua) = false) :
    softPassDone id conv counts s = softResult id conv counts s := by
  simp [softPassDone, hc, hw]

variable (ho : c.onSoft = true)
include ho

/-- While the link retrains a soft pass's result waits for its end, and the decoder takes what waits (R34, R414). -/
theorem softPassDone_held (hw : resultsWait s (puaDie c.pua) = true) : softPassDone id conv counts s = softServe (holdResult
      (modClimb s id (fun c => { c with decoding := false })) (puaDie c.pua) (.soft id conv counts)) c.tile := by
  simp [softPassDone, hc, ho, hw]

/-- A pass with which the step succeeds ends the climb and stores the blended tables (R417, R418). -/
theorem softResult_good (hg : stepSucceeds s c conv = true) : softResult id conv counts s = softServe
      (climbOk (blendTables s c (if c.refined = [] then counts.map (fun q => refinedEntry q.1 q.2) else c.refined)) id c
        (climbWord s c)) c.tile := by
  simp only [softResult, hc, ho, hg, Bool.not_true, Bool.false_eq_true, if_false, if_true]

/-- Any other pass before the last asks for another one with the refined entries (R417, R419). -/
theorem softResult_again (hg : stepSucceeds s c conv = false) (hp : c.passes + 1 < c.passMax) :
    softResult id conv counts s = softServe (softAsk (modClimb s id (fun c =>
      { c with passes := c.passes + 1, refined := counts.map (fun q => refinedEntry q.1 q.2) })) id c) c.tile := by
  simp only [softResult, hc, ho, hg, hp, Bool.not_true, Bool.false_eq_true, if_false, if_true]

/-- Any other last pass fails the step (R419). -/
theorem softResult_last (hg : stepSucceeds s c conv = false) (hp : c.passMax ≤ c.passes + 1) :
    softResult id conv counts s = softServe (climbFail s id) c.tile := by
  simp only [softResult, hc, ho, hg, Nat.not_lt.mpr hp, Bool.not_true, Bool.false_eq_true, if_false]

end Soft

/-! ### Samples of word lines -/

section Sample
variable {s : State} {h w pos diff : Nat} {ok : Bool} {b : Band}

/-- While the link retrains a sample's result waits for its end (R34). -/
theorem rawSampleDone_held (hb : bandAt s h = some b) (hw : resultsWait s (b.die pos) = true) :
    rawSampleDone h w pos diff ok s = holdResult s (b.die pos) (.sample h w pos diff ok) := by
  simp [rawSampleDone, hb, hw]

theorem rawSampleDone_now (hb : bandAt s h = some b) (hw : resultsWait s (b.die pos) = false) :
    rawSampleDone h w pos diff ok s = sampleResult h w pos diff ok s := by
  simp [rawSampleDone, hb, hw]

variable {x : RawSample} (hb : bandAt s h = some b)
  (hx : s.raws.find? (fun x => x.band = h && x.row = w && x.mem = pos && x.left = 0) = some x)
include hb hx

/-- A good sample is counted, and the last one of its group gives the group's units up (R425). -/
theorem sampleResult_good (hd : diff ≤ x.thr) (hok : ok = true) :
    let s1 := bump { s with raws := s.raws.filter (· ≠ x) } .sig (tileOfDie (b.die pos)) F.SIG_RAW_SAMPLES_COUNT
    sampleResult h w pos diff ok s =
      if s1.raws.any (fun y => y.band = h && y.mem = pos && (groupRows s b w).contains y.row) then s1
      else pump (releaseUnits s1 (unitsAt s h b (groupRows s b w) pos)) := by
  simp only [sampleResult, hx, hb, hok, Nat.not_lt.mpr hd, decide_false, Bool.not_true, Bool.or_self, Bool.false_eq_true,
    if_false]

/-- A bad sample is counted and reported, its block is suspect, and its group's units are placed anew (R426). -/
theorem sampleResult_bad (hbad : x.thr < diff ∨ ok = false) :
    let t := tileOfDie (b.die pos)
    let p := b.puaOf w pos 0
    let s1 := bump { s with raws := s.raws.filter (· ≠ x) } .sig t F.SIG_RAW_SAMPLES_COUNT
    sampleResult h w pos diff ok s = pump (placeAnew (modBlk (raise (blockError
      (bump s1 .sig t F.SIG_RAW_FAILS_COUNT) .sig t 2 (min 0xFFFF diff) (p % 2 ^ 32) (p / 2 ^ 32)) .sig t F.SIG_INT_RAW_RAW_FAIL)
        (b.die pos) (b.blk pos) (fun k => { k with suspect := k.suspect + 1 })) (unitsAt s h b (groupRows s b w) pos)) := by
  have hfail : (decide (x.thr < diff) || !ok) = true := by simpa using hbad
  simp only [sampleResult, hx, hb, hfail, if_true]

end Sample

/-- Settles O48: each result waits for the end of a retrain or is judged at once, by one lemma for each outcome. -/
theorem decodingCompletes : Obligations.DecodingCompletes := by
  unfold Obligations.DecodingCompletes
  refine ⟨fun id c conv z s hc hd hs => ⟨fun hw => congrArg done (hardDecodeDone_held hc hd hs hw), fun hw => ?hard⟩,
    fun id c conv counts s hc ho => ⟨fun hw => congrArg done (softPassDone_held hc ho hw), fun hw => ?soft⟩,
    fun h w pos diff ok b s hb => ⟨fun hw => congrArg done (rawSampleDone_held hb hw), fun x hw hx => ?sample⟩⟩
  case hard =>
    have hnow {conv : Bool} {z : Nat} := hardDecodeDone_now (conv := conv) (zeros := z) hc hw
    exact ⟨fun hz => congrArg done (hnow.trans (hardResult_erased hc hd hs hz)),
      fun hz hg => congrArg done (hnow.trans (hardResult_good hc hd hs hz hg)),
      fun hz hg => congrArg done (hnow.trans (hardResult_bad hc hd hs hz hg))⟩
  case soft =>
    have hnow := softPassDone_now (conv := conv) (counts := counts) hc hw
    exact ⟨fun hg => congrArg done (hnow.trans (softResult_good hc ho hg)),
      fun hg hp => congrArg done (hnow.trans (softResult_again hc ho hg hp)),
      fun hg hp => congrArg done (hnow.trans (softResult_last hc ho hg hp))⟩
  case sample =>
    have hnow := rawSampleDone_now (w := w) (diff := diff) (ok := ok) hb hw
    exact ⟨fun hle hok => congrArg done (hnow.trans (sampleResult_good hb hx hle hok)),
      fun hbad => congrArg done (hnow.trans (sampleResult_bad hb hx hbad))⟩

end Sys2Proof.Machine
end

section
/-! PROOFS. The lines of the part: every step ends by driving ALERT_N and FAULT_N from the registers it leaves
(02_register_pages.md R99; 19_faults_and_resets.md R684). -/

namespace Sys2Proof.Machine

/-- ALERT_N is low exactly while R99 says so. -/
abbrev AlertFollows (s : State) : Prop :=
  s.mgmt.alertLow = (decide (getF s .dir 0 F.DIR_CTRL_ALERT_EN = 1) && anyInt s)

/-- ALERT_N follows whether or not an in-band interrupt is sent with it. -/
theorem settleAlert_follows (s : State) : AlertFollows (settleAlert s) := by
  unfold settleAlert
  dsimp only
  split
  · rfl
  · rfl

/-- FAULT_N is driven last, and driving it moves nothing that ALERT_N follows. -/
theorem settleFault_linesFollow (s : State) (h : s.mode ≠ .reset → AlertFollows s) : LinesFollow (settleFault s) := ⟨h, rfl⟩

/-- The end of a step drives FAULT_N alone in a part reset and both lines in every other mode. -/
theorem settle_linesFollow (s : State) : LinesFollow (settle s) := by
  unfold settle
  dsimp only
  split
  case isTrue hreset => exact settleFault_linesFollow _ fun hrun => absurd hreset hrun
  case isFalse => exact settleFault_linesFollow _ fun _ => settleAlert_follows _

/-- Settles O2: every step answers a settled state, and settling ends by driving the lines. -/
theorem linesFollowEveryStep : Obligations.LinesFollowEveryStep := by
  unfold Obligations.LinesFollowEveryStep
  intro s t h
  obtain ⟨u, hu⟩ := step_settles s
  obtain rfl : settle u = t := Host.Outcome.next.inj (hu.symm.trans h)
  exact settle_linesFollow u

end Sys2Proof.Machine
end

section
/-! PROOFS. The interrupt summary: page numbers and pages, the bits of a sum of powers of two, and INT_OUT of a page as the
summary sees it (02_register_pages.md R60, R65, R67). -/

namespace Sys2Proof.Machine

/-- The page at a number has that number. -/
theorem pageNo_of_pageAt {n k i} (h : pageAt n = some (k, i)) : pageNo k i = n := by
  unfold pageAt at h
  split at h
  case h_26 =>
    split_ifs at h <;> cases h
    all_goals simp only [pageNo]; omega
  all_goals cases h; rfl

/-- The bits of a sum that holds the powers of two of the numbers that pass a test. -/
theorem sum_two_pow_lt_and_testBit (P : Nat → Bool) (n : Nat) :
    let x := ((List.range n).map (fun b => if P b then 2 ^ b else 0)).sum
    x < 2 ^ n ∧ ∀ j, x.testBit j = (decide (j < n) && P j) := by
  induction n with
  | zero => simp
  | succ n ih =>
    obtain ⟨hlt, hbit⟩ := ih
    have hlast : (if P n then 2 ^ n else 0) = 2 ^ n * (P n).toNat := by cases P n <;> simp
    simp only [List.range_succ, List.map_append, List.map_cons, List.map_nil, List.sum_append, List.sum_cons, List.sum_nil,
      Nat.add_zero, hlast]
    generalize ((List.range n).map (fun b => if P b then 2 ^ b else 0)).sum = x at hlt hbit
    refine ⟨?_, fun j => ?_⟩
    · have hone := Nat.mul_le_mul_left (2 ^ n) (Bool.toNat_le (P n))
      rw [Nat.pow_succ]
      omega
    · rw [Nat.add_comm, Nat.testBit_two_pow_mul_add _ hlt, hbit]
      rcases Nat.lt_trichotomy j n with hj | rfl | hj
      · simp [hj, Nat.lt_succ_of_lt hj]
      · cases P j <;> simp
      · have hhigh : (P n).toNat.testBit (j - n) = false := Nat.testBit_lt_two_pow (by
          have := Bool.toNat_lt (P n)
          have := Nat.pow_le_pow_right (n := 2) (by decide) (show 1 ≤ j - n by omega)
          omega)
        simp [hhigh, Nat.not_lt.mpr (Nat.le_of_lt hj), show ¬ j < n + 1 by omega]

theorem testBit_intSummary (s : State) (k b : Nat) : (intSummary s k).testBit b =
    (decide (b < 32) && ((pageAt (32 * k + b)).isSome && pageInt s ((32 * k + b) * 0x1000))) :=
  (sum_two_pow_lt_and_testBit _ 32).2 b

/-- No interrupt is raised or enabled at reset. -/
theorem resetWord_int (k : PageKind) : resetWord k 0x18 = 0 ∧ resetWord k 0x1C = 0 := by cases k <;> decide +kernel

/-- INT_OUT shows the bits of INT_RAW whose bits of INT_EN are set (R60). -/
theorem regWord_intOut (s : State) (k : PageKind) (i : Nat) : regWord s k i 0x20 = rd s k i 0x18 &&& rd s k i 0x1C := rfl

/-- An interrupt of a page is out exactly when INT_OUT is nonzero; a word that is not listed holds its reset word, 0. -/
theorem pageInt_iff (s : State) (k : PageKind) (i : Nat) : pageInt s (pageBase k i) = true ↔ regWord s k i 0x20 ≠ 0 := by
  obtain ⟨hraw, hen⟩ := resetWord_int k
  rw [regWord_intOut, rd, rd, pageInt, hraw, hen]
  cases mget s.regs (pageBase k i + 0x18) with
  | none => simp
  | some a => cases mget s.regs (pageBase k i + 0x1C) with
    | none => simp
    | some b => simp [← BitVec.toNat_and, BitVec.toNat_eq]

theorem regWord_intSummary (s : State) (k : Nat) (h : k < 24) : regWord s .dir 0 (0x100 + 4 * k) = intSummary s k := by
  have hle : 0x100 + 4 * k ≤ 0x15C := by omega
  simp [regWord, mgmtWord, hle]

/-- Settles O5: a bit of a summary word is the interrupt of the page of its number. -/
theorem interruptSummaryShowsInterrupts : Obligations.InterruptSummaryShowsInterrupts := by
  unfold Obligations.InterruptSummaryShowsInterrupts
  intro s k b hk hb
  rw [regWord_intSummary s k hk]
  have hbit : intSummary s k / 2 ^ b % 2 = 1 ↔ ∃ p i, pageAt (32 * k + b) = some (p, i) ∧ regWord s p i 0x20 ≠ 0 := by
    have htest := testBit_intSummary s k b
    rw [Nat.testBit_eq_decide_div_mod_eq] at htest
    rw [← decide_eq_true_iff (p := intSummary s k / 2 ^ b % 2 = 1), htest]
    cases hp : pageAt (32 * k + b) with
    | none => simp
    | some pi =>
      obtain ⟨p, i⟩ := pi
      have hpage := pageInt_iff s p i
      rw [pageBase, pageNo_of_pageAt hp] at hpage
      simpa [hb] using hpage
  refine ⟨hbit, fun hnone => ?_⟩
  have hne : intSummary s k / 2 ^ b % 2 ≠ 1 := fun h => by
    obtain ⟨p, i, hp, -⟩ := hbit.mp h
    rw [hnone] at hp
    cases hp
  omega

end Sys2Proof.Machine
end

section
/-! PROOFS. Error reports: which register words a report and ERR_CLR write, and that words of different pages never share
an address (02_register_pages.md R57; 19_faults_and_resets.md R672). -/

namespace Sys2Proof.Machine

/-! ### Register words and the pages they are in -/

/-- Two pages that exist share no register. -/
theorem page_eq_of_address_eq {k l : PageKind} {i j off o : Nat} (hk : pageIs k i = true) (hl : pageIs l j = true) (ho : off < 0x1000)
    (ho' : o < 0x1000) (h : pageBase l j + o = pageBase k i + off) : (l, j) = (k, i) := by
  have hno : pageNo l j = pageNo k i := by unfold pageBase at h; omega
  have hpk := of_decide_eq_true hk
  have hpl := of_decide_eq_true hl
  rw [hno, hpk] at hpl
  exact (Option.some.inj hpl).symm

theorem rd_wr_otherPage {k l : PageKind} {i j off o : Nat} (s : State) (v : Nat) (hk : pageIs k i = true) (hl : pageIs l j = true)
    (ho : off < 0x1000) (ho' : o < 0x1000) (hne : (l, j) ≠ (k, i)) : rd (wr s k i off v) l j o = rd s l j o :=
  rd_wr_ne _ _ _ _ _ _ _ _ fun h => hne (page_eq_of_address_eq hk hl ho ho' h)

@[simp] theorem rd_wr_self (s : State) (k : PageKind) (i off v : Nat) : rd (wr s k i off v) k i off = v % 2 ^ 32 :=
  rd_wr_same s k i off v (resetWord_lt k off)

theorem rd_wr_otherOff (s : State) (k : PageKind) (i : Nat) {off o : Nat} (v : Nat) (h : o ≠ off) :
    rd (wr s k i off v) k i o = rd s k i o := rd_wr_ne _ _ _ _ _ _ _ _ (by omega)

theorem getF_of_rd_eq {s t : State} {k : PageKind} {i : Nat} (f : Fld) (h : rd t k i f.off = rd s k i f.off) :
    getF t k i f = getF s k i f := by rw [getF, h, getF]

/-- A count writes its own register. -/
theorem bump_eq_wr (s : State) (k : PageKind) (i : Nat) (f : Fld) :
    bump s k i f = wr s k i f.off (putBits (rd s k i f.off) f.hi f.lo (min f.max (getF s k i f + 1))) := rfl

/-- A count saturates at the field's largest value. -/
theorem getF_bump_same (s : State) (k : PageKind) (i : Nat) (f : Fld) (hf : f.InWord) :
    getF (bump s k i f) k i f = min f.max (getF s k i f + 1) := by
  have hpos := Nat.two_pow_pos (f.hi + 1 - f.lo)
  rw [bump, bumpBy, getF_setF_same s k i f _ (resetWord_lt k f.off) hf.2 hf.1, Nat.mod_eq_of_lt]
  rw [Fld.max]
  omega

/-! ### A report -/

/-- The fault queue changes registers of BOOT alone. -/
theorem rd_queueReport {l : PageKind} {j o : Nat} (s : State) (page info lo hi : Nat) (hl : pageIs l j = true) (hb : l ≠ .boot)
    (ho : o < 0x1000) : rd (queueReport s page info lo hi) l j o = rd s l j o := by
  unfold queueReport
  split
  · rfl
  · split
    · rfl
    · exact rd_wr_otherPage s _ rfl hl (by decide) ho fun h => hb (congrArg Prod.fst h)

section Report

variable (s : State) (k : PageKind) (i lo hi info : Nat)

/-- The count and the capture of a report that finds capture armed. -/
def reportCaptured : State := wr (wr (wr (bump s k i F.HDR_ERR_COUNT) k i 0x028 lo) k i 0x02C hi) k i 0x030 info

/-- The counts of a report that finds a capture held. -/
def reportMissed : State := bump (bump s k i F.HDR_ERR_COUNT) k i F.HDR_ERR_OVF

theorem rd_reportCaptured : rd (reportCaptured s k i lo hi info) k i 0x030 = info % 2 ^ 32 ∧
    rd (reportCaptured s k i lo hi info) k i 0x02C = hi % 2 ^ 32 ∧ rd (reportCaptured s k i lo hi info) k i 0x028 = lo % 2 ^ 32 := by
  simp [reportCaptured, rd_wr_otherOff]

/-- Capturing writes ERR_COUNT, ERR_ADDR and ERR_INFO. -/
theorem rd_reportCaptured_otherOff {o : Nat} (h : o ∉ [0x024, 0x028, 0x02C, 0x030]) :
    rd (reportCaptured s k i lo hi info) k i o = rd s k i o := by
  simp only [List.mem_cons, List.not_mem_nil, or_false, not_or] at h
  obtain ⟨h24, h28, h2C, h30⟩ := h
  rw [reportCaptured, rd_wr_otherOff _ _ _ _ h30, rd_wr_otherOff _ _ _ _ h2C, rd_wr_otherOff _ _ _ _ h28, bump_eq_wr,
    rd_wr_otherOff _ _ _ _ h24]

theorem getF_reportCaptured_count :
    getF (reportCaptured s k i lo hi info) k i F.HDR_ERR_COUNT = min 0xFFFF (getF s k i F.HDR_ERR_COUNT + 1) := by
  rw [← show F.HDR_ERR_COUNT.max = 0xFFFF from rfl, ← getF_bump_same s k i F.HDR_ERR_COUNT (by decide)]
  exact getF_of_rd_eq _ (by simp [reportCaptured, rd_wr_otherOff])

/-- Missing a report writes ERR_COUNT and ERR_OVF. -/
theorem rd_reportMissed_otherOff {o : Nat} (h : o ≠ 0x024) (h' : o ≠ 0x034) : rd (reportMissed s k i) k i o = rd s k i o := by
  rw [reportMissed, bump_eq_wr, rd_wr_otherOff _ _ _ _ h', bump_eq_wr, rd_wr_otherOff _ _ _ _ h]

theorem getF_reportMissed : getF (reportMissed s k i) k i F.HDR_ERR_COUNT = min 0xFFFF (getF s k i F.HDR_ERR_COUNT + 1) ∧
    getF (reportMissed s k i) k i F.HDR_ERR_OVF = min 0xFFFF (getF s k i F.HDR_ERR_OVF + 1) := by
  have hovf : getF (bump s k i F.HDR_ERR_COUNT) k i F.HDR_ERR_OVF = getF s k i F.HDR_ERR_OVF :=
    getF_setF_ne _ _ _ _ _ _ _ _ (by simp)
  refine ⟨?_, (getF_bump_same _ k i F.HDR_ERR_OVF (by decide)).trans (by rw [hovf]; rfl)⟩
  exact (getF_setF_ne _ _ _ _ _ _ _ _ (by simp)).trans (getF_bump_same s k i F.HDR_ERR_COUNT (by decide))

variable {k i}

theorem rd_reportCaptured_otherPage {l : PageKind} {j o : Nat} (hk : pageIs k i = true) (hl : pageIs l j = true) (ho : o < 0x1000)
    (hne : (l, j) ≠ (k, i)) : rd (reportCaptured s k i lo hi info) l j o = rd s l j o := by
  simp [reportCaptured, bump_eq_wr, rd_wr_otherPage, hk, hl, ho, hne]

theorem rd_reportMissed_otherPage {l : PageKind} {j o : Nat} (hk : pageIs k i = true) (hl : pageIs l j = true) (ho : o < 0x1000)
    (hne : (l, j) ≠ (k, i)) : rd (reportMissed s k i) l j o = rd s l j o := by
  simp [reportMissed, bump_eq_wr, rd_wr_otherPage, hk, hl, ho, hne]

end Report

/-- A report captures or counts as missed by whether a capture is held, and then reaches the fault queue (R672). -/
theorem report_eq (s : State) (k : PageKind) (i src kind cause detail lo hi : Nat) :
    report s k i src kind cause detail lo hi = queueReport
      (if rd s k i 0x030 = 0 then reportCaptured s k i lo hi (errInfo src kind cause detail) else reportMissed s k i)
      (pageNo k i) (errInfo src kind cause detail) lo hi := by
  have hinfo : rd (bump s k i F.HDR_ERR_COUNT) k i 0x030 = rd s k i 0x030 := rd_wr_otherOff s k i _ (by decide)
  unfold report
  dsimp only
  rw [hinfo]
  rfl

/-- A page but BOOT reads after a report with capture armed as the capture leaves it. -/
theorem rd_report_armed {l : PageKind} {j o : Nat} {s : State} {k : PageKind} {i : Nat} (src kind cause detail lo hi : Nat)
    (ha : rd s k i 0x030 = 0) (hl : pageIs l j = true) (hb : l ≠ .boot) (ho : o < 0x1000) :
    rd (report s k i src kind cause detail lo hi) l j o = rd (reportCaptured s k i lo hi (errInfo src kind cause detail)) l j o := by
  rw [report_eq, if_pos ha]
  exact rd_queueReport _ _ _ _ _ hl hb ho

/-- A page but BOOT reads after a report with a capture held as the counts leave it. -/
theorem rd_report_held {l : PageKind} {j o : Nat} {s : State} {k : PageKind} {i : Nat} (src kind cause detail lo hi : Nat)
    (ha : rd s k i 0x030 ≠ 0) (hl : pageIs l j = true) (hb : l ≠ .boot) (ho : o < 0x1000) :
    rd (report s k i src kind cause detail lo hi) l j o = rd (reportMissed s k i) l j o := by
  rw [report_eq, if_neg ha]
  exact rd_queueReport _ _ _ _ _ hl hb ho

theorem errInfo_lt (src kind cause detail : Nat) : errInfo src kind cause detail < 2 ^ 32 := by unfold errInfo; omega

/-- ERR_CLR writes ERR_ADDR and ERR_INFO. -/
theorem rd_errClr (s : State) (k : PageKind) (i : Nat) : rd (errClr s k i) k i 0x030 = 0 ∧ rd (errClr s k i) k i 0x028 = 0 ∧
    rd (errClr s k i) k i 0x02C = 0 := by
  simp [errClr, rd_wr_otherOff]

theorem getF_errClr (s : State) (k : PageKind) (i : Nat) (f : Fld) (h : f.off ∉ [0x028, 0x02C, 0x030]) :
    getF (errClr s k i) k i f = getF s k i f := by
  simp only [List.mem_cons, List.not_mem_nil, or_false, not_or] at h
  obtain ⟨h28, h2C, h30⟩ := h
  exact getF_of_rd_eq f (by rw [errClr, rd_wr_otherOff _ _ _ _ h30, rd_wr_otherOff _ _ _ _ h2C, rd_wr_otherOff _ _ _ _ h28])

/-- Settles O6: what the fault queue does reaches no page but BOOT, so the words that the report wrote stand. -/
theorem reportsAreCapturedAndCounted : Obligations.ReportsAreCapturedAndCounted := by
  unfold Obligations.ReportsAreCapturedAndCounted
  intro k i src kind cause detail lo hi s hk hb t info
  obtain ⟨hclrInfo, hclrLo, hclrHi⟩ := rd_errClr s k i
  have hclr : _ ∧ _ := ⟨getF_errClr s k i F.HDR_ERR_COUNT (by decide), getF_errClr s k i F.HDR_ERR_OVF (by decide)⟩
  by_cases ha : rd s k i 0x030 = 0
  · have hread {l j o} := rd_report_armed (l := l) (j := j) (o := o) src kind cause detail lo hi ha
    have hown (o : Nat) (ho : o < 0x1000) := hread hk hb ho
    obtain ⟨hinfo, hhi, hlo⟩ := rd_reportCaptured s k i lo hi info
    rw [Nat.mod_eq_of_lt (errInfo_lt src kind cause detail)] at hinfo
    have hovf := rd_reportCaptured_otherOff s k i lo hi info (o := 0x034) (by decide)
    refine ⟨?count, fun _ => ⟨?info, ?lo, ?hi, ?ovf⟩, fun hheld => absurd ha hheld, fun l j o hl hlb ho hne => ?others,
      hclrInfo, hclrLo, hclrHi, hclr⟩
    case count => exact (getF_of_rd_eq F.HDR_ERR_COUNT (hown 0x024 (by decide))).trans (getF_reportCaptured_count ..)
    case info => exact (hown 0x030 (by decide)).trans hinfo
    case lo => exact (hown 0x028 (by decide)).trans hlo
    case hi => exact (hown 0x02C (by decide)).trans hhi
    case ovf => exact getF_of_rd_eq F.HDR_ERR_OVF ((hown 0x034 (by decide)).trans hovf)
    case others => exact (hread hl hlb ho).trans (rd_reportCaptured_otherPage _ _ _ _ hk hl ho hne)
  · have hread {l j o} := rd_report_held (l := l) (j := j) (o := o) src kind cause detail lo hi ha
    have hown (o : Nat) (ho : o < 0x1000) := hread hk hb ho
    have hstays (o : Nat) (ho : o < 0x1000) (h24 : o ≠ 0x024) (h34 : o ≠ 0x034) :=
      (hown o ho).trans (rd_reportMissed_otherOff s k i h24 h34)
    obtain ⟨hcount, hovf⟩ := getF_reportMissed s k i
    refine ⟨?count, fun h => absurd h ha, fun _ => ⟨?info, ?lo, ?hi, ?ovf⟩, fun l j o hl hlb ho hne => ?others,
      hclrInfo, hclrLo, hclrHi, hclr⟩
    case count => exact (getF_of_rd_eq F.HDR_ERR_COUNT (hown 0x024 (by decide))).trans hcount
    case info => exact hstays 0x030 (by decide) (by decide) (by decide)
    case lo => exact hstays 0x028 (by decide) (by decide) (by decide)
    case hi => exact hstays 0x02C (by decide) (by decide) (by decide)
    case ovf => exact (getF_of_rd_eq F.HDR_ERR_OVF (hown 0x034 (by decide))).trans hovf
    case others => exact (hread hl hlb ho).trans (rd_reportMissed_otherPage _ hk hl ho hne)

end Sys2Proof.Machine
end

section
/-! PROOFS. The checks of an access: what each one that fails decides, in the order of the table of R72, and what comes of it
(02_register_pages.md R72–R75). -/

namespace Sys2Proof.Machine

/-! ### The lists of fields behind the checks -/

theorem regDefined_iff (k : PageKind) (off : Nat) : regDefined k off = true ↔ ∃ f ∈ fieldsOf k, f.off = off := by
  simp [regDefined]

theorem regWritable_iff (k : PageKind) (off : Nat) :
    regWritable k off = true ↔ ¬ ∀ f ∈ fieldsAt k off, f.acc = .ro ∨ f.acc = .rsv := by
  simp [regWritable]

/-! ### What an access comes to -/

section Access

variable {p : Path} {addr : Nat} {v : Option Nat} {s : State} {k : PageKind} {i : Nat}

theorem regAccess_noPage (h : pageAt (addr / 0x1000) = none) : regAccess p addr v s = refuseAccess s p .dir 0 v.isSome 1 addr := by
  simp only [regAccess, h]

variable (hp : pageAt (addr / 0x1000) = some (k, i))
include hp

/-- A sleeping page logs nothing itself: PWR counts the access and logs it. -/
theorem regAccess_asleep (hf : failedCheck s p k i addr v = some 4) :
    regAccess p addr v s = refuseAccess (bump s .pwr 0 F.PWR_ASLEEP_REF_COUNT) p .pwr 0 v.isSome 4 addr := by
  simp only [regAccess, hp, hf]

theorem regAccess_refused {n : Nat} (hf : failedCheck s p k i addr v = some n) (hn : n ≠ 4) :
    regAccess p addr v s = refuseAccess s p k i v.isSome n addr := by
  unfold regAccess
  rw [hp]
  dsimp only
  rw [hf]
  split
  · rename_i h
    exact absurd (Option.some.inj h) hn
  · rename_i h
    cases h
    rfl
  · rename_i h
    cases h

theorem regAccess_st_of_passed (hf : failedCheck s p k i addr v = none) : (regAccess p addr v s).st = 0 := by
  simp only [regAccess, hp, hf]
  split
  · rfl
  · split
    · rfl
    · rfl

end Access

/-! ### The checks in their order -/

section Checks

variable {p : Path} {addr : Nat} {v : Option Nat} {s : State} {k : PageKind} {i : Nat}

/-- A sleeping page is refused a write, and a read behind its common header (R76). -/
abbrev RefusedAsleep (s : State) (k : PageKind) (i addr : Nat) (v : Option Nat) : Prop :=
  pageAsleep s k i = true ∧ (v ≠ none ∨ 0x100 ≤ addr % 0x1000)

/-- The sideband does not reach the register (R91). -/
abbrev RefusedSb (p : Path) (k : PageKind) (addr : Nat) (v : Option Nat) : Prop :=
  p.isSb = true ∧ sbReaches k (addr % 0x1000) v.isSome = false

theorem failedCheck_misaligned (h4 : addr % 4 ≠ 0) : failedCheck s p k i addr v = some 2 := by
  simp [failedCheck, h4]

variable (h4 : addr % 4 = 0)
include h4

theorem failedCheck_undefined (hd : regDefined k (addr % 0x1000) = false) : failedCheck s p k i addr v = some 3 := by
  simp [failedCheck, h4, hd]

variable (hd : regDefined k (addr % 0x1000) = true)
include hd

theorem failedCheck_asleep (hs : RefusedAsleep s k i addr v) : failedCheck s p k i addr v = some 4 := by
  have hs' : (pageAsleep s k i && (v.isSome || decide (0x100 ≤ addr % 0x1000))) = true := by
    simpa [Option.isSome_iff_ne_none] using hs
  simp only [failedCheck, h4, hd, hs', ne_eq, not_true_eq_false, if_false, Bool.not_true, Bool.false_eq_true, if_true]

/-- Behind the check for sleep come the sideband's reach, and of a write the locks and the access codes. -/
theorem failedCheck_awake (hs : ¬ RefusedAsleep s k i addr v) : failedCheck s p k i addr v =
    if p.isSb && !sbReaches k (addr % 0x1000) v.isSome then some 5
    else v.bind fun x =>
      if lockRefuses s p k i (addr % 0x1000) x then some 6 else if !regWritable k (addr % 0x1000) then some 7 else none := by
  have hs' : (pageAsleep s k i && (v.isSome || decide (0x100 ≤ addr % 0x1000))) = false := by
    rw [Bool.eq_false_iff]
    simpa [Option.isSome_iff_ne_none] using hs
  simp only [failedCheck, h4, hd, hs', ne_eq, not_true_eq_false, if_false, Bool.not_true, Bool.false_eq_true]
  cases v with
  | none => simp only [Option.bind_none]
  | some x => simp only [Option.bind_some]

variable (hs : ¬ RefusedAsleep s k i addr v)
include hs

theorem failedCheck_denied (hb : RefusedSb p k addr v) : failedCheck s p k i addr v = some 5 := by
  rw [failedCheck_awake h4 hd hs, if_pos (by simpa using hb)]

variable (hb : ¬ RefusedSb p k addr v)
include hb

theorem failedCheck_locked {x : Nat} (hv : v = some x) (hl : lockRefuses s p k i (addr % 0x1000) x = true) :
    failedCheck s p k i addr v = some 6 := by
  subst hv
  rw [failedCheck_awake h4 hd hs, if_neg (by simpa using hb)]
  exact if_pos hl

theorem failedCheck_readOnly (hl : ¬ ∃ x, v = some x ∧ lockRefuses s p k i (addr % 0x1000) x = true) (hv : v ≠ none)
    (hw : regWritable k (addr % 0x1000) = false) : failedCheck s p k i addr v = some 7 := by
  obtain ⟨x, rfl⟩ := Option.ne_none_iff_exists'.mp hv
  rw [failedCheck_awake h4 hd hs, if_neg (by simpa using hb)]
  exact (if_neg fun h => hl ⟨x, rfl, h⟩).trans (if_pos (by rw [hw]; rfl))

theorem failedCheck_none (hl : ¬ ∃ x, v = some x ∧ lockRefuses s p k i (addr % 0x1000) x = true)
    (hw : v ≠ none → regWritable k (addr % 0x1000) = true) : failedCheck s p k i addr v = none := by
  rw [failedCheck_awake h4 hd hs, if_neg (by simpa using hb)]
  cases v with
  | none => rfl
  | some x => exact (if_neg fun h => hl ⟨x, rfl, h⟩).trans (if_neg (by rw [hw (by simp)]; decide))

end Checks

/-- Settles O7: the checks in their order, each with what an access that fails it comes to. -/
theorem accessesAreCheckedInOrder : Obligations.AccessesAreCheckedInOrder := by
  unfold Obligations.AccessesAreCheckedInOrder
  intro p addr v s a off logged
  refine ⟨regAccess_noPage, fun k i hp => ?_⟩
  intro asleep denied locked roWrite
  refine ⟨fun h4 => ?misaligned, fun h4 hnone => ?undefined, fun h4 hex => ?defined⟩
  case misaligned => exact regAccess_refused hp (failedCheck_misaligned h4) (by decide)
  case undefined =>
    have hd : regDefined k off = false := Bool.eq_false_iff.mpr fun h =>
      have ⟨f, hf, ho⟩ := (regDefined_iff k off).mp h
      hnone f hf ho
    exact regAccess_refused hp (failedCheck_undefined h4 hd) (by decide)
  case defined =>
    have hd := (regDefined_iff k off).mpr hex
    refine ⟨fun hs => ?asleep, fun hs hb => ?denied, fun hs hb hl => ?locked, fun hs hb hl hw => ?readOnly, fun hs hb hl hw => ?passed⟩
    case asleep => exact regAccess_asleep hp (failedCheck_asleep h4 hd hs)
    case denied => exact regAccess_refused hp (failedCheck_denied h4 hd hs hb) (by decide)
    case locked =>
      obtain ⟨x, hv, hx⟩ := hl
      exact regAccess_refused hp (failedCheck_locked h4 hd hs hb hv hx) (by decide)
    case readOnly =>
      have hro : regWritable k off = false := Bool.eq_false_iff.mpr fun h => (regWritable_iff k off).mp h hw.2
      exact regAccess_refused hp (failedCheck_readOnly h4 hd hs hb hl hw.1 hro) (by decide)
    case passed =>
      exact regAccess_st_of_passed hp (failedCheck_none h4 hd hs hb hl fun hv => (regWritable_iff k off).mpr fun hro => hw ⟨hv, hro⟩)

end Sys2Proof.Machine
end

section
/-! PROOFS. The sideband, the pins and the events of the sideband's bus: a transaction that is taken, a sample of the pads
(02_register_pages.md R88–R95; 09_flash_lanes_thyme.md R372; 21_pins_and_electrical.md R739–R742). -/

namespace Sys2Proof.Machine

/-! ### The sideband -/

section Sideband

variable {b : SbBus} {s : State}

/-- A transaction that is heard, its PEC right, is taken and shows its protocol. -/
theorem sbTake_good (hh : sbHears s b = true) (hg : b.good = true) (run : State → State) :
    sbTake b run s = run (setF s .mgt 0 F.MGT_SB_STAT_MODE b.code) := by
  simp only [sbTake, hh, hg, if_true]

/-- In RUN the sideband is answered at every address. -/
theorem pathOpen_sideband (hm : s.mode = .run) (addr : Nat) (w : Bool) : pathOpen s b.path addr w = true := by
  cases b <;> simp [pathOpen, SbBus.path, inBootRom, hm]

/-- A Write or Read command in RUN: its access, the count of it, and its result, which Last result then returns (R89, R93). -/
theorem sbAccess_run (hm : s.mode = .run) (hh : sbHears s b = true) (hg : b.good = true) (addr : Nat) (v : Option Nat) :
    let a := regAccess b.path addr v (setF s .mgt 0 F.MGT_SB_STAT_MODE b.code)
    let r := a.st % 256 :: leBytes 4 a.val
    sbAccess b addr v s = emit { bump a.s .mgt 0 (if a.st = 0 then F.MGT_SB_CMDS_DONE else F.MGT_SB_CMDS_DENIED) with
      mgmt := { a.s.mgmt with lastResult := r } } (.sbResult r) := by
  have hopen := pathOpen_sideband (b := b) (s := setF s .mgt 0 F.MGT_SB_STAT_MODE b.code) hm addr v.isSome
  rw [sbAccess, sbTake_good hh hg, if_pos hopen]
  rfl

end Sideband

/-- Settles O13: the four commands of a transaction that is taken. -/
theorem sidebandCompletes : Obligations.SidebandCompletes := by
  unfold Obligations.SidebandCompletes
  intro b s hm hh hg s0
  refine ⟨fun addr v => ?write, fun addr => ?read, ?last, ?bad⟩
  case write => exact congrArg done (sbAccess_run hm hh hg addr (some v))
  case read => exact congrArg done (sbAccess_run hm hh hg addr none)
  case last => exact congrArg done (sbTake_good hh hg _)
  case bad => exact congrArg done (sbTake_good hh hg _)

/-! ### Pins -/

/-- In no mode is WP_n high but as `wpHigh` says, which asks for RUN or GUARD. -/
theorem pinState_wp (s : State) (t : Nat) : pinState s (.wp t) = .high ↔ wpHigh s t = true := by
  cases hm : s.mode <;> simp [pinState, pinInReset, pinInRun, pinInDoze, pinInHold, wpHigh, hm]

theorem wpHigh_iff (s : State) (t : Nat) : wpHigh s t = true ↔ (s.mode = .run ∨ s.mode = .guard) ∧ t ∉ s.oos.tiles ∧
    ∀ p, s.plRun = some p → p.step4End = none := by
  cases hp : s.plRun <;> simp [wpHigh, hp, and_assoc]

/-! ### Pads and bus commands -/

theorem gpioRuns_iff (s : State) : gpioRuns s = true ↔
    s.mode ≠ .hold ∧ s.mode ≠ .reset ∧ getF s .pwr 0 F.PWR_PAD_HOLD_GPIO = 0 := by
  simp [gpioRuns, and_assoc]

/-- The levels at the pads are 16 bits. -/
theorem gpioEdge_levels (levels : BitVec 16) (s : State) : gpioEdge levels.toNat s = gpioSample { s with gpioExt := levels.toNat } := by
  rw [gpioEdge, Nat.mod_eq_of_lt levels.isLt]

/-- What a sample finds at the pads: what enabled outputs drive, and elsewhere the board's levels. -/
theorem gpioPads_levels (levels : BitVec 16) (s : State) : gpioPads { s with gpioExt := levels.toNat } =
    let en := getF s .gpio 0 F.GPIO_OUT_EN_EN
    (getF s .gpio 0 F.GPIO_OUT_LEVEL &&& en) + (levels.toNat - (levels.toNat &&& en)) := by
  unfold gpioPads
  dsimp only
  rw [Nat.mod_eq_of_lt levels.isLt]
  rfl

/-- A sample of pads that run shows the levels and records each selected edge (R740, R741). -/
theorem gpioSample_runs {s : State} (h : gpioRuns s = true) : gpioSample s =
    let old := getF s .gpio 0 F.GPIO_IN_LEVEL
    let new := gpioPads s
    setF (setF s .gpio 0 F.GPIO_IN_LEVEL new) .gpio 0 F.GPIO_INT_RAW_EDGE (getF s .gpio 0 F.GPIO_INT_RAW_EDGE |||
      ((new - (new &&& old)) &&& getF s .gpio 0 F.GPIO_EDGE_CFG_RISE) |||
      ((old - (new &&& old)) &&& getF s .gpio 0 F.GPIO_EDGE_CFG_FALL)) := by
  rw [gpioSample, if_pos h, gpioFirst]

theorem gpioSample_held {s : State} (h : gpioRuns s = false) : gpioSample s = s := by simp [gpioSample, h]

section Bus

variable {s : State}

theorem assignAddr_unheard (h : cccHears s = false) (a : Nat) : assignAddr a s = s := by simp [assignAddr, h]

theorem assignAddr_heard (h : cccHears s = true) (a : Nat) : assignAddr a s =
    raise (setF (setF (setF s .mgt 0 F.MGT_SB_STAT_MODE 1) .mgt 0 F.MGT_SB_STAT_DYN_ADDR a) .mgt 0 F.MGT_SB_STAT_DA_VALID 1)
      .mgt 0 F.MGT_INT_RAW_DA_ASSIGNED := by
  simp only [assignAddr, h, if_true]

theorem ibiEnable_unheard (h : cccHears s = false) (on : Bool) : ibiEnable on s = s := by simp [ibiEnable, h]

theorem ibiEnable_assigned (h : cccHears s = true) (hv : getF s .mgt 0 F.MGT_SB_STAT_DA_VALID = 1) (on : Bool) :
    ibiEnable on s = setF (setF s .mgt 0 F.MGT_SB_STAT_MODE 1) .mgt 0 F.MGT_SB_STAT_IBI_ON on.toNat := by
  simp [ibiEnable, h, hv]

end Bus

/-- Settles O60: each clause is one of the lemmas on the pin, the sample and the two bus commands. -/
theorem pinsAndSidebandEventsComplete : Obligations.PinsAndSidebandEventsComplete := by
  unfold Obligations.PinsAndSidebandEventsComplete
  refine ⟨fun t s => (pinState_wp s t).trans (wpHigh_iff s t), fun levels s hh hr hp => ?runs, fun levels s h => ?held,
    fun s h => ⟨fun a => congrArg done (assignAddr_unheard h a), fun on => congrArg done (ibiEnable_unheard h on)⟩,
    fun s h => ⟨fun a => congrArg done (assignAddr_heard h a), fun on hv => congrArg done (ibiEnable_assigned h hv on)⟩⟩
  case runs =>
    have hruns : gpioRuns { s with gpioExt := levels.toNat } = true := (gpioRuns_iff _).mpr ⟨hh, hr, hp⟩
    have hsample := gpioSample_runs hruns
    rw [gpioPads_levels] at hsample
    exact congrArg done ((gpioEdge_levels levels s).trans hsample)
  case held =>
    have hheld : gpioRuns { s with gpioExt := levels.toNat } = false := Bool.eq_false_iff.mpr fun hruns => by
      obtain ⟨hh, hr, hp⟩ := (gpioRuns_iff _).mp hruns
      rcases h with h | h | h
      · exact hh h
      · exact hr h
      · exact h hp
    exact congrArg done ((gpioEdge_levels levels s).trans (gpioSample_held hheld))

end Sys2Proof.Machine
end

section
/-! PROOFS. Batches: what a REG_READ and a REG_WRITE that pass their checks answer (02_register_pages.md R79–R86). -/

namespace Sys2Proof.Machine

/-- A batch that has kept its connection and has not reset the part completes. -/
theorem postLive_live {t : State} {q : Capsule} (hm : t.mode ≠ .reset) (hc : (connOf t q.conn).isSome = true) (dw0 : Nat)
    (data : List Nat) : postLive t q dw0 data = postOk t q.conn q.cid dw0 data := by
  have hlost : (decide (t.mode = .reset) || (connOf t q.conn).isNone) = false := by
    rw [decide_eq_false hm, Option.isNone_eq_false_iff.mpr hc, Bool.false_or]
  rw [postLive, hlost]
  rfl

/-- Of one register, the entry is its value and status, and the counts are its own. -/
theorem readAll_one (p : Path) (x : Nat) {s : State} (hm : s.mode ≠ .reset) : let a := regAccess p x none s
    readAll p [x] s = (leBytes 4 a.val ++ leBytes 2 a.st ++ [0, 0], if a.st = 0 then 0 else 1, a.st, a.s) := by
  intro a
  rw [readAll, if_neg hm]
  by_cases hst : a.st = 0 <;> simp [readAll, a, hst]

/-- Of one entry, the status is its own, and the lines follow it if it was applied. -/
theorem writeAll_one (p : Path) (e : Nat × Nat) {s : State} (hm : s.mode ≠ .reset) : let a := regAccess p e.1 (some e.2) s
    writeAll p [e] s = ([a.st], if a.st = 0 then settleAlert a.s else a.s) := by
  intro a
  rw [writeAll, if_neg hm]
  by_cases hst : a.st = 0 <;> simp [writeAll, a, hst]

/-- A list read by its indices is itself. -/
theorem map_getD_range {α : Type} (l : List α) (d : α) : (List.range l.length).map (fun i => l.getD i d) = l := by
  refine List.ext_getElem (by simp) fun i h h' => ?_
  simp [List.getD_eq_getElem?_getD, h']

section Batches

variable {q : Capsule} {s : State}

theorem regRead_ready (h : Ready s q fnMF) (hb : OnlyBits q [0xFFFFFFFF, 0xFFFFFFFF, 0xFFFFFFFF, 0xFFFFFFFF, 0, 0]) :
    let ds := [q.dw10 % 2 ^ 32, q.dw11 % 2 ^ 32, q.dw12 % 2 ^ 32, q.dw13 % 2 ^ 32]
    let regs := (ds.map runRegs).flatten
    let r := readAll (.mf q.conn q.cid) regs (served s fnMF)
    (∀ d ∈ ds, bitsOf d 24 20 = 0) → regs ≠ [] → regs.length ≤ 64 → 8 * regs.length ≤ q.len →
    r.2.2.2.mode ≠ .reset → (connOf r.2.2.2 q.conn).isSome = true →
    inTurn q (.regRead q) false (regRead q) s = postOk r.2.2.2 q.conn q.cid (r.2.1 * 65536 + r.2.2.1) r.1 := by
  intro ds regs r hform hne hmax hlen hmode hconn
  refine turn_yes h rfl rfl hb ?_
  have hruns : ¬ (ds.any (fun d => decide (bitsOf d 24 20 ≠ 0)) || regs.isEmpty || decide (64 < regs.length)) = true := by
    simpa [hne, hmax] using hform
  exact (if_neg hruns).trans ((if_neg (Nat.not_lt.mpr hlen)).trans (congrArg Verdict.yes (postLive_live hmode hconn _ _)))

theorem regWrite_ready {l : List (Nat × Nat)} (h : Ready s q fnMF)
    (hb : OnlyBits q [0x7F, 0xFFFFFFFF, 0xFFFFFFFF, 0xFFFFFFFF, 0xFFFFFFFF, 0xFFFFFFFF]) (hone : 1 ≤ l.length) (hmax : l.length ≤ 64)
    (hn : q.dw10 = l.length) (hlen : 8 * l.length ≤ q.len) (hmode : (writeAll (.mf q.conn q.cid) l (served s fnMF)).2.mode ≠ .reset)
    (hconn : (connOf (writeAll (.mf q.conn q.cid) l (served s fnMF)).2 q.conn).isSome = true) :
    let r := writeAll (.mf q.conn q.cid) l (served s fnMF)
    inTurn q (.regWrite q l) false (regWrite q l) s = postOk r.2 q.conn q.cid (writeDw0 r.1) [] := by
  have hcount : bitsOf q.dw10 6 0 = l.length := by rw [hn]; unfold bitsOf; omega
  refine turn_yes h rfl rfl hb ?_
  simp only [hcount, map_getD_range]
  have hrange : ¬ (decide (l.length = 0) || decide (64 < l.length)) = true := by
    rw [Bool.or_eq_true, decide_eq_true_iff, decide_eq_true_iff]
    omega
  exact (if_neg hrange).trans ((if_neg (Nat.not_lt.mpr hlen)).trans (congrArg Verdict.yes (postLive_live hmode hconn _ _)))

end Batches

/-- Settles O14: each batch passes its checks, and a batch of one is the access itself. -/
theorem batchesComplete : Obligations.BatchesComplete := by
  unfold Obligations.BatchesComplete
  have hrun {s : State} (hm : s.mode = .run) : (served s fnMF).mode ≠ .reset := by
    rw [show (served s fnMF).mode = s.mode from rfl, hm]
    decide
  refine ⟨fun q s h hb => ?read, fun q l s h hb hone hmax hn hlen => ?write⟩
  case read =>
    intro ds regs r t hform hne hmax hlen hmode hconn
    refine ⟨congrArg done (regRead_ready h hb hform hne hmax hlen hmode hconn), fun x hx => ?_⟩
    have hr : r = _ := (congrArg (fun l => readAll _ l _) hx).trans (readAll_one (.mf q.conn q.cid) x (hrun h.1))
    exact ⟨congrArg (·.2.2.2) hr, congrArg (·.1) hr, congrArg (·.2.1) hr, congrArg (·.2.2.1) hr⟩
  case write =>
    intro r hmode hconn
    refine ⟨congrArg done (regWrite_ready h hb hone hmax hn hlen hmode hconn), fun e he => ?_⟩
    exact (congrArg (fun l => writeAll _ l _) he).trans (writeAll_one (.mf q.conn q.cid) e (hrun h.1))

end Sys2Proof.Machine
end

section
/-! PROOFS. Get Log Page: what a page that the function has comes to, and each page that it names (02_register_pages.md R97, R98;
04_commands_and_ordering.md R159, R180, R181; 05_tenant_functions.md R233; 06_zones_and_placement.md R743; 18_recorder_and_metering.md
R653). -/

namespace Sys2Proof.Machine

section LogPages

variable {q : Capsule} {f : Nat} {s : State}

/-! ### The way of a request -/

/-- The part after a page has been served. -/
def pageServed (p : Page) (q : Capsule) (s : State) : State :=
  postOk (p.after { s with free := s.free + 1 }) q.conn q.cid 0 (pageBytes p (65536 + s.free) (logOff q) (logLen q))

/-- A request within its limits is sent. -/
theorem sendPage_yes {p : Page} (hmax : logLen q ≤ 2097152) (hlen : logLen q ≤ q.len) (hoff : logOff q ≤ p.len) :
    sendPage q p s = .yes (pageServed p q s) := by
  rw [sendPage, if_neg (Nat.not_lt.mpr hmax), if_neg (Nat.not_lt.mpr hoff), if_neg (Nat.not_lt.mpr hlen)]
  rfl

/-- MF and the tenants accept Get Log Page. -/
theorem logAccept_has (h : f ≤ 512) : ({ quiet := true, masks := logMasks } : Accept).has f = true := by
  unfold Accept.has
  split
  · rfl
  · exact if_pos (by unfold fnMF at *; omega)

/-- A page that the function has, asked for within its limits, is served; of the Changed Zone List the namespace passes its
checks. -/
theorem getLog_ready {i : Instr} {p : Page} (h : Ready s q f) (hf : f ≤ 512) (hb : OnlyBits q logMasks)
    (hp : logPage q f (served s f) = .inr p) (hns : logLid q = 0xBF → nsChecks (served s f) f q.nsid = none)
    (hmax : logLen q ≤ 2097152) (hlen : logLen q ≤ q.len) (hoff : logOff q ≤ p.len) :
    inTurn q i false (getLog q) s = pageServed p q (served s f) := by
  refine turn_yes h (logAccept_has hf) rfl hb ?_
  simp only [hp, sendPage_yes hmax hlen hoff]
  split
  case isTrue hz => rw [hns hz]
  case isFalse => rfl

/-- The same for a command that asks for a log page, by what serving the page leaves. -/
theorem exec_log {i : Instr} {p : Page} {u : State} (hi : exec i s = done (inTurn q i false (getLog q) s))
    (h : Ready s q f) (hf : f ≤ 512)
    (hb : OnlyBits q logMasks) (hmax : logLen q ≤ 2097152) (hlen : logLen q ≤ q.len) (hp : logPage q f (served s f) = .inr p)
    (hns : logLid q = 0xBF → nsChecks (served s f) f q.nsid = none)
    (hu : p.after { served s f with free := (served s f).free + 1 } = u) (hoff : logOff q ≤ p.len) : exec i s = .next (settle
      (postOk u q.conn q.cid 0 (pageBytes ⟨p.len, p.fields, p.isOpen, id⟩ (65536 + (served s f).free) (logOff q) (logLen q)))) := by
  rw [hi, getLog_ready h hf hb hp hns hmax hlen hoff, pageServed, hu]
  rfl

/-! ### The pages -/

/-- The pages of a tenant. -/
theorem logHas_tenant (h : f < 512) (lid : Nat) :
    logHas f lid = [0x01, 0x02, 0x04, 0x05, 0x81, 0xBF, 0xC0, 0xC1].contains lid := if_neg (by unfold fnMF; omega)

/-- Every function has the health log. -/
theorem logHas_health (f : Nat) : logHas f 0x02 = true := by
  unfold logHas
  split
  · rfl
  · rfl

theorem logPage_interrupts (hl : logLid q = 0xE0) : logPage q fnMF s = .inr ⟨96, intFields s, false,
    fun s => if !logRae q then { s with mgmt := { s.mgmt with aenArmed := true } } else s⟩ := by
  have hhas : logHas fnMF 0xE0 = true := rfl
  simp only [logPage, hl, hhas, Bool.not_true, Bool.false_eq_true, if_false]

theorem logPage_deferred (hf : f < 512) (hl : logLid q = 0xC0) : logPage q f s = .inr ⟨2064, deferFields (tenant s f), false,
    fun s => if !logRae q then modTenant s f (fun t => { t with defer := [], deferLost := 0, deferArmed := true }) else s⟩ := by
  have hhas : logHas f 0xC0 = true := logHas_tenant hf _
  simp only [logPage, hl, hhas, Bool.not_true, Bool.false_eq_true, if_false]

theorem logPage_status (hf : f < 512) (hl : logLid q = 0xC1) (hi : logLsi q = 0) (hs : logLsp q ≤ 1) : logPage q f s =
    .inr ⟨16384, statusFields s f, false, fun s => if logLsp q = 1 then trecClear s f else s⟩ := by
  have hhas : logHas f 0xC1 = true := logHas_tenant hf _
  have hhalf : logLsp q / 2 = 0 := by omega
  have hodd : logLsp q % 2 = logLsp q := by omega
  simp only [logPage, hl, hhas, hi, hhalf, hodd, Bool.not_true, Bool.false_eq_true, if_false, if_true, ne_eq, not_true_eq_false]

theorem logPage_recorder (hf : f < 512) (hl : logLid q = 0xC1) (hi : logLsi q = 1) (hs : logLsp q = 0) : logPage q f s =
    .inr ⟨1048576, devFields s.recd, false, id⟩ := by
  have hhas : logHas f 0xC1 = true := logHas_tenant hf _
  simp [logPage, hl, hhas, hi, hs]

theorem logPage_changed {k : Nat} {n : Ns} (hf : f < 512) (hl : logLid q = 0xBF) (hk : nsSlot s f q.nsid = some k)
    (hn : nsAt s k = some n) (hz : n.zoned = true) : logPage q f s = .inr ⟨4096, changedFields n, false,
      fun s => if !logRae q then modNs s k (fun n => { n with changed := [], changedOver := false, noticeArmed := true }) else s⟩ := by
  have hhas : logHas f 0xBF = true := logHas_tenant hf _
  simp only [logPage, hl, hhas, hk, hn, hz, Option.bind_some, Option.map_some, Bool.not_true, Bool.false_eq_true, if_false, if_true]

theorem logPage_health (hl : logLid q = 0x02) : logPage q f s = .inr ⟨513, healthFields s f, true,
    fun s => if !logRae q then modCtrl s f (fun c => { c with notice := true }) else s⟩ := by
  simp only [logPage, hl, logHas_health, Bool.not_true, Bool.false_eq_true, if_false]

theorem logPage_slots (hl : logLid q = 0x03) : logPage q fnMF s = .inr ⟨512, slotFields s, true, id⟩ := by
  have hhas : logHas fnMF 0x03 = true := rfl
  simp only [logPage, hl, hhas, Bool.not_true, Bool.false_eq_true, if_false]

theorem logPage_sanitize (hf : f < 512) (hl : logLid q = 0x81) : logPage q f s = .inr ⟨512,
    (if (tenant s f).sanitize % 8 = 2 then [] else [(0, 2, 0xFFFF)]) ++ [(2, 2, (tenant s f).sanitize)], true, id⟩ := by
  have hhas : logHas f 0x81 = true := logHas_tenant hf _
  simp only [logPage, hl, hhas, Bool.not_true, Bool.false_eq_true, if_false]

/-- The pages whose bytes are all open. -/
theorem logPage_open (hh : logHas f (logLid q) = true) (hl : logLid q = 0x01 ∨ logLid q = 0x04 ∨ logLid q = 0x05) :
    logPage q f s = .inr ⟨4096, [], true, id⟩ := by
  rcases hl with hl | hl | hl <;> simp [logPage, hl, hl ▸ hh]

/-- What a page does unless Retain Asynchronous Event is set. -/
theorem ite_not_rae {α : Type} (b : Bool) (x y : α) : (if (!b) = true then x else y) = if b = true then y else x := by
  cases b <;> rfl

end LogPages

/-- Settles O33: a request within its limits is served the page, and leaves what the page does. -/
theorem logPagesComplete : Obligations.LogPagesComplete := by
  unfold Obligations.LogPagesComplete
  intro q f s h hf hb s1 lid lsp lsi len rae off s2 ans hmax hlen
  have hserve {i : Instr} {p : Page} {u : State} (hi : exec i s = done (inTurn q i false (getLog q) s))
      (hns : lid = 0xBF → nsChecks s1 f q.nsid = none) (hp : logPage q f s1 = .inr p) (hu : p.after s2 = u) :
      ans i p.len p.fields p.isOpen u := fun hoff => exec_log hi h hf hb hmax hlen hp hns hu hoff
  have hother {x : Nat} (hl : lid = x) (hx : x ≠ 0xBF) : lid = 0xBF → nsChecks s1 f q.nsid = none :=
    fun hz => absurd (hl.symm.trans hz) hx
  refine ⟨fun hmf hl => ?interrupts, fun ht hl => ?deferred, fun ht hl hi hs => ?status, fun ht hl hi hs => ?recorder,
    fun k n ht hl hk hn hz hc => ?changed, fun hl => ?health, fun hmf hl => ?slots, fun ht hl => ?sanitize, fun hh hl => ?openPages⟩
  case interrupts =>
    subst hmf
    exact hserve rfl (hother hl (by decide)) (logPage_interrupts hl) (ite_not_rae ..)
  case deferred => exact hserve rfl (hother hl (by decide)) (logPage_deferred ht hl) (ite_not_rae ..)
  case status => exact hserve rfl (hother hl (by decide)) (logPage_status ht hl hi hs) rfl
  case recorder => exact hserve rfl (hother hl (by decide)) (logPage_recorder ht hl hi hs) rfl
  case changed => exact hserve rfl (fun _ => hc) (logPage_changed ht hl hk hn hz) (ite_not_rae ..)
  case health => exact hserve rfl (hother hl (by decide)) (logPage_health hl) (ite_not_rae ..)
  case slots =>
    subst hmf
    exact hserve rfl (hother hl (by decide)) (logPage_slots hl) rfl
  case sanitize => exact hserve rfl (hother hl (by decide)) (logPage_sanitize ht hl) rfl
  case openPages =>
    have hns : lid = 0xBF → nsChecks s1 f q.nsid = none := by rcases hl with hl | hl | hl <;> exact hother hl (by decide)
    exact hserve rfl hns (logPage_open hh hl) rfl

end Sys2Proof.Machine
end

section
/-! PROOFS. Accesses to the registers of the ports and of the interface table: PORT_CTRL, the wake key, IF_SEL and IF_CFG
(03_ethernet_transport.md R103, R106, R112, R142, R144, R156). -/

namespace Sys2Proof.Machine

/-! ### Writes of a page's own registers -/

/-- A write that passes every check has its register's effect and is answered. -/
theorem writeReg_block {s : State} {p : Path} {k : PageKind} {i : Nat} (off v : Nat) (h : RegOpen s p k i) (hp : pageIs k i = true)
    (hoff : 0x100 ≤ off ∧ off < 0x1000 ∧ off % 4 = 0) (hdef : regDefined k off = true ∧ regWritable k off = true) :
    writeReg p k i off v s = emit (blockWrite s k i off (v % 2 ^ 32)) (.access (regAddr k i off) 0 0) := by
  rw [writeReg_open p k i off v s hp hoff.2.1 hoff.2.2 hdef.1 hdef.2 h, doWrite_block _ _ _ _ _ _ hoff.1]

theorem pageIs_eth (n : Fin 2) : pageIs .eth n = true := by revert n; decide

/-! ### Links that go down (R126, R144) -/

/-- A link that is up goes down with LINK_HOLD nonzero: its lock may stay, and its connections are held. -/
theorem linkGoesDown_held {s : State} {p : Nat} (keep : Bool) (hup : (eth s p).linkUp = true)
    (hh : getF s .eth p F.ETH_PORT_CTRL_LINK_HOLD ≠ 0) : linkGoesDown p keep s = raise (modEth s p (fun e =>
      { e with amLock := e.amLock && keep, linkUp := false, xoff := [],
               holdUntil := some (s.now + getF s .eth p F.ETH_PORT_CTRL_LINK_HOLD * 100000000) })) .eth p F.ETH_INT_RAW_LINK_DOWN := by
  simp only [linkGoesDown, hup, if_neg hh, if_true]

/-- With LINK_HOLD 0 the connections are lost with the link. -/
theorem linkGoesDown_lost {s : State} {p : Nat} (keep : Bool) (hup : (eth s p).linkUp = true)
    (hh : getF s .eth p F.ETH_PORT_CTRL_LINK_HOLD = 0) : linkGoesDown p keep s = portLost (raise (modEth s p (fun e =>
      { e with amLock := e.amLock && keep, linkUp := false, xoff := [], holdUntil := none })) .eth p F.ETH_INT_RAW_LINK_DOWN) p := by
  simp only [linkGoesDown, hup, hh, if_true]

/-- A link that is down changes in its lock alone. -/
theorem linkGoesDown_down {s : State} {p : Nat} (keep : Bool) (hup : (eth s p).linkUp = false) :
    linkGoesDown p keep s = modEth s p (fun e => { e with amLock := e.amLock && keep }) := by
  simp only [linkGoesDown, hup, Bool.false_eq_true, if_false]

/-- A port that has been replaced reads as it was set. -/
@[simp] theorem eth_setEth (s : State) (p : Nat) (e : EthPort) : eth (setEth s p e) p = e := by
  simp [eth, setEth]

/-! ### The effects of the writes -/

/-- A stored register word leaves the clock, the ports, the interface table and the connections. -/
theorem storeWord_now (s : State) (k : PageKind) (i off v : Nat) : (storeWord s k i off v).now = s.now := rfl
theorem eth_storeWord (s : State) (k : PageKind) (i off v p : Nat) : eth (storeWord s k i off v) p = eth s p := rfl
theorem ifAt_storeWord (s : State) (k : PageKind) (i off v j : Nat) : ifAt (storeWord s k i off v) j = ifAt s j := rfl
theorem storeWord_conns (s : State) (k : PageKind) (i off v : Nat) : (storeWord s k i off v).conns = s.conns := rfl

theorem blockWrite_portCtrl (s : State) (p v : Nat) : blockWrite s .eth p 0x100 v = portCtrl s p v := by rw [blockWrite]

theorem portCtrl_enabled {s : State} {p v : Nat} (h : getF (storeWord s .eth p 0x100 v) .eth p F.ETH_PORT_CTRL_ENABLE = 1) :
    portCtrl s p v = portTryUp p (storeWord s .eth p 0x100 v) := if_neg (by omega)

/-- Clearing ENABLE takes a link that is up down, with its lane lock kept and its connections held for LINK_HOLD (R144). -/
theorem portCtrl_takesDown {s : State} {p v : Nat} (hup : (eth s p).linkUp = true) :
    let s1 := storeWord s .eth p 0x100 v
    getF s1 .eth p F.ETH_PORT_CTRL_ENABLE = 0 → getF s1 .eth p F.ETH_PORT_CTRL_LINK_HOLD ≠ 0 → portCtrl s p v =
      raise (modEth s1 p (fun e => { e with
        linkUp := false, xoff := [], holdUntil := some (s.now + getF s1 .eth p F.ETH_PORT_CTRL_LINK_HOLD * 100000000) }))
        .eth p F.ETH_INT_RAW_LINK_DOWN := by
  intro s1 he hh
  have hup1 : (eth s1 p).linkUp = true := (eth_storeWord s .eth p 0x100 v p).symm ▸ hup
  rw [portCtrl, if_pos he, linkGoesDown_held true hup1 hh, storeWord_now]
  simp only [Bool.and_true]

/-- The last word of the wake key commits it with the three words staged before it (R142). -/
theorem wakeKeySet_commit (s : State) (p v : Nat) : wakeKeySet s p 0x130 v = modEth s p (fun e =>
    { e with wakeStaged := mset e.wakeStaged 3 v
             wakeKey := mgetD e.wakeStaged 0 0 + mgetD e.wakeStaged 1 0 * 2 ^ 32 + mgetD e.wakeStaged 2 0 * 2 ^ 64 + v * 2 ^ 96 }) := by
  have hother {j : Nat} (hj : j ≠ 3) : mgetD (mset (eth s p).wakeStaged 3 v) j 0 = mgetD (eth s p).wakeStaged j 0 :=
    mgetD_mset_ne _ _ _ _ _ hj
  rw [wakeKeySet, if_pos rfl, modEth, modEth]
  simp only [Nat.reduceSub, Nat.reduceDiv, hother (show 0 ≠ 3 by decide), hother (show 1 ≠ 3 by decide),
    hother (show 2 ≠ 3 by decide), mgetD_mset_same]

/-- The key that is then committed. -/
theorem wakeKey_committed (s : State) (p v : Nat) : (eth (wakeKeySet s p 0x130 v) p).wakeKey = mgetD (eth s p).wakeStaged 0 0 +
    mgetD (eth s p).wakeStaged 1 0 * 2 ^ 32 + mgetD (eth s p).wakeStaged 2 0 * 2 ^ 64 + v * 2 ^ 96 := by
  rw [wakeKeySet_commit, modEth, eth_setEth]

/-- A write of IF_SEL loads the address of the selected entry, its highest word first, and its configuration (R106). -/
theorem ifLoad_words (s : State) : let e := ifAt s (getF s .tte 0 F.TTE_IF_SEL_INDEX)
    ifLoad s = wr (wr (wr (wr (wr s .tte 0 0x120 (e.addr / 2 ^ 96 % 2 ^ 32)) .tte 0 0x124 (e.addr / 2 ^ 64 % 2 ^ 32))
      .tte 0 0x128 (e.addr / 2 ^ 32 % 2 ^ 32)) .tte 0 0x12C (e.addr % 2 ^ 32)) .tte 0 0x130 e.cfg := by
  simp only [ifLoad, Nat.reduceSub, Nat.reduceMul, Nat.pow_zero, Nat.div_one]

/-- A write of IF_CFG commits the five registers, as they then stand, and ends what no longer matches (R106, R112). -/
theorem ifCommit_storeWord (s : State) (v : Nat) : let s2 := storeWord s .tte 0 0x130 v; let i := getF s2 .tte 0 F.TTE_IF_SEL_INDEX
    let new := IfEntry.mk (((rd s2 .tte 0 0x120 * 2 ^ 32 + rd s2 .tte 0 0x124) * 2 ^ 32 + rd s2 .tte 0 0x128) * 2 ^ 32 +
      rd s2 .tte 0 0x12C) (rd s2 .tte 0 0x130)
    ifCommit s2 = connsLost { s2 with ifs := mput s2.ifs i {} new }
      ((s.conns.filter (fun q => q.2.ifIdx = i && !ifStill (ifAt s i) new q.2)).map Prod.fst) := by
  intro s2 i new
  rw [← storeWord_conns s .tte 0 0x130 v, ← ifAt_storeWord s .tte 0 0x130 v i, ifCommit]

/-- Settles O16: an access that its page allows has its register's own effect. -/
theorem portRegistersComplete : Obligations.PortRegistersComplete := by
  unfold Obligations.PortRegistersComplete
  intro p n v s
  refine ⟨fun h => ?ports, fun h => ⟨?load, ?commit⟩⟩
  case ports =>
    intro s1
    refine ⟨fun he => ?enable, fun hup he hh => ?disable, ?wakeKey⟩
    case enable =>
      refine congrArg done ((writeReg_block 0x100 v h (pageIs_eth n) (by decide) (by decide)).trans ?_)
      rw [blockWrite_portCtrl, portCtrl_enabled he]
    case disable =>
      refine congrArg done ((writeReg_block 0x100 v h (pageIs_eth n) (by decide) (by decide)).trans ?_)
      rw [blockWrite_portCtrl, portCtrl_takesDown hup he hh]
    case wakeKey =>
      refine ⟨emit (wakeKeySet s n 0x130 (v % 2 ^ 32)) (.access (regAddr .eth n 0x130) 0 0),
        congrArg done (writeReg_block 0x130 v h (pageIs_eth n) (by decide) (by decide)), ?_⟩
      exact ⟨rfl, wakeKey_committed s n (v % 2 ^ 32)⟩
  case load =>
    refine congrArg done ((writeReg_block 0x11C v h (by decide) (by decide) (by decide)).trans ?_)
    exact congrArg (emit · _) (ifLoad_words (storeWord s .tte 0 0x11C (v % 2 ^ 32)))
  case commit =>
    refine congrArg done ((writeReg_block 0x130 v h (by decide) (by decide) (by decide)).trans ?_)
    exact congrArg (emit · _) (ifCommit_storeWord s (v % 2 ^ 32))

end Sys2Proof.Machine
end

section
/-! PROOFS. Maps that are set twice, and what the updates of a port and of a controller read and overwrite. -/

namespace Sys2Proof.Machine

/-! ### Sparse maps set twice -/

theorem mset_mset {α : Type} (m : FMap α) (k : Nat) (v w : α) : mset (mset m k v) k w = mset m k w := by
  induction m with
  | nil => simp [mset]
  | cons a t ih =>
    by_cases hlt : k < a.1
    · simp [mset, hlt]
    · by_cases heq : k = a.1
      · simp [mset, heq]
      · simp [mset, hlt, heq, ih]

theorem mdel_mset {α : Type} (m : FMap α) (k : Nat) (v : α) : mdel (mset m k v) k = mdel m k := by
  induction m with
  | nil => simp [mset, mdel]
  | cons a t ih =>
    by_cases hlt : k < a.1
    · simp [mset, hlt, mdel]
    · by_cases heq : k = a.1
      · simp [mset, heq, mdel]
      · have hne : a.1 ≠ k := fun h => heq h.symm
        simp only [mset, if_neg hlt, if_neg heq]
        simpa [mdel, hne] using ih

/-- A value that is listed is overwritten. -/
theorem mput_mput {α : Type} [DecidableEq α] (m : FMap α) (k : Nat) (d v w : α) (hv : v ≠ d) :
    mput (mput m k d v) k d w = mput m k d w := by
  simp only [mput, if_neg hv, mset_mset, mdel_mset]

/-! ### Ports -/

/-- A port that is not as at reset is overwritten. -/
theorem setEth_setEth (s : State) (p : Nat) {a : EthPort} (b : EthPort) (ha : a ≠ {}) : setEth (setEth s p a) p b = setEth s p b := by
  simp only [setEth, mput_mput _ _ _ _ _ ha]

/-- No register tells of a port's own state. -/
@[simp] theorem getF_setEth (s : State) (p : Nat) (e : EthPort) (k : PageKind) (i : Nat) (f : Fld) :
    getF (setEth s p e) k i f = getF s k i f := rfl

@[simp] theorem setEth_now (s : State) (p : Nat) (e : EthPort) : (setEth s p e).now = s.now := rfl

@[simp] theorem setEth_mode (s : State) (p : Nat) (e : EthPort) : (setEth s p e).mode = s.mode := rfl

@[simp] theorem eth_raise (s : State) (k : PageKind) (i : Nat) (f : Fld) (p : Nat) : eth (raise s k i f) p = eth s p := rfl

@[simp] theorem eth_bumpBy (s : State) (k : PageKind) (i : Nat) (f : Fld) (n p : Nat) : eth (bumpBy s k i f n) p = eth s p := rfl

/-! ### Controllers -/

/-- A controller that is not as at reset is overwritten. -/
theorem setCtrl_setCtrl (s : State) (f : Nat) {a : Ctrl} (b : Ctrl) (ha : a ≠ {}) : setCtrl (setCtrl s f a) f b = setCtrl s f b := by
  simp only [setCtrl, mput_mput _ _ _ _ _ ha]

end Sys2Proof.Machine
end

section
/-! PROOFS. Frames that arrive at a port, flow control and address resolution, and links that come up and go down
(03_ethernet_transport.md R102, R103, R107–R109, R113, R114, R126, R144, R145, R148; 14_memories_buffers_dram.md R542). -/

namespace Sys2Proof.Machine

/-! ### Frames -/

section Frames

variable {s : State} {f : EthFrame}

/-- The part after the codewords that FEC corrected in a frame have been counted. -/
def fecCounted (s : State) (f : EthFrame) : State := bumpBy s .eth f.port F.ETH_FEC_CORR f.fecCorr

theorem frameReceived_uncorrectable (hl : portLive s f.port = true) (hu : f.fecUnc ≠ 0) : frameReceived f s =
    raise (bumpBy (fecCounted s f) .eth f.port F.ETH_FEC_UNC f.fecUnc) .eth f.port F.ETH_INT_RAW_FEC_UNC := by
  simp only [frameReceived, hl, Bool.not_true, Bool.false_eq_true, if_false, if_pos hu, fecCounted]

/-- A frame whose length or tags are wrong, or that no interface accepts. -/
theorem frameReceived_ignored (hl : portLive s f.port = true) (hu : f.fecUnc = 0)
    (hbad : f.bytes < 64 ∨ 9216 < f.bytes ∨ 2 ≤ f.tags.length ∨ (f.etherType ≠ 0x88B5 ∧ acceptIf (fecCounted s f) f = none)) :
    frameReceived f s = fecCounted s f := by
  simp only [frameReceived, hl, Bool.not_true, Bool.false_eq_true, if_false, hu, ne_eq, not_true_eq_false]
  by_cases hform : f.bytes < 64 ∨ 9216 < f.bytes ∨ 2 ≤ f.tags.length
  · rw [if_pos hform, fecCounted]
  · obtain ⟨htype, hno⟩ : f.etherType ≠ 0x88B5 ∧ acceptIf (fecCounted s f) f = none := by
      rcases hbad with h | h | h | h
      · exact absurd (.inl h) hform
      · exact absurd (.inr (.inl h)) hform
      · exact absurd (.inr (.inr h)) hform
      · exact h
    rw [fecCounted] at hno
    rw [if_neg hform, if_neg (fun h => htype h.1), hno, fecCounted]

/-- What becomes of an IP frame that an interface accepts (R108, R114, R542). -/
def ipFrame (f : EthFrame) (s : State) : State :=
  if portMtu s f.port < f.ipLen then bump s .eth f.port F.ETH_RX_DROP_OVER_MTU
  else if f.fragment ∨ f.options then bump s .eth f.port F.ETH_RX_DROP_MALFORMED
  else
    let r := rtpEnter s f.port (framePrio f) f.bytes
    if r.2 then resumeAfter s (wakeEvent 1 (frameBody r.1 f.port f.src ((frameVlan f.tags).getD 0) f.ce f.body)) else r.1

theorem frameReceived_accepted (hl : portLive s f.port = true) (hu : f.fecUnc = 0) (hmin : 64 ≤ f.bytes) (hmax : f.bytes ≤ 9216)
    (htags : f.tags.length ≤ 1) (htype : f.etherType ≠ 0x88B5) (hacc : (acceptIf (fecCounted s f) f).isSome = true) :
    frameReceived f s = ipFrame f (fecCounted s f) := by
  obtain ⟨i, hi⟩ := Option.isSome_iff_exists.mp hacc
  have hform : ¬ (f.bytes < 64 ∨ 9216 < f.bytes ∨ 2 ≤ f.tags.length) := by omega
  rw [fecCounted] at hi
  simp only [frameReceived, hl, Bool.not_true, Bool.false_eq_true, if_false, hu, ne_eq, not_true_eq_false, if_neg hform,
    if_neg (not_and_of_not_left _ htype), hi]
  rfl

theorem ipFrame_overMtu (h : portMtu s f.port < f.ipLen) : ipFrame f s = bump s .eth f.port F.ETH_RX_DROP_OVER_MTU := if_pos h

theorem ipFrame_malformed (hm : f.ipLen ≤ portMtu s f.port) (h : f.fragment = true ∨ f.options = true) :
    ipFrame f s = bump s .eth f.port F.ETH_RX_DROP_MALFORMED := by
  rw [ipFrame, if_neg (Nat.not_lt.mpr hm), if_pos h]

/-- A whole frame within the MTU goes to the port's FIFO. -/
theorem ipFrame_whole (hm : f.ipLen ≤ portMtu s f.port) (hf : f.fragment = false) (ho : f.options = false) :
    ipFrame f s = let r := rtpEnter s f.port (framePrio f) f.bytes
      if r.2 then resumeAfter s (wakeEvent 1 (frameBody r.1 f.port f.src ((frameVlan f.tags).getD 0) f.ce f.body)) else r.1 := by
  have h : ¬ (f.fragment = true ∨ f.options = true) := by simp [hf, ho]
  rw [ipFrame, if_neg (Nat.not_lt.mpr hm), if_neg h]

theorem ipFrame_dropped {t : State} (hm : f.ipLen ≤ portMtu s f.port) (hf : f.fragment = false) (ho : f.options = false)
    (hr : rtpEnter s f.port (framePrio f) f.bytes = (t, false)) : ipFrame f s = t := by
  rw [ipFrame_whole hm hf ho, hr]
  rfl

theorem ipFrame_enters {t : State} (hm : f.ipLen ≤ portMtu s f.port) (hf : f.fragment = false) (ho : f.options = false)
    (hr : rtpEnter s f.port (framePrio f) f.bytes = (t, true)) :
    ipFrame f s = resumeAfter s (wakeEvent 1 (frameBody t f.port f.src ((frameVlan f.tags).getD 0) f.ce f.body)) := by
  rw [ipFrame_whole hm hf ho, hr]
  rfl

end Frames

/-! ### The FIFO of a port -/

section Fifo

variable {s : State} {p prio n : Nat} {e : EthPort} (he : eth s p = e)

include he

theorem rtpEnter_full (h : rtpSize < rtpLevel e + n) : rtpEnter s p prio n = (bump s .drx 0 F.DRX_RTP_DROPS_COUNT, false) := by
  rw [rtpEnter, he, if_pos h]

theorem rtpEnter_lossy (hr : rtpLevel e + n ≤ rtpSize) (hl : isLossless s p prio = false)
    (h : lossyLim s p < mgetD e.level prio 0 + n) : rtpEnter s p prio n = (bump s .eth p F.ETH_LOSSY_DROP_COUNT, false) := by
  rw [rtpEnter, he, if_neg (Nat.not_lt.mpr hr), if_pos ⟨by rw [hl]; rfl, h⟩]

theorem rtpEnter_room (hr : rtpLevel e + n ≤ rtpSize) (h : isLossless s p prio = true ∨ mgetD e.level prio 0 + n ≤ lossyLim s p) :
    rtpEnter s p prio n = (rtpPanicIn (pfcReviewOne (setEth s p
      { e with level := mput e.level prio 0 (mgetD e.level prio 0 + n) }) p prio) p, true) := by
  have hroom : ¬ ((!isLossless s p prio) = true ∧ lossyLim s p < mgetD e.level prio 0 + n) := by
    rintro ⟨hl, hlim⟩
    rcases h with h | h
    · simp [h] at hl
    · omega
  rw [rtpEnter, he, if_neg (Nat.not_lt.mpr hr), if_neg hroom]

end Fifo

/-! ### Pauses (R113, R114) -/

section Pauses

variable {s : State} {p prio : Nat}

theorem pfcRefresh_due {t : Nat} (hx : mget (eth s p).xoff prio = some t) (ht : t ≤ s.now) (hl : isLossless s p prio = true)
    (hp : portSends s p = true) (hlev : xonKib s p * 1024 ≤ mgetD (eth s p).level prio 0) : pfcRefresh p prio s =
      pfcSend (setEth s p { eth s p with xoff := mset (eth s p).xoff prio (s.now + pfcHalf s p) }) p prio
        (getF s .eth p F.ETH_PFC_CTRL_QUANTA) := by
  simp only [pfcRefresh, hx, ht, hl, hp, hlev, and_self, if_true]

/-- One priority that a PFC frame names, as a change of the port. -/
theorem pfcOne_modEth (s : State) (p prio quanta : Nat) : pfcOne s p prio quanta = modEth s p (fun e =>
    if quanta = 0 then { e with paused := mdel e.paused prio }
    else { e with paused := mset e.paused prio (s.now + ceilDiv (quanta * 128) 100) }) := by
  unfold pfcOne modEth
  split <;> rfl

theorem pfcFrame_heard {dst : Nat} (l : List (Nat × Nat)) (hl : portLive s p = true) (hd : dst = portMac s p ∨ dst = 0x0180C2000001) :
    pfcFrame p dst l s = txFlush (l.foldl (fun s q => pfcOne s p (q.1 % 8) (q.2 % 65536)) s) := by
  have hto : (decide (dst = portMac s p) || decide (dst = 0x0180C2000001)) = true := by simpa using hd
  rw [pfcFrame, hl, hto]
  rfl

theorem pfcExpiry_due {t : Nat} (hx : mget (eth s p).paused prio = some t) (ht : t ≤ s.now) :
    pfcExpiry p prio s = txFlush (setEth s p { eth s p with paused := mdel (eth s p).paused prio }) := by
  simp only [pfcExpiry, hx, if_pos ht]

end Pauses

/-! ### Links (R103, R126, R144, R145) -/

section Links

variable {s : State} {p : Nat}

/-- Whether a port is quiet rests on its own last high symbol error rate (R103). -/
theorem portQuiet_setEth {e : EthPort} (h : e.serAt = (eth s p).serAt) : portQuiet (setEth s p e) p = portQuiet s p := by
  rw [portQuiet, eth_setEth, h]
  rfl

/-- Lock on a port that is enabled, down and quiet brings its link up. -/
theorem linkUp_quiet (he : getF s .eth p F.ETH_PORT_CTRL_ENABLE = 1) (hd : (eth s p).linkUp = false) (hr : s.mode ≠ .reset)
    (hh : s.mode ≠ .hold) (hq : portQuiet s p = true) : linkUp p s = pfcReview (txFlush (raise (setEth s p
      { eth s p with amLock := true, linkUp := true, holdUntil := none }) .eth p F.ETH_INT_RAW_LINK_UP)) p := by
  have hlocked {e : EthPort} (h : e.amLock = true) : e ≠ {} := fun h' => by simp [h'] at h
  rw [linkUp, if_pos ⟨hr, hh⟩, portTryUp, modEth, modEth]
  simp only [eth_setEth]
  rw [if_pos ⟨he, trivial, by simp [hd], (portQuiet_setEth (e := { eth s p with amLock := true }) rfl).trans hq⟩,
    setEth_setEth _ _ _ (hlocked rfl)]

/-- How a link goes down: nothing but its lock changes when it is down already, LINK_HOLD 0 loses its connections at once. -/
theorem linkGoesDown_cases (s : State) (p : Nat) (ser : Bool) : let e := eth s p; let hold := getF s .eth p F.ETH_PORT_CTRL_LINK_HOLD
    linkGoesDown p ser s =
      if e.linkUp = false then setEth s p { e with amLock := e.amLock && ser }
      else if hold = 0 then portLost (raise (setEth s p
        { e with amLock := e.amLock && ser, linkUp := false, xoff := [], holdUntil := none }) .eth p F.ETH_INT_RAW_LINK_DOWN) p
      else raise (setEth s p { e with amLock := e.amLock && ser, linkUp := false, xoff := [], holdUntil := some (s.now + hold * 100000000) })
        .eth p F.ETH_INT_RAW_LINK_DOWN := by
  intro e hold
  by_cases hup : e.linkUp = false
  · rw [if_pos hup, linkGoesDown_down ser hup, modEth]
  · rw [if_neg hup]
    by_cases hh : hold = 0
    · rw [if_pos hh, linkGoesDown_lost ser (eq_true_of_ne_false hup) hh, modEth]
    · rw [if_neg hh, linkGoesDown_held ser (eq_true_of_ne_false hup) hh, modEth]

theorem linkDown_lockLost (s : State) (p : Nat) : linkDown p false s = linkGoesDown p false s := rfl

/-- High symbol error rate keeps the lock, and its time is kept (R103, R145). -/
theorem linkDown_highSer (s : State) (p : Nat) :
    linkDown p true s = modEth (linkGoesDown p true s) p (fun e => { e with serAt := some s.now }) := rfl

/-- The end of a port's hold loses its connections. -/
theorem linkHoldExpiry_due {t : Nat} (h : (eth s p).holdUntil = some t) (ht : t ≤ s.now) :
    linkHoldExpiry p s = portLost (setEth s p { eth s p with holdUntil := none }) p := by
  simp only [linkHoldExpiry, h, if_pos ht, modEth]

end Links

/-! ### Address resolution (R107, R109) -/

section Resolution

variable {s : State} {p vlan ip i : Nat}

theorem arpRequest_answered (src : Nat) (hl : portLive s p = true) (hi : findIf s p vlan ip = some i) (h4 : (ifAt s i).isV4 = true) :
    arpRequest p vlan ip src s = answer s "arp" p vlan i src false := by
  simp only [arpRequest, hi, hl, h4, Bool.and_self, if_true]

theorem icmpEcho_answered {dst : Nat} (src : Nat) (hl : portLive s p = true) (hi : findIf s p vlan ip = some i)
    (hd : dst = portMac s p ∨ dst = macBroadcast ∨ isSolicited s p dst = true) :
    icmpEcho p vlan ip dst src s = answer s "echo" p vlan i src true := by
  have hto : (decide (dst = portMac s p) || decide (dst = macBroadcast) || isSolicited s p dst) = true := by
    simpa [or_assoc] using hd
  simp only [icmpEcho, hi, hl, hto, Bool.and_self, if_true]

theorem neighborSolicitation_answered (vlan src : Nat) (hl : portLive s p = true) (hi : findV6 s p ip = some i) :
    neighborSolicitation p vlan (solicitedIp ip) ip src s = answer s "nadv" p vlan i src true := by
  simp only [neighborSolicitation, hi, hl, decide_true, Bool.and_self, if_true]

end Resolution

/-- Settles O18: one lemma for each thing that can become of a frame, of a pause and of a link. -/
theorem portsComplete : Obligations.PortsComplete := by
  unfold Obligations.PortsComplete
  refine ⟨fun p prio s => ?flow, fun p s => ?links⟩
  case flow =>
    intro e
    refine ⟨fun hl f hf => ?frames, fun n => rfl, fun t hx ht hl hp hlev => ?refresh, fun dst l hl hd => ?pfc,
      fun t hx ht => congrArg done (pfcExpiry_due hx ht)⟩
    case frames =>
      subst hf
      intro s1 at'
      refine ⟨fun hu => congrArg done (frameReceived_uncorrectable hl hu), fun hu hbad => congrArg done (frameReceived_ignored hl hu hbad),
        fun hu hmin hmax htags htype hacc => ?accepted⟩
      have hip := frameReceived_accepted hl hu hmin hmax htags htype hacc
      refine ⟨fun hm => congrArg done (hip.trans (ipFrame_overMtu hm)), fun hm h => congrArg done (hip.trans (ipFrame_malformed hm h)),
        fun hm hfr ho => ?whole⟩
      have he : eth (fecCounted s f) f.port = e := eth_bumpBy ..
      refine ⟨fun hr => ?full, fun hr hl h => ?lossy, fun hr h => ?room⟩
      case full => exact congrArg done (hip.trans (ipFrame_dropped hm hfr ho (rtpEnter_full he hr)))
      case lossy => exact congrArg done (hip.trans (ipFrame_dropped hm hfr ho (rtpEnter_lossy he hr hl h)))
      case room => exact congrArg done (hip.trans (ipFrame_enters hm hfr ho (rtpEnter_room he hr h)))
    case refresh => exact congrArg done (pfcRefresh_due hx ht hl hp hlev)
    case pfc =>
      intro one
      refine congrArg done ((pfcFrame_heard l hl hd).trans ?_)
      exact congrArg (fun g => txFlush (l.foldl g s)) (funext fun u => funext fun q => pfcOne_modEth u p (q.1 % 8) (q.2 % 65536))
  case links =>
    intro e
    refine ⟨fun he hd hr hh hq => congrArg done (linkUp_quiet he hd hr hh hq), ?down,
      fun t h ht => congrArg done (linkHoldExpiry_due h ht), fun vlan ip src i dst hl => ⟨fun hi => ⟨fun h4 => ?arp, fun hd => ?echo⟩, fun hi => ?nbr⟩⟩
    case down =>
      intro hold down
      refine ⟨congrArg done ((linkDown_lockLost s p).trans (linkGoesDown_cases s p false)), congrArg done ((linkDown_highSer s p).trans ?_)⟩
      exact congrArg (modEth · p fun e => { e with serAt := some s.now }) (linkGoesDown_cases s p true)
    case arp => exact congrArg done (arpRequest_answered src hl hi h4)
    case echo => exact congrArg done (icmpEcho_answered src hl hi hd)
    case nbr => exact congrArg done (neighborSolicitation_answered vlan src hl hi)

end Sys2Proof.Machine
end

section
/-! PROOFS. Connections: their rate, their timeouts, what a TCP connection receives and how it closes (03_ethernet_transport.md R118,
R124, R131–R134). -/

namespace Sys2Proof.Machine

section Connections

variable {s : State} {id : Nat} {c : Conn} (hc : connOf s id = some c)

include hc

/-! ### Congestion (R118) -/

/-- The first notification, and one that comes DEC_GAP or more after the last drop, drops the rate. -/
theorem cnpReceived_drops (hr : c.rdma = true) (hf : c.lastDrop = none ∨ ∃ t, c.lastDrop = some t ∧ t + decGap s ≤ s.now) :
    cnpReceived id s = setConn s id { c with
      rate := max 1000000000 (c.rate - c.rate / 2 ^ (max 1 (getF s .tte 0 F.TTE_CC_CTRL_DEC_SHIFT)))
      lastDrop := some s.now, rateAt := s.now } := by
  rcases hf with hf | ⟨t, hf, ht⟩
  · simp only [cnpReceived, hc, hr, hf, Bool.and_self, if_true]
  · simp only [cnpReceived, hc, hr, hf, ht, decide_true, Bool.and_self, if_true]

theorem cnpReceived_early {t : Nat} (hd : c.lastDrop = some t) (ht : s.now < t + decGap s) : cnpReceived id s = s := by
  simp only [cnpReceived, hc, hd, Nat.not_le.mpr ht, decide_false, Bool.and_false, Bool.false_eq_true, if_false]

theorem rateIncrease_due (hr : c.rdma = true)
    (ht : c.rateAt + max 1 (getF s .tte 0 F.TTE_CC_CTRL_INC_PERIOD) * 10000 ≤ s.now) : rateIncrease id s = setConn s id { c with
      rate := min 400000000000 (c.rate + getF s .tte 0 F.TTE_CC_CTRL_INC_STEP * 1000000000), rateAt := s.now } := by
  simp only [rateIncrease, hc, hr, ht, and_self, if_true]

/-! ### Queue pairs (R131) -/

theorem qpError_conn : qpError s id = connLost (protoError (bump s .tte 0 F.TTE_QP_ERR) c) id := by
  simp only [qpError, hc]

/-- The acknowledgement of what is outstanding on a queue pair is overdue. -/
theorem ackTimeout_overdue {t : Nat} (hr : c.rdma = true) (ha : c.ackAt = some t) (ht : t + 67108864 ≤ s.now) : ackTimeout id s =
    if c.retries < 7 then tell (setConn s id { c with retries := c.retries + 1, ackAt := some s.now }) id c "retry" []
    else qpError s id := by
  have hover : c.ackAt.any (fun t => decide (t + 67108864 ≤ s.now)) = true := by
    rw [ha, Option.any_some]
    exact decide_eq_true ht
  simp only [ackTimeout, hc, hr, hover, Bool.and_self, if_true]

/-! ### TCP (R132–R134) -/

variable (ht : c.rdma = false)

include ht

theorem icReq_first (h d : Bool) (hn : c.ready = false) : icReq id h d s =
    sendMsg (setConn s id { c with ready := true, hdgst := h, ddgst := d }) id 128
      (fun x => .conn id "icresp" [maxH2cData, h.toNat, d.toNat] x) := by
  simp only [icReq, hc, ht, hn, Bool.not_false, Bool.and_self, if_true]

/-- A data PDU that ends its connection: its header digest is bad, or it is too long. -/
theorem h2cData_ends {cid len : Nat} {h d : Bool} (hb : (c.hdgst = true ∧ h = false) ∨ maxH2cData < len) :
    h2cData id cid len h d s = connDrop (protoError s c) id "end" := by
  have hbad : (c.hdgst && !h || decide (maxH2cData < len)) = true := by simpa using hb
  simp only [h2cData, hc, ht, hbad, Bool.false_eq_true, if_false, if_true, transportEnd]

/-- Any other fails its command with a bad data digest, and is taken with a good one. -/
theorem h2cData_keeps {cid len : Nat} {h : Bool} (d : Bool) (hb : ¬ ((c.hdgst = true ∧ h = false) ∨ maxH2cData < len)) :
    h2cData id cid len h d s = if c.ddgst = true ∧ d = false then failData (protoError s c) id cid else s := by
  have hgood : (c.hdgst && !h || decide (maxH2cData < len)) = false := by
    rw [← Bool.not_eq_true]
    simpa using hb
  simp only [h2cData, hc, ht, hgood, Bool.false_eq_true, if_false, Bool.and_eq_true, Bool.not_eq_true']

/-- The retransmission timeout of a connection has passed. -/
theorem tcpTimeout_overdue {t : Nat} (ha : c.ackAt = some t) (hd : t + c.rto ≤ s.now) : tcpTimeout id s =
    if c.retries < 8 then
      tell { setConn s id { c with retries := c.retries + 1, ackAt := some s.now, rto := rtoOf (Config.freeWord s.free).toNat } with
        free := s.free + 1 } id c "retransmit" []
    else connDrop (bump s .tte 0 F.TTE_TCP_RESET) id "rst" := by
  simp only [tcpTimeout, hc, ht, ha, Option.any_some, hd, decide_true, Bool.not_false, Bool.and_self, if_true]

end Connections

/-- Settles O19: one lemma for each thing that a connection receives or that its time brings. -/
theorem connectionsComplete : Obligations.ConnectionsComplete := by
  unfold Obligations.ConnectionsComplete
  refine fun id c s hc => ⟨fun hr => ⟨fun hf => ?drop, fun t hd ht => ?early, fun ht => ?rise, fun t ha ht => ?overdue⟩,
    fun ht => ⟨fun h d hn => ?icreq, fun cid len h d => ⟨fun hb => ?ends, fun hb => ?keeps⟩, fun t ha hd => ?retransmit⟩, rfl⟩
  case drop => exact congrArg done (cnpReceived_drops hc hr hf)
  case early => exact congrArg done (cnpReceived_early hc hd ht)
  case rise => exact congrArg done (rateIncrease_due hc hr ht)
  case overdue =>
    have hover := ackTimeout_overdue hc hr ha ht
    refine ⟨fun hn => congrArg done (hover.trans (if_pos hn)), fun hn => congrArg done (hover.trans ?_)⟩
    rw [if_neg (Nat.not_lt.mpr hn), qpError_conn hc]
  case icreq => exact congrArg done (icReq_first hc ht h d hn)
  case ends => exact congrArg done (h2cData_ends hc ht hb)
  case keeps =>
    have hkeep := h2cData_keeps (cid := cid) hc ht d hb
    exact ⟨fun hd => congrArg done (hkeep.trans (if_pos hd)), fun hd => congrArg done (hkeep.trans (if_neg hd))⟩
  case retransmit =>
    have hover := tcpTimeout_overdue hc ht ha hd
    exact ⟨fun hn => congrArg done (hover.trans (if_pos hn)), fun hn => congrArg done (hover.trans (if_neg (Nat.not_lt.mpr hn)))⟩

end Sys2Proof.Machine
end

section
/-! PROOFS. New queue pairs and TCP connections: whether the pool has an entry for them, and which requests are rejected
(03_ethernet_transport.md R110, R119, R120, R128, R132, R134). -/

namespace Sys2Proof.Machine

section Arrival

variable {c : NewConn} {i : Nat} {s : State} (hi : findIf s c.port c.vlan c.dstIp = some i) (hl : portLive s c.port = true)
  (hn : connOf s c.conn = none)

/-- The connection that an arrival at an interface makes of its own properties. -/
def arrived (s : State) (c : NewConn) (i : Nat) (k : Conn) : Conn :=
  let disc : Bool := c.service = getF s .tte 0 F.TTE_L4_PORTS_DISC_PORT
  { k with port := c.port, ifIdx := i, vlan := c.vlan, peerMac := c.peerMac, disc := disc, mgmt := (ifAt s i).mgmt && !disc,
           rateAt := s.now, recvBufs := 1 }

include hi hl hn

/-- An arrival at a service of the part takes an entry of its pool, or finds none (R119, R120). -/
theorem newConn_served (k : Conn) (why : String) (hs : c.service = getF s .tte 0 F.TTE_L4_PORTS_DISC_PORT ∨
      c.service = getF s .tte 0 F.TTE_L4_PORTS_IO_PORT) : newConn c k why s =
    if poolEmpty s i (arrived s c i k).mgmt (arrived s c i k).disc then
      tell (raise s .tte 0 F.TTE_INT_RAW_POOL_EMPTY) c.conn (arrived s c i k) why []
    else tell (setConn s c.conn (arrived s c i k)) c.conn (arrived s c i k) "accept" [] := by
  have hserved : (decide (c.service = getF s .tte 0 F.TTE_L4_PORTS_DISC_PORT) ||
      decide (c.service = getF s .tte 0 F.TTE_L4_PORTS_IO_PORT)) = true := by simpa using hs
  simp only [newConn, hi, hl, hn, hserved, Option.isSome_none, Bool.not_true, Bool.or_self, Bool.false_eq_true, if_false]
  rfl

/-- A queue pair that the part does not support is rejected (R128). -/
theorem rdmaConnect_rejected {r : RdmaReq} (h : rdmaOk s c.port r = false) : rdmaConnect c r s =
    tell s c.conn { port := c.port, ifIdx := i, vlan := c.vlan, peerMac := c.peerMac } "reject" [] := by
  simp only [rdmaConnect, h, hi, hl, hn, Option.isNone_none, Bool.and_self, Bool.false_eq_true, if_false, if_true]

end Arrival

theorem rdmaOk_iff (s : State) (p : Nat) (r : RdmaReq) : rdmaOk s p r = true ↔ r.rc = true ∧ r.srq = false ∧ r.atomics = false ∧
    (r.mtu = 1024 ∨ r.mtu = 2048 ∨ r.mtu = 4096) ∧ r.mtu + 128 ≤ portMtu s p := by
  simp [rdmaOk, and_assoc]

theorem rdmaConnect_supported {c : NewConn} {r : RdmaReq} {s : State} (h : rdmaOk s c.port r = true) :
    rdmaConnect c r s = newConn c { rdma := true, ready := true, pmtu := r.mtu } "reject 28" s := if_pos h

/-- Settles O20: an arrival at a service is served by its pool, whatever its transport. -/
theorem newConnectionsComplete : Obligations.NewConnectionsComplete := by
  unfold Obligations.NewConnectionsComplete
  intro c i s hi hl hn disc mgmt at' taken
  have hservice (h : disc = true ∨ c.service = getF s .tte 0 F.TTE_L4_PORTS_IO_PORT) :
      c.service = getF s .tte 0 F.TTE_L4_PORTS_DISC_PORT ∨ c.service = getF s .tte 0 F.TTE_L4_PORTS_IO_PORT :=
    h.imp_left of_decide_eq_true
  refine ⟨fun r => ?rdma, fun opts hs => ?tcp⟩
  case rdma =>
    intro ok
    refine ⟨fun h hs => ?supported, fun h => ?rejected⟩
    case supported =>
      refine congrArg done ((rdmaConnect_supported ((rdmaOk_iff s c.port r).mpr h)).trans ?_)
      exact newConn_served hi hl hn _ "reject 28" (hservice hs)
    case rejected =>
      have hno : rdmaOk s c.port r = false := Bool.eq_false_iff.mpr fun hok => h ((rdmaOk_iff s c.port r).mp hok)
      exact congrArg done (rdmaConnect_rejected hi hl hn hno)
  case tcp => exact congrArg done (newConn_served (s := { s with free := s.free + 2 }) hi hl hn _ "rst" (hservice hs))

end Sys2Proof.Machine
end

section
/-! PROOFS. TLS on a TCP connection: the ClientHello, the end of the handshake, records and key updates (03_ethernet_transport.md R135,
R137–R139; 12_sorrel_keys_cipher.md R475). -/

namespace Sys2Proof.Machine

section Tls

variable {s : State} {id : Nat} {c : Conn} (hc : connOf s id = some c)

/-! ### The handshake (R135, R137) -/

/-- A ClientHello offers a key exchange mode and a cipher suite that the part supports. -/
abbrev Hello.offers (h : Hello) : Prop :=
  (h.pskKe = true ∨ (h.pskDheKe = true ∧ h.secp384r1 = true)) ∧ (h.aes128 = true ∨ h.aes256 = true)

/-- The function that the report of a record names: 0x1FF for one that is of no tenant (R499). -/
def reportedFn (c : Conn) : Nat :=
  match c.fn with
  | some f => if f < 512 then f else 0x1FF
  | none => 0x1FF

include hc

/-- What a ClientHello comes to on a TCP connection without TLS. -/
theorem tlsHello_cases (h : Hello) (hr : c.rdma = false) (ht : c.tls = none) : tlsHello id h s =
    if h.offers then
      if pskKnown s h then tell (setConn s id { c with hello := some h.psk }) id c "server_hello" []
      else connDrop s id "unknown_psk_identity"
    else connDrop s id "handshake_failure" := by
  simp only [tlsHello, hc, hr, ht, Option.isSome_none, Bool.or_self, Bool.false_eq_true, if_false, Hello.offers, Bool.and_eq_true,
    Bool.or_eq_true]

theorem tlsDone_slot {k : Nat} (hh : c.hello.isSome = true) (ht : c.tls = none) (hk : freeTslot s = some k) : tlsDone id s =
    { setConn s id { c with tls := some { slot := k, rxSeq := 0, txSeq := 0, rxGen := 0 } } with
        tslots := mset s.tslots k s.nextKey, nextKey := s.nextKey + 1 } := by
  simp only [tlsDone, hc, hh, ht, hk, Option.isNone_none, Bool.and_self, if_true]
  rfl

theorem tlsDone_noSlot (hh : c.hello.isSome = true) (ht : c.tls = none) (hk : freeTslot s = none) :
    tlsDone id s = connDrop s id "internal_error" := by
  simp only [tlsDone, hc, hh, ht, hk, Option.isNone_none, Bool.and_self, if_true]

/-! ### Records (R138, R139, R475) -/

variable {t : Tls} (ht : c.tls = some t)

include ht

/-- What a record comes to under a key that is there. -/
theorem tlsRecord_good (len : Nat) (hk : mgetD s.tslots t.slot 0 ≠ 0) : let s1 := bump s .csx 0 F.CSX_TLS_REC_COUNT
    tlsRecord id len true s =
      if 16384 < len then connDrop (protoError s1 c) id "record_overflow"
      else if t.rxSeq = 2 ^ 64 - 1 then tlsClose s1 id
      else setConn s1 id { c with tls := some { t with rxSeq := t.rxSeq + 1 } } := by
  simp only [tlsRecord, hc, ht, hk, decide_false, Bool.not_true, Bool.or_self, Bool.false_eq_true, if_false]

/-- A record that does not authenticate, or whose slot was zeroed (R499). -/
theorem tlsRecord_bad (len : Nat) {ok : Bool} (hb : ok = false ∨ mgetD s.tslots t.slot 0 = 0) : tlsRecord id len ok s =
    connDrop (protoError (blockError (raise (bump s .csx 0 F.CSX_AUTH_FAIL_TLS) .csx 0 F.CSX_INT_RAW_TLS_FAIL) .csx 0 0x02
      (reportedFn c) t.slot 0) c) id "bad_record_mac" := by
  have hbad : (!ok || decide (mgetD s.tslots t.slot 0 = 0)) = true := by simpa using hb
  simp only [tlsRecord, hc, ht, hbad, if_true]
  rfl

theorem tlsKeyUpdate_conn : tlsKeyUpdate id s = setConn s id { c with tls := some { t with rxGen := t.rxGen + 1, rxSeq := 0 } } := by
  simp only [tlsKeyUpdate, hc, ht]

end Tls

/-- Settles O21: the branches of the handshake, of a record and of a key update. -/
theorem tlsCompletes : Obligations.TlsCompletes := by
  unfold Obligations.TlsCompletes
  refine fun id c s hc => ⟨fun h hr ht => ?hello, fun hh ht => ⟨fun k hk => ?slot, fun hk => ?noSlot⟩,
    fun t ht => ⟨fun len hk => ?good, fun len ok hb => ?bad, ?update⟩⟩
  case hello =>
    have hcases := tlsHello_cases hc h hr ht
    intro offers
    refine ⟨fun ho hk => ?_, fun ho hk => ?_, fun ho => congrArg done (hcases.trans (if_neg ho))⟩
    · exact congrArg done (hcases.trans ((if_pos ho).trans (if_pos hk)))
    · exact congrArg done (hcases.trans ((if_pos ho).trans (if_neg (Bool.not_eq_true _ ▸ hk))))
  case slot => exact congrArg done (tlsDone_slot hc hh ht hk)
  case noSlot => exact congrArg done (tlsDone_noSlot hc hh ht hk)
  case good =>
    have hgood := tlsRecord_good hc ht len hk
    intro s1
    refine ⟨fun hl hq => ?_, fun hl hq => ?_, fun hl => congrArg done (hgood.trans (if_pos hl))⟩
    · exact congrArg done (hgood.trans ((if_neg (Nat.not_lt.mpr hl)).trans (if_neg hq)))
    · exact congrArg done (hgood.trans ((if_neg (Nat.not_lt.mpr hl)).trans (if_pos hq)))
  case bad => exact congrArg done (tlsRecord_bad hc ht len hb)
  case update => exact congrArg done (tlsKeyUpdate_conn hc ht)

end Sys2Proof.Machine
end

section
/-! PROOFS. Connect and Disconnect, and the end of the keep-alive timeout (03_ethernet_transport.md R111, R121–R123, R125, R127, R136;
05_tenant_functions.md R215). -/

namespace Sys2Proof.Machine

/-! ### Fabrics commands that are taken -/

/-- CFE takes fabrics commands, and the checks that every one of them has hold (R161, R355, R595). -/
abbrev FabricsOpen (s : State) (q : Capsule) : Prop :=
  (s.mode = .run ∨ s.mode = .service) ∧ s.plRun = none ∧ s.pwr.entry = none ∧ q.reserved = false ∧ q.unknown = false

theorem FabricsOpen.notShut {s : State} {q : Capsule} (h : FabricsOpen s q) : fabricsShut s = false := by
  obtain ⟨hm, hp, he, -⟩ := h
  rcases hm with hm | hm <;> simp [fabricsShut, hm, hp, he]

/-- The function whose admin queue a connection is, is the one that it is connected to. -/
theorem fn_of_adminFn {s : State} {id f : Nat} {c : Conn} (hc : connOf s id = some c) (h : adminFn s id = some f) : c.fn = some f := by
  simp only [adminFn, hc] at h
  split at h
  · exact h
  · cases h

/-- A fabrics command runs when no activation holds admission, none waits on its connection, and it has its controller's turn if
it has one (R188, R189). -/
theorem inTurn_fabrics {q : Capsule} {i : Instr} {run : State → State} {s : State} (hp : PduGood s q) (hw : s.fwHold = none)
    (hh : ∀ h ∈ s.held, h.1 ≠ q.conn) (ht : ∀ f, adminFn s q.conn = some f → AdminTurn s f) : inTurn q i false run s = run s := by
  have hturn : itsTurn s q false = true := by
    cases hf : adminFn s q.conn with
    | none => simp [itsTurn, hw, hf]
    | some f =>
      obtain ⟨-, hbusy, hheld⟩ := ht f hf
      simp [itsTurn, hw, hf, hbusy, hheld]
  have hstay : s.held.filter (fun h => !(decide (h.1 = q.conn) && decide (h.2.1 = q.cid))) = s.held :=
    List.filter_eq_self.mpr fun h hm => by simp [hh h hm]
  rw [inTurn, capsuleIn_good hp, if_pos hturn, hstay]

/-! ### The checks of a Connect (R122, R136, R215) -/

section Checks

variable {s : State} {c : Conn} {d : ConnectData}

theorem tlsRefused_of_required {t : Tenant}
    (h : t.par.flags % 2 = 1 → c.tls.isSome = true ∧ ∃ i, c.hello = some i ∧ (mget t.psk i).isSome = true) : tlsRefused t c = false := by
  by_cases hf : t.par.flags % 2 = 1
  · obtain ⟨htls, i, hi, hpsk⟩ := h hf
    simp [tlsRefused, hi, hpsk, Option.isNone_eq_false_iff.mpr htls]
  · simp [tlsRefused, hf]

theorem authRefused_of_required {t : Tenant} {host : Nat} (h : t.par.flags / 2 % 2 = 1 → t.secrets.any (fun p => p.1 = host) = true) :
    authRefused t host = false := by
  by_cases hf : t.par.flags / 2 % 2 = 1
  · rw [authRefused, h hf, Bool.not_true, Bool.and_false]
  · rw [authRefused, decide_eq_false hf, Bool.false_and]

/-- A Connect names the CNTLID of a subsystem that is there for the interface, the host and the security of its connection. -/
abbrev Reaches (s : State) (c : Conn) (d : ConnectData) : Prop :=
  let t := tenant s d.subsys
  d.cntlid = d.subsys + 1 ∧
    (d.subsys < 512 → s.mode ≠ .service ∧ t.state ≠ .free ∧ t.state ≠ .removing ∧ (ifAt s c.ifIdx).mgmt = false ∧
      t.par.ifMask / 2 ^ c.ifIdx % 2 = 1 ∧ d.hostNqn ≠ 0 ∧ t.par.allow.contains d.hostNqn = true ∧
      (t.par.flags % 2 = 1 → c.tls.isSome = true ∧ ∃ i, c.hello = some i ∧ (mget t.psk i).isSome = true) ∧
      (t.par.flags / 2 % 2 = 1 → t.secrets.any (fun p => p.1 = d.hostNqn) = true)) ∧
    (d.subsys = 512 → (ifAt s c.ifIdx).mgmt = true)

/-- The checks on the queue that a Connect asks for, once its subsystem is reached. -/
def queueCheck (s : State) (d : ConnectData) : Option Status :=
  let k := ctrl s d.subsys
  if d.qid = 0 then
    if k.assoc.any (fun a => a.conn.isSome || a.hostNqn ≠ d.hostNqn || a.hostId ≠ d.hostId) then some stConnectBusy
    else if 31 < d.sqsize ∨ d.sqsize = 0 then some stConnectParams
    else none
  else if d.subsys = fnMF ∨ (tenant s d.subsys).par.ioqGrant < d.qid ∨ 1023 < d.sqsize ∨ d.sqsize = 0 ∨ (mget k.ioqs d.qid).isSome then
    some stConnectParams
  else match k.assoc with
    | none => some stConnectParams
    | some a => if a.conn.isNone ∨ a.hostNqn ≠ d.hostNqn ∨ a.hostId ≠ d.hostId then some stConnectParams else none

/-- Of a Connect that reaches its subsystem only the checks on its queue are left. -/
theorem connectCheck_reaches (h : Reaches s c d) : connectCheck s c d = queueCheck s d := by
  obtain ⟨hid, htenant, hmf⟩ := h
  have hcntlid : d.cntlid = cntlidOf d.subsys := hid
  have hserved : ¬ (d.subsys < 512 ∧
      (s.mode = .service ∨ (tenant s d.subsys).state = .free ∨ (tenant s d.subsys).state = .removing)) := by
    rintro ⟨hlt, h⟩
    obtain ⟨hrun, hfree, hrem, -⟩ := htenant hlt
    rcases h with h | h | h
    · exact hrun h
    · exact hfree h
    · exact hrem h
  have hmgmt : ¬ (d.subsys = fnMF ∧ (!(ifAt s c.ifIdx).mgmt) = true) := fun ⟨hf, h⟩ => by simp [hmf hf] at h
  have hhost : ¬ (d.subsys < 512 ∧ ((ifAt s c.ifIdx).mgmt = true ∨ (tenant s d.subsys).par.ifMask / 2 ^ c.ifIdx % 2 = 0 ∨
      d.hostNqn = 0 ∨ (!(tenant s d.subsys).par.allow.contains d.hostNqn) = true ∨ tlsRefused (tenant s d.subsys) c = true ∨
      authRefused (tenant s d.subsys) d.hostNqn = true)) := by
    rintro ⟨hlt, h⟩
    obtain ⟨-, -, -, hown, hmask, hnqn, hallow, htls, hauth⟩ := htenant hlt
    rw [hown, hallow, tlsRefused_of_required htls, authRefused_of_required hauth] at h
    simp [hmask, hnqn] at h
  rw [connectCheck, if_neg (not_not.mpr hcntlid), if_neg hserved, if_neg hmgmt, if_neg hhost]
  rfl

theorem queueCheck_admin (hq : d.qid = 0) (hmin : 1 ≤ d.sqsize) (hmax : d.sqsize ≤ 31)
    (ha : ∀ a, (ctrl s d.subsys).assoc = some a → a.conn = none ∧ a.hostNqn = d.hostNqn ∧ a.hostId = d.hostId) :
    queueCheck s d = none := by
  have hfree : ¬ (ctrl s d.subsys).assoc.any (fun a => a.conn.isSome || a.hostNqn ≠ d.hostNqn || a.hostId ≠ d.hostId) = true := by
    cases hk : (ctrl s d.subsys).assoc with
    | none => simp
    | some a => simp [ha a hk]
  rw [queueCheck, if_pos hq, if_neg hfree, if_neg (by omega)]

theorem queueCheck_io {a : Assoc} (hq : d.qid ≠ 0) (hf : d.subsys < 512) (hg : d.qid ≤ (tenant s d.subsys).par.ioqGrant)
    (hmin : 1 ≤ d.sqsize) (hmax : d.sqsize ≤ 1023) (hn : mget (ctrl s d.subsys).ioqs d.qid = none)
    (ha : (ctrl s d.subsys).assoc = some a) (hc : a.conn.isSome = true) (hnqn : a.hostNqn = d.hostNqn) (hid : a.hostId = d.hostId) :
    queueCheck s d = none := by
  have hqueue : ¬ (d.subsys = fnMF ∨ (tenant s d.subsys).par.ioqGrant < d.qid ∨ 1023 < d.sqsize ∨ d.sqsize = 0 ∨
      (mget (ctrl s d.subsys).ioqs d.qid).isSome = true) := by
    rw [hn]
    unfold fnMF
    simp
    omega
  have hhost : ¬ (a.conn.isNone = true ∨ a.hostNqn ≠ d.hostNqn ∨ a.hostId ≠ d.hostId) := by
    simp [hnqn, hid, Option.isSome_iff_ne_none.mp hc]
  simp only [queueCheck, if_neg hq, if_neg hqueue, ha, if_neg hhost]

end Checks

/-! ### The queue that is created -/

section Queue

variable {s : State} {id : Nat} {c : Conn} {d : ConnectData}

/-- The connection as a queue of its controller. -/
def joinedConn (c : Conn) (d : ConnectData) : Conn :=
  { c with fn := some d.subsys, qid := d.qid, hostNqn := d.hostNqn, sqsize := d.sqsize, recvBufs := d.sqsize + 2 }

/-- The association that an admin queue makes: it keeps how far an authentication had come (R122, R125, R127). -/
def joinedAssoc (k : Ctrl) (id : Nat) (d : ConnectData) (now : Nat) : Assoc :=
  { conn := some id, hostNqn := d.hostNqn, hostId := d.hostId, kato := ceilDiv d.kato 100 * 100, kaAt := now,
    authStep := k.assoc.elim 0 (·.authStep), authDone := k.assoc.elim false (·.authDone), lostAt := none }

theorem connectTake_admin (hq : d.qid = 0) : connectTake s id c d = setCtrl (setConn s id (joinedConn c d)) d.subsys
    { ctrl s d.subsys with assoc := some (joinedAssoc (ctrl s d.subsys) id d s.now) } := by
  have hk : ctrl (setConn s id (joinedConn c d)) d.subsys = ctrl s d.subsys := rfl
  unfold joinedConn at hk
  rw [connectTake, if_pos hq, modCtrl, hk, joinedAssoc]
  cases (ctrl s d.subsys).assoc <;> rfl

theorem connectTake_io (hq : d.qid ≠ 0) : connectTake s id c d = setCtrl (setConn s id (joinedConn c d)) d.subsys
    { ctrl s d.subsys with ioqs := mset (ctrl s d.subsys).ioqs d.qid id } := by
  rw [connectTake, if_neg hq]
  rfl

end Queue

/-! ### The commands -/

/-- What a Connect to MF or a tenant comes to. -/
def connectTo (q : Capsule) (c : Conn) (d : ConnectData) (s : State) : State :=
  match connectCheck s c d with
  | some st => refuse s q st 0
  | none => postOk (fabricsIn (connectTake s q.conn c d)) q.conn q.cid (cntlidOf d.subsys) []

theorem connectTo_refused {q : Capsule} {c : Conn} {d : ConnectData} {s : State} {st : Status} (h : connectCheck s c d = some st) :
    connectTo q c d s = refuse s q st 0 := by
  rw [connectTo, h]

theorem connectTo_accepted {q : Capsule} {c : Conn} {d : ConnectData} {s : State} (h : connectCheck s c d = none) :
    connectTo q c d s = postOk (fabricsIn (connectTake s q.conn c d)) q.conn q.cid (d.subsys + 1) [] := by
  rw [connectTo, h, cntlidOf]

section Commands

variable {q : Capsule} {c : Conn} {s : State} (hc : connOf s q.conn = some c) (ho : FabricsOpen s q)

include hc ho

/-- A Connect on a connection that may take one. -/
theorem connect_taken (d : ConnectData) (hr : c.ready = true) (hn : c.fn = none) : connect q d s =
    if d.subsys = 513 then
      if c.disc = true ∧ d.qid = 0 then
        postOk (setConn (fabricsIn s) q.conn { c with fn := some 513, hostNqn := d.hostNqn, recvBufs := d.sqsize + 2 }) q.conn q.cid 0 []
      else refuse s q stConnectParams 0
    else if 513 < d.subsys ∨ c.disc = true then refuse s q stConnectParams 0
    else connectTo q c d s := by
  have hshut := ho.notShut
  obtain ⟨hm, -, he, hres, hunk⟩ := ho
  simp only [connect, serveMode_run hm he, hc, hr, hn, hshut, hres, hunk, Bool.not_true, Option.isSome_none, Bool.or_self,
    Bool.false_eq_true, if_false]
  rfl

/-- A Connect to MF or a tenant comes to its checks. -/
theorem connect_subsystem {d : ConnectData} (hr : c.ready = true) (hn : c.fn = none) (hf : d.subsys ≤ 512) (hd : c.disc = false) :
    connect q d s = connectTo q c d s := by
  rw [connect_taken hc ho d hr hn, if_neg (by omega), if_neg (by rw [hd]; simp; omega)]

theorem connect_accepted {d : ConnectData} (hr : c.ready = true) (hn : c.fn = none) (hf : d.subsys ≤ 512) (hd : c.disc = false)
    (hreach : Reaches s c d) (hqueue : queueCheck s d = none) :
    connect q d s = postOk (fabricsIn (connectTake s q.conn c d)) q.conn q.cid (d.subsys + 1) [] :=
  (connect_subsystem hc ho hr hn hf hd).trans (connectTo_accepted ((connectCheck_reaches hreach).trans hqueue))

/-- A Disconnect completes before its connection is lost. -/
theorem disconnect_taken {f : Nat} (hn : c.fn = some f) (hf : f < 513) (hs : s.mode = .service → f = 512)
    (ha : authMissing s f = false) : disconnect q s = connLost (postOk (fabricsIn s) q.conn q.cid 0 []) q.conn := by
  have hshut := ho.notShut
  obtain ⟨hm, -, he, hres, hunk⟩ := ho
  have hserved : (decide (s.mode = .service) && decide (f < 512)) = false := by
    rw [Bool.and_eq_false_iff, decide_eq_false_iff_not, decide_eq_false_iff_not]
    by_cases h : s.mode = .service
    · exact .inr (by have := hs h; omega)
    · exact .inl h
  have hdisc : decide (f = 513) = false := decide_eq_false (by omega)
  simp only [disconnect, serveMode_run hm he, hc, hn, hshut, hserved, hdisc, hres, hunk, ha, Bool.or_self, Bool.false_eq_true, if_false]

end Commands

theorem keepAliveTimeout_due {s : State} {f : Nat} {a : Assoc} (ha : (ctrl s f).assoc = some a) (hk : a.kato ≠ 0)
    (ht : a.since + a.kato * 1000000 ≤ s.now) : keepAliveTimeout f s = ctrlReset s f true true := by
  simp only [keepAliveTimeout, ha, if_pos (And.intro hk ht)]

/-- Settles O27: a Connect has its turn and comes to the checks on its subsystem, then to those on its queue. -/
theorem connectCompletes : Obligations.ConnectCompletes := by
  unfold Obligations.ConnectCompletes
  intro q c s hc hp hw hh hm hpl he hres hunk
  have ho : FabricsOpen s q := ⟨hm, hpl, he, hres, hunk⟩
  refine ⟨fun d hr hn => ?connect, fun f hn hf hs ht ha => ?disconnect, fun f a ha hk ht => congrArg done (keepAliveTimeout_due ha hk ht)⟩
  case connect =>
    have hnone : ∀ f, adminFn s q.conn = some f → AdminTurn s f := by
      intro f hf
      simp [adminFn, hc, hn] at hf
    have hrun : exec (.connect q d) s = done (connect q d s) := congrArg done (inTurn_fabrics hp hw hh hnone)
    intro t k joined reach
    refine ⟨fun hf hd hq => ?discovery, fun hf hd hreach => ⟨fun hq ha hmin hmax => ?adminQueue, fun hq hf' hg hmin hmax hn' ha => ?ioQueue⟩,
      fun st hf hd hst => ?refused⟩
    case discovery =>
      rw [hrun, connect_taken hc ho d hr hn, if_pos hf, if_pos ⟨hd, hq⟩]
      rfl
    case adminQueue =>
      rw [hrun, connect_accepted hc ho hr hn hf hd hreach (queueCheck_admin hq hmin hmax ha), connectTake_admin hq]
      rfl
    case ioQueue =>
      obtain ⟨a, ha, hconn, hnqn, hid⟩ := ha
      rw [hrun, connect_accepted hc ho hr hn hf hd hreach (queueCheck_io hq hf' hg hmin hmax hn' ha hconn hnqn hid), connectTake_io hq]
      rfl
    case refused =>
      rw [hrun, connect_subsystem hc ho hr hn hf hd, connectTo_refused hst]
      rfl
  case disconnect =>
    have hown : ∀ g, adminFn s q.conn = some g → AdminTurn s g := by
      intro g hg
      obtain rfl : f = g := Option.some.inj (hn.symm.trans (fn_of_adminFn hc hg))
      exact ht hg
    exact congrArg done ((inTurn_fabrics hp hw hh hown).trans (disconnect_taken hc ho hn hf hs ha))

end Sys2Proof.Machine
end

section
/-! PROOFS. Properties, controller resets and authentication (03_ethernet_transport.md R140; 04_commands_and_ordering.md R158, R185,
R187; 12_sorrel_keys_cipher.md R475). -/

namespace Sys2Proof.Machine

/-! ### Admission -/

/-- A command that MF and the tenants accept. -/
theorem Accept.has_function {a : Accept} {f : Nat} (hm : a.mf = true) (ht : a.tf = true) (hf : f ≤ 512) : a.has f = true := by
  unfold Accept.has fnMF
  by_cases h : f = 512
  · rw [if_pos h, hm]
  · rw [if_neg h, if_pos (by omega), ht]

/-- A command that the discovery controller accepts too. -/
theorem Accept.has_any {a : Accept} (f : Nat) (hm : a.mf = true) (ht : a.tf = true) (hd : a.disc = true) : a.has f = true := by
  unfold Accept.has
  rw [hm, ht, hd, ite_self, ite_self]

section Admission

variable {q : Capsule} {i : Instr} {f : Nat} {run : Nat → State → Verdict} {s t : State}

/-- A ready fabrics command that the discovery controller supports too comes to what it executes. -/
theorem fabricsBoth_yes (h : Ready s q f) (hr : run f (served s f) = .yes t) : inTurn q i false (admin q fabricsBoth run) s = t :=
  turn_yes h (Accept.has_any f rfl rfl rfl) rfl rfl hr

/-- A ready command of an authentication comes to what it executes. -/
theorem authBoth_yes (h : AuthReady s q f) (hf : f ≤ 512) (hr : run f (served s f) = .yes t) :
    inTurn q i false (admin q authBoth run) s = t :=
  auth_yes h (Accept.has_function rfl rfl hf) rfl rfl rfl rfl hr

end Admission

/-- A completion leaves the controllers, and a change of one after it is of the controller as it was. -/
@[simp] theorem ctrl_postOk (s : State) (conn cid v : Nat) (l : List Nat) (f : Nat) : ctrl (postOk s conn cid v l) f = ctrl s f := by
  obtain ⟨c, w, o, h⟩ : ∃ c w o, postOk s conn cid v l = { s with conns := c, txWait := w, out := o } := sendMsg_frame ..
  rw [h]
  rfl

theorem modCtrl_postOk (s : State) (conn cid v : Nat) (l : List Nat) (f : Nat) (g : Ctrl → Ctrl) :
    modCtrl (postOk s conn cid v l) f g = setCtrl (postOk s conn cid v l) f (g (ctrl s f)) := by
  rw [modCtrl, ctrl_postOk]

/-! ### Properties (R158) -/

section Properties

variable {q : Capsule} {i : Instr} {f : Nat} {s : State} (h : Ready s q f)

include h

theorem propertyGet_ready {lo hi : Nat} (hv : propValue (served s f) f q.dw11 = some (lo, hi)) :
    inTurn q i false (propertyGet q) s = post (served s f) q.conn q.cid stOk lo hi [] :=
  fabricsBoth_yes h (by rw [hv])

/-- What a set of CC comes to: it clears EN, asks for a shutdown, or does neither. -/
theorem propertySet_ready (hcc : q.dw11 = 0x14) : let s1 := postOk (served s f) q.conn q.cid 0 []
    inTurn q i false (propertySet q) s =
      if (ctrl (served s f) f).cc % 2 = 1 ∧ q.dw12 % 2 = 0 then ccClear s1 f
      else if bitsOf q.dw12 15 14 ≠ 0 then ccShutdown s1 f q.dw12
      else ccWrite s1 f q.dw12 :=
  fabricsBoth_yes h (if_neg (not_not.mpr hcc))

theorem ccEnClear_ready : inTurn q i false (ccEnClear q) s = ccClear (postOk (served s f) q.conn q.cid 0 []) f :=
  fabricsBoth_yes h rfl

theorem ccShn_ready : inTurn q i false (ccShn q) s =
    ccShutdown (postOk (served s f) q.conn q.cid 0 []) f (putBits q.dw12 15 14 (max 1 (bitsOf q.dw12 15 14))) :=
  fabricsBoth_yes h rfl

end Properties

theorem ctrlResetDone_finished {s : State} {f : Nat} (hr : (ctrl s f).resetting = true) (hc : ∀ p ∈ s.cmds, p.2.fn ≠ f) :
    ctrlResetDone f s = ctrlReset s f false false := by
  have hnone : s.cmds.any (fun p => p.2.fn = f) = false := List.any_eq_false.mpr fun p hp => by simp [hc p hp]
  rw [ctrlResetDone, if_pos ⟨hr, by rw [hnone]; rfl⟩]

/-! ### The association of a controller (R140) -/

section Association

/-- The controller with an association. -/
def putAssoc (s : State) (f : Nat) (b : Assoc) : State := setCtrl s f { ctrl s f with assoc := some b }

variable {s : State} {f : Nat} {a : Assoc}

theorem ctrl_putAssoc (s : State) (f : Nat) (b : Assoc) : ctrl (putAssoc s f b) f = { ctrl s f with assoc := some b } :=
  ctrl_setCtrl ..

theorem putAssoc_putAssoc (s : State) (f : Nat) (a b : Assoc) : putAssoc (putAssoc s f a) f b = putAssoc s f b := by
  have hne : ({ ctrl s f with assoc := some a } : Ctrl) ≠ {} := fun h => by cases congrArg Ctrl.assoc h
  rw [putAssoc, ctrl_putAssoc, putAssoc, setCtrl_setCtrl s f _ hne, putAssoc]

variable (ha : (ctrl s f).assoc = some a)

include ha

theorem setAuth_putAssoc (step : Nat) (ok : Bool) : setAuth s f step ok = putAssoc s f { a with authStep := step, authDone := ok } := by
  rw [setAuth, modCtrl, ha, putAssoc]
  rfl

theorem setAgreed_putAssoc (x : Nat × Nat) : setAgreed s f x = putAssoc s f { a with authHash := x.1, authDh := x.2 } := by
  rw [setAgreed, modCtrl, ha, putAssoc]
  rfl

theorem setChallenge_putAssoc (c : Option Nat) : setChallenge s f c = putAssoc s f { a with authChallenge := c } := by
  rw [setChallenge, modCtrl, ha, putAssoc]
  rfl

/-- A negotiation that agrees on a hash function and a DH group. -/
theorem setAuth_setAgreed (x : Nat × Nat) (step : Nat) : setAuth (setAgreed s f x) f step false =
    putAssoc s f { a with authHash := x.1, authDh := x.2, authStep := step, authDone := false } := by
  rw [setAgreed_putAssoc ha, setAuth_putAssoc (congrArg Ctrl.assoc (ctrl_putAssoc ..)), putAssoc_putAssoc]

/-- A reply with the host's own challenge. -/
theorem setChallenge_setAuth (c : Option Nat) (step : Nat) : setChallenge (setAuth s f step false) f c =
    putAssoc s f { a with authStep := step, authDone := false, authChallenge := c } := by
  rw [setAuth_putAssoc ha, setChallenge_putAssoc (congrArg Ctrl.assoc (ctrl_putAssoc ..)), putAssoc_putAssoc]

end Association

/-! ### Authentication (R140) -/

theorem authAgree_offered {hashes groups : List Nat} {h g : Nat} (hh : hashes.find? ([1, 2, 3].contains ·) = some h)
    (hg : groups.find? ([0, 1, 2, 3].contains ·) = some g) : authAgree hashes groups false = some (h, g) := by
  rw [authAgree, authHashes, authGroups, hh, hg]
  rfl

theorem authAgree_nothing {hashes groups : List Nat} {secure : Bool} (h : secure = true ∨
    hashes.find? ([1, 2, 3].contains ·) = none ∨ groups.find? ([0, 1, 2, 3].contains ·) = none) : authAgree hashes groups secure = none := by
  rw [authAgree, authHashes, authGroups]
  rcases h with h | h | h
  · rw [if_pos h]
  · rw [h, ite_self]
  · rw [h]
    cases hashes.find? ([1, 2, 3].contains ·) <;> exact ite_self _

section Exchange

variable {q : Capsule} {i : Instr} {f : Nat} {s : State} (h : AuthReady s q f) (hf : f ≤ 512) {a : Assoc}
  (ha : (ctrl (served s f) f).assoc = some a)

include h hf ha

theorem authSend_negotiate {hashes groups : List Nat} {secure : Bool} {x : Nat × Nat} (hx : authAgree hashes groups secure = some x) :
    inTurn q i false (authSend q (.negotiate hashes groups secure)) s = postOk (putAssoc (served s f) f
      { a with authHash := x.1, authDh := x.2, authStep := if hasSecret (served s f) f then 1 else 9, authDone := false }) q.conn q.cid 0 [] :=
  authBoth_yes h hf (by simp only [ha, hx, setAuth_setAgreed ha])

theorem authSend_disagree {hashes groups : List Nat} {secure : Bool} (hx : authAgree hashes groups secure = none) :
    inTurn q i false (authSend q (.negotiate hashes groups secure)) s =
      postOk (putAssoc (served s f) f { a with authStep := 9, authDone := false }) q.conn q.cid 0 [] :=
  authBoth_yes h hf (by simp only [ha, hx, setAuth_putAssoc ha])

theorem authSend_reply (good : Bool) (challenge : Option Nat) (hs : a.authStep = 2) :
    inTurn q i false (authSend q (.reply good challenge)) s = postOk (putAssoc (served s f) f
      { a with authStep := if good then 3 else 9, authDone := false, authChallenge := challenge }) q.conn q.cid 0 [] :=
  authBoth_yes h hf (by simp only [ha, hs, if_true, setChallenge_setAuth ha])

theorem authSend_success (hs : a.authDone = true ∨ (a.authStep = 4 ∧ a.authChallenge.isSome = true)) :
    inTurn q i false (authSend q .success) s =
      postOk (putAssoc (served s f) f { a with authStep := 4, authDone := true }) q.conn q.cid 0 [] :=
  authBoth_yes h hf (by simp only [ha, if_pos hs, setAuth_putAssoc ha])

theorem authSend_failure : inTurn q i false (authSend q .failure) s = endAssoc (postOk (served s f) q.conn q.cid 0 []) f :=
  authBoth_yes h hf (by simp only [ha])

theorem authReceive_challenge (hs : a.authStep = 1) : inTurn q i false (authReceive q) s = postOk
    { putAssoc (served s f) f { a with authStep := 2, authDone := false } with free := (served s f).free + 1 } q.conn q.cid 0
    [a.authHash, a.authDh, (Config.freeRandom (served s f).free).toNat] :=
  authBoth_yes h hf (by simp only [ha, if_pos hs, setAuth_putAssoc ha])

theorem authReceive_success (hs : a.authStep = 3) : inTurn q i false (authReceive q) s = postOk
    (putAssoc (served s f) f { a with authStep := 4, authDone := a.authChallenge.isNone }) q.conn q.cid 0
    (authResponse (served s f) f a) := by
  have hne : a.authStep ≠ 1 := by omega
  exact authBoth_yes h hf (by simp only [ha, if_neg hne, if_pos hs, setAuth_putAssoc ha])

theorem authReceive_failure (hs : a.authStep = 9) : inTurn q i false (authReceive q) s =
    endAssoc (postOk (served s f) q.conn q.cid 0 []) f := by
  have hne1 : a.authStep ≠ 1 := by omega
  have hne3 : a.authStep ≠ 3 := by omega
  exact authBoth_yes h hf (by simp only [ha, if_neg hne1, if_neg hne3, if_pos hs])

end Exchange

/-- Settles O28: each command comes to what it executes, and an association set in steps is the association set once. -/
theorem propertiesComplete : Obligations.PropertiesComplete := by
  unfold Obligations.PropertiesComplete
  refine ⟨fun q f s h hf => ?properties, fun f s hr hc => congrArg done (ctrlResetDone_finished hr hc), fun q f s h hf => ?exchange⟩
  case properties =>
    intro s1 k ok get cleared shut
    have hclear : ccClear ok f = cleared := by rw [ccClear, modCtrl_postOk]
    have hshut (v : Nat) : ccShutdown ok f v = shut v := modCtrl_postOk ..
    have hwrite (v : Nat) : ccWrite ok f v = setCtrl ok f
        { k with cc := v % 2 ^ 32, rdy := v % 2 = 1, shst := if v % 2 = 1 ∧ k.cc % 2 = 0 then 0 else k.shst } := modCtrl_postOk ..
    refine ⟨fun ho => ?cap, fun ho => ?vs, fun ho => ?cc, fun ho => ?csts, fun ho => ?set, ?enClear, ?shutdown⟩
    case cap => exact congrArg done (propertyGet_ready h (congrArg (propValue s1 f) ho))
    case vs => exact congrArg done (propertyGet_ready h (congrArg (propValue s1 f) ho))
    case cc => exact congrArg done (propertyGet_ready h (congrArg (propValue s1 f) ho))
    case csts => exact congrArg done (propertyGet_ready h (congrArg (propValue s1 f) ho))
    case set =>
      have hset := propertySet_ready (i := .propertySet q) h ho
      intro clears
      refine ⟨fun hcl => ?_, fun hcl hs => ?_, fun hcl hs => ?_⟩
      · exact congrArg done (hset.trans ((if_pos hcl).trans hclear))
      · exact congrArg done (hset.trans ((if_neg hcl).trans ((if_pos hs).trans (hshut q.dw12))))
      · exact congrArg done (hset.trans ((if_neg hcl).trans ((if_neg (not_not.mpr hs)).trans (hwrite q.dw12))))
    case enClear => exact congrArg done ((ccEnClear_ready h).trans hclear)
    case shutdown => exact congrArg done ((ccShn_ready h).trans (hshut _))
  case exchange =>
    intro s1 k a ha put ok
    refine ⟨fun hashes groups x g hh hg => congrArg done (authSend_negotiate h hf ha (authAgree_offered hh hg)),
      fun hashes groups secure hno => congrArg done (authSend_disagree h hf ha (authAgree_nothing hno)),
      fun good ch hs => congrArg done (authSend_reply h hf ha good ch hs), fun hs => congrArg done (authSend_success h hf ha hs),
      congrArg done (authSend_failure h hf ha), fun hs => congrArg done (authReceive_challenge h hf ha hs),
      fun hs => congrArg done (authReceive_success h hf ha hs), fun hs => congrArg done (authReceive_failure h hf ha hs)⟩

end Sys2Proof.Machine
end

section
/-! PROOFS. Keep Alive, the discovery log, features and Asynchronous Event Requests (03_ethernet_transport.md R123, R127;
04_commands_and_ordering.md R158, R159). -/

namespace Sys2Proof.Machine

/-- The keep-alive timeout in force, 0 without an association (R127). -/
def katoOf (k : Ctrl) : Nat :=
  match k.assoc with
  | some a => a.kato
  | none => 0

section Controller

variable {q : Capsule} {f : Nat} {s : State} (h : Ready s q f)

include h

/-- Keep Alive is served as it arrives, and is no command of R594. -/
theorem keepAlive_ready (hb : OnlyBits q [0, 0, 0, 0, 0, 0]) : capsuleIn q (keepAlive q) s =
    postOk (bump (touch s f) .cfe 0 F.CFE_ADMITTED) q.conn q.cid 0 [] := by
  obtain ⟨hm, hp, he, -, hpdu, hf, -, hres, hunk, hkey, hauth, -⟩ := h
  have hcheck : adminCheck q { disc := true, quiet := true, keepAlive := true, masks := [0, 0, 0, 0, 0, 0] } f (touch s f) = none := by
    simp [adminCheck, hunk, Accept.has_any f, hres, hb, touch_auth, hauth, Nat.not_lt.mpr hkey]
  have htakes : takesAdmin s f true = true := by simp [takesAdmin, hm, hp]
  rw [capsuleIn_good hpdu, keepAlive, admin, serveMode_run (.inl hm) he]
  simp only [hf, htakes, hcheck, Bool.not_true, Bool.and_false, Bool.false_eq_true, if_false, if_true]

/-! ### Discovery (R123) -/

theorem discoveryGet_ready {i : Instr} (hf : f = 513) (hb : OnlyBits q logMasks) (hid : logLid q = 0x70) (hmax : logLen q ≤ 2097152)
    (hlen : logLen q ≤ q.len) (hoff : logOff q ≤ (discoveryPage (served s f) ((connOf (served s f) q.conn).elim 0 (·.hostNqn))).len) :
    inTurn q i false (discoveryGet q) s =
      pageServed (discoveryPage (served s f) ((connOf (served s f) q.conn).elim 0 (·.hostNqn))) q (served s f) :=
  turn_yes h (Accept.has_any f rfl rfl rfl) rfl hb ((if_neg (by simp [hid, hf])).trans (sendPage_yes hmax hlen hoff))

/-! ### Features (R159) -/

section Features

variable {i : Instr} (hf : f ≤ 512)

include hf

section Setting

variable (hb : OnlyBits q [0x800000FF, 0xFFFFFFFF, 0xFFFFFFFF, 0xFFFFFFFF, 0x7F, 0xFFFFFFFF]) (hs : bitsOf q.dw10 31 31 = 0) (hostId : Nat)

include hb hs

theorem setFeatures_queues (hfid : bitsOf q.dw10 7 0 = 0x07) : inTurn q i false (setFeatures q hostId) s =
    postOk (served s f) q.conn q.cid (queuesValue (served s f) f) [] :=
  turn_yes h (Accept.has_function rfl rfl hf) rfl hb (by simp [featureOk, hfid, hs])

theorem setFeatures_keepAlive (hfid : bitsOf q.dw10 7 0 = 0x0F) : inTurn q i false (setFeatures q hostId) s =
    postOk (modCtrl (served s f) f (fun k => { k with assoc := k.assoc.map (fun a =>
      { a with kato := katoRound q.dw11, kaAt := (served s f).now }) })) q.conn q.cid 0 [] :=
  turn_yes h (Accept.has_function rfl rfl hf) rfl hb (by simp [featureOk, hfid, hs])

theorem setFeatures_hostId (hfid : bitsOf q.dw10 7 0 = 0x81) (hlen : hostIdLen q ≤ q.len) : inTurn q i false (setFeatures q hostId) s =
    postOk (modCtrl (served s f) f (fun k => { k with hostId := some (hostId % 2 ^ (8 * hostIdLen q)) })) q.conn q.cid 0 [] :=
  turn_yes h (Accept.has_function rfl rfl hf) rfl hb (by simp [featureOk, hfid, hs, Nat.not_lt.mpr hlen])

/-- Arbitration and Asynchronous Event Configuration are kept as they were given. -/
theorem setFeatures_dword (hfid : bitsOf q.dw10 7 0 = 0x01 ∨ bitsOf q.dw10 7 0 = 0x0B) : inTurn q i false (setFeatures q hostId) s =
    postOk (modCtrl (served s f) f (fun k => { k with feats := mset k.feats (bitsOf q.dw10 7 0) q.dw11 })) q.conn q.cid 0 [] := by
  refine turn_yes h (Accept.has_function rfl rfl hf) rfl hb ?_
  rcases hfid with hfid | hfid <;> simp [featureOk, hfid, hs]

end Setting

variable (hb : OnlyBits q [0x7FF, 0xFFFFFFFF, 0, 0, 0x7F, 0])

include hb

theorem getFeatures_queues (hfid : bitsOf q.dw10 7 0 = 0x07) : inTurn q i false (getFeatures q) s =
    postOk (served s f) q.conn q.cid (queuesValue (served s f) f) [] :=
  turn_yes h (Accept.has_function rfl rfl hf) rfl hb (by simp [featureOk, hfid])

theorem getFeatures_keepAlive (hfid : bitsOf q.dw10 7 0 = 0x0F) : inTurn q i false (getFeatures q) s =
    postOk (served s f) q.conn q.cid (katoOf (ctrl (served s f) f)) [] := by
  refine turn_yes h (Accept.has_function rfl rfl hf) rfl hb ?_
  simp only [featureOk, hfid, Nat.reduceEqDiff, false_and, if_false, if_true]
  rfl

theorem getFeatures_hostId (hfid : bitsOf q.dw10 7 0 = 0x81) (hlen : hostIdLen q ≤ q.len) : inTurn q i false (getFeatures q) s =
    postOk (served s f) q.conn q.cid 0 (leBytes (hostIdLen q) (hostIdOf (served s f) f)) :=
  turn_yes h (Accept.has_function rfl rfl hf) rfl hb (by simp [featureOk, hfid, Nat.not_lt.mpr hlen])

theorem getFeatures_dword (hfid : bitsOf q.dw10 7 0 = 0x01 ∨ bitsOf q.dw10 7 0 = 0x0B) : inTurn q i false (getFeatures q) s =
    postOk (served s f) q.conn q.cid (mgetD (ctrl (served s f) f).feats (bitsOf q.dw10 7 0) 0) [] := by
  refine turn_yes h (Accept.has_function rfl rfl hf) rfl hb ?_
  rcases hfid with hfid | hfid <;> simp [featureOk, hfid]

end Features

/-! ### Asynchronous Event Requests (R158) -/

section Events

variable {i : Instr} (hf : f ≤ 512) (hb : OnlyBits q [0, 0, 0, 0, 0, 0]) (hn : (ctrl (served s f) f).aers.length < 4)

include hf hb hn

theorem asyncEventRequest_held (he : (ctrl (served s f) f).events = []) : inTurn q i true (asyncEventRequest q) s =
    setCtrl (served s f) f { ctrl (served s f) f with aers := (ctrl (served s f) f).aers ++ [(q.conn, q.cid)] } := by
  unfold asyncEventRequest
  refine turn_yes h (Accept.has_function rfl rfl hf) rfl hb ?_
  simp only [if_neg (Nat.not_le.mpr hn), he]

theorem asyncEventRequest_event {e : Nat} {t : List Nat} (he : (ctrl (served s f) f).events = e :: t) :
    inTurn q i true (asyncEventRequest q) s =
      postOk (setCtrl (served s f) f { ctrl (served s f) f with events := t }) q.conn q.cid e [] := by
  unfold asyncEventRequest
  refine turn_yes h (Accept.has_function rfl rfl hf) rfl hb ?_
  simp only [if_neg (Nat.not_le.mpr hn), he]

end Events

end Controller

/-- Settles O29: each command passes its admission, and comes to its own feature, page or event. -/
theorem controllersComplete : Obligations.ControllersComplete := by
  unfold Obligations.ControllersComplete
  intro q f s h s1 k fid ok
  refine ⟨fun hb => congrArg done (keepAlive_ready h hb), fun hf hb hid hmax hlen => ?discovery, fun hf hb hs hostId => ?setting,
    fun hf hb => ?getting, fun hf hb hn => ?event⟩
  case discovery =>
    intro p hoff
    exact congrArg done (discoveryGet_ready h hf hb hid hmax hlen hoff)
  case setting =>
    exact ⟨fun hfid => congrArg done (setFeatures_queues h hf hb hs hostId hfid),
      fun hfid => congrArg done (setFeatures_keepAlive h hf hb hs hostId hfid),
      fun hfid hlen => congrArg done (setFeatures_hostId h hf hb hs hostId hfid hlen),
      fun hfid => congrArg done (setFeatures_dword h hf hb hs hostId hfid)⟩
  case getting =>
    exact ⟨fun hfid => congrArg done (getFeatures_queues h hf hb hfid), fun hfid => congrArg done (getFeatures_keepAlive h hf hb hfid),
      fun hfid hlen => congrArg done (getFeatures_hostId h hf hb hfid hlen),
      fun hfid => congrArg done (getFeatures_dword h hf hb hfid)⟩
  case event =>
    exact ⟨fun he => congrArg done (asyncEventRequest_held h hf hb hn he),
      fun e t he => congrArg done (asyncEventRequest_event h hf hb hn he)⟩

end Sys2Proof.Machine
end

section
/-! PROOFS. Identify, Abort, the commit of a completion and the refill of buckets (04_commands_and_ordering.md R158, R159, R182–R184,
R198; 03_ethernet_transport.md R139; 11_cirrus_latency.md R448). -/

namespace Sys2Proof.Machine

/-! ### Identify (R158, R159) -/

section Identify

variable {q : Capsule} {f : Nat} {s : State} {i : Instr}

/-- The namespace that an Identify of a tenant names. -/
def namedNs (s : State) (f nsid : Nat) : Option Ns := if f < 512 then (nsSlot s f nsid).bind (nsAt s) else none

theorem namedNs_tenant {k : Nat} {n : Ns} (hf : f < 512) (hk : nsSlot s f q.nsid = some k) (hn : nsAt s k = some n) :
    namedNs s f q.nsid = some n := by
  rw [namedNs, if_pos hf, hk, Option.bind_some, hn]

/-- An Identify whose namespace passes its checks, if it names one, answers the structure of its CNS. -/
theorem identify_ready {fs : List (Nat × Nat × Nat)} {isOpen : Bool} {x : Nat} (h : Ready s q f)
    (hb : OnlyBits q [0xFFFF00FF, 0xFF00FFFF, 0, 0, 0x7F, 0]) (hlen : 4096 ≤ q.len)
    (hc : bitsOf q.dw10 7 0 = x) (hx : [0x00, 0x01, 0x02, 0x03, 0x05, 0x06, 0x07, 0x1C].contains x = true)
    (hns : cnsNames x = true → nsChecks (served s f) f q.nsid = none)
    (hd : identifyData q (served s f) f (namedNs (served s f) f q.nsid) = some (fs, isOpen)) :
    inTurn q i false (identify q) s = postOk (served s f) q.conn q.cid 0
      (if isOpen then overlay 4096 (1024 + bitsOf q.dw10 7 0) fs else zeroOverlay 4096 fs) := by
  refine turn_yes h (Accept.has_any f rfl rfl rfl) rfl hb ?_
  have hcns : [0x00, 0x01, 0x02, 0x03, 0x05, 0x06, 0x07, 0x1C].contains (bitsOf q.dw10 7 0) = true := by rw [hc, hx]
  have hchecks : (if cnsNames (bitsOf q.dw10 7 0) then nsChecks (served s f) f q.nsid else none) = none := by
    rw [hc]
    split
    case isTrue hz => exact hns hz
    case isFalse => rfl
  unfold namedNs at hd
  simp only [hcns, Bool.not_true, Bool.false_eq_true, if_false, if_neg (Nat.not_lt.mpr hlen), hchecks, hd]

/-! What each CNS names. -/

variable {ns : Option Ns} {n : Ns}

theorem identifyData_ctrl (hc : bitsOf q.dw10 7 0 = 0x01) : identifyData q s f ns = some (identifyCtrl s f, true) := by
  simp only [identifyData, hc]

theorem identifyData_list (hc : bitsOf q.dw10 7 0 = 0x02) :
    identifyData q s f ns = some (idList (nsidsAbove s f q.nsid none), false) := by
  simp only [identifyData, hc]

theorem identifyData_cmdSet (hc : bitsOf q.dw10 7 0 = 0x06) :
    identifyData q s f ns = some (if bitsOf q.dw11 31 24 = 2 then [(0, 1, 7)] else [], true) := by
  simp only [identifyData, hc]

theorem identifyData_listOfSet (hc : bitsOf q.dw10 7 0 = 0x07) :
    identifyData q s f ns = some (idList (nsidsAbove s f q.nsid (some (bitsOf q.dw11 31 24))), false) := by
  simp only [identifyData, hc]

theorem identifyData_sets (hc : bitsOf q.dw10 7 0 = 0x1C) : identifyData q s f ns = some ([(0, 8, 1), (8, 8, 5)], true) := by
  simp only [identifyData, hc]

theorem identifyData_ns (hc : bitsOf q.dw10 7 0 = 0x00) : identifyData q s f (some n) = some (identifyNs n, true) := by
  simp only [identifyData, hc, Option.map_some]

theorem identifyData_descriptor (hc : bitsOf q.dw10 7 0 = 0x03) : identifyData q s f (some n) =
    some ([(0, 1, 4), (1, 1, 1), (4, 1, if n.zoned then 2 else 0)], true) := by
  simp only [identifyData, hc, Option.map_some]

theorem identifyData_nsOfSet (hc : bitsOf q.dw10 7 0 = 0x05) : identifyData q s f (some n) =
    some (if n.zoned ∧ bitsOf q.dw11 31 24 = 2 then identifyZns s n else [], true) := by
  simp only [identifyData, hc, Option.map_some, Bool.and_eq_true, decide_eq_true_eq]

end Identify

/-! ### Abort (R182–R184) -/

section Abort

variable {q : Capsule} {f : Nat} {s : State}

/-- An Abort with fewer than four outstanding looks its target up. -/
theorem abortCmd_ready {i : Instr} (h : Ready s q f) (hf : f ≤ 512) (hb : OnlyBits q [0xFFFFFFFF, 0, 0, 0, 0, 0])
    (hn : ((served s f).cmds.filter (fun c => c.2.fn = f && c.2.op = .abort)).length < 4) :
    inTurn q i true (abortCmd q) s = abortLookup q f (served s f) := by
  unfold abortCmd
  exact turn_yes h (Accept.has_function rfl rfl hf) rfl hb (if_neg (Nat.not_le.mpr hn))

/-- The Abort's own entry says whether its target was aborted. -/
theorem abortEntry_aborted (q : Capsule) (f : Nat) (aborted : Bool) (s : State) :
    let v := bump s .cfe 0 (if aborted then F.CFE_ABORTS_ABORTED else F.CFE_ABORTS_NOT_ABORTED)
    abortEntry q f (!aborted) s = { v with
      nextCmd := v.nextCmd + 1, cmds := mset v.cmds v.nextCmd
        { conn := q.conn, cid := q.cid, fn := f, nsid := 0, nsk := none, op := .abort, slba := 0, nlb := 0, fua := false,
          cls := 0, life := 0, group := 0, reserved := false, len := 0, keyed := 0, dwords := [], phase := .ready,
          arrived := s.now, admitted := s.now, dw0 := (!aborted).toNat } } := by
  cases aborted
  · simp only [abortEntry, Bool.not_false, if_true, Bool.false_eq_true, if_false]
  · simp only [abortEntry, Bool.not_true, if_true, Bool.false_eq_true, if_false]

/-- An Asynchronous Event Request that is held. -/
theorem abortLookup_held {a : Nat × Nat} (hq : bitsOf q.dw10 15 0 = 0)
    (ha : (ctrl s f).aers.find? (fun a => a.2 = bitsOf q.dw10 31 16) = some a) : abortLookup q f s =
      abortEntry q f false (postSt (modCtrl s f (fun k => { k with aers := k.aers.filter (· ≠ a) })) a.1 a.2 stAbortRequested) := by
  simp only [abortLookup, if_pos hq, ha]

theorem abortLookup_notHeld (hq : bitsOf q.dw10 15 0 = 0)
    (ha : (ctrl s f).aers.find? (fun a => a.2 = bitsOf q.dw10 31 16) = none) : abortLookup q f s = abortEntry q f true s := by
  simp only [abortLookup, if_pos hq, ha]

/-- The command of an I/O queue that an Abort names. -/
def abortTarget (q : Capsule) (f : Nat) (s : State) : Option (Nat × Cmd) :=
  (mget (ctrl s f).ioqs (bitsOf q.dw10 15 0)).bind
    (fun id => s.cmds.find? (fun c => c.2.conn = id && c.2.cid = bitsOf q.dw10 31 16))

variable (hq : bitsOf q.dw10 15 0 ≠ 0)

include hq

/-- A command before its dispatch point is aborted, one past it is not (R182). -/
theorem abortLookup_found {k : Nat} {c : Cmd} (ht : abortTarget q f s = some (k, c)) : abortLookup q f s =
    if c.past then abortEntry q f true s
    else abortEntry q f false (pump (postSt (delCmd s k) c.conn c.cid stAbortRequested)) := by
  unfold abortTarget at ht
  simp only [abortLookup, if_neg hq, ht]
  cases c.past
  · simp only [Bool.not_false, if_true, Bool.false_eq_true, if_false]
  · simp only [Bool.not_true, if_true, Bool.false_eq_true, if_false]

theorem abortLookup_noTarget (ht : abortTarget q f s = none) : abortLookup q f s = abortEntry q f true s := by
  unfold abortTarget at ht
  simp only [abortLookup, if_neg hq, ht]

end Abort

/-! ### Commits (R174, R183, R198) -/

theorem completionCommit_ready {conn cid k : Nat} {c : Cmd} {s : State} (hp : s.plRun = none)
    (hc : s.cmds.find? (fun p => p.2.conn = conn && p.2.cid = cid && p.2.phase = .ready) = some (k, c)) :
    completionCommit conn cid s = pump (account (sendEntry (delCmd (cqeData s c).2 k) c (cqeData s c).1) c) := by
  simp only [completionCommit, hp, Option.isSome_none, Bool.false_eq_true, if_false, hc]

/-- Settles O34: an Identify answers the structure of its CNS, an Abort ends by what its lookup finds. -/
theorem adminServiceCompletes : Obligations.AdminServiceCompletes := by
  unfold Obligations.AdminServiceCompletes
  refine ⟨fun q f s h hf => ?services, fun conn cid k c s hp hc => congrArg done (completionCommit_ready hp hc), fun s => rfl⟩
  intro s1
  refine ⟨fun hb hlen => ?identify, fun hb hn => ?abort⟩
  case identify =>
    intro cns csi opens list
    have hopens {x : Nat} {fs : List (Nat × Nat × Nat)} (hc : cns = x)
        (hx : [0x00, 0x01, 0x02, 0x03, 0x05, 0x06, 0x07, 0x1C].contains x = true)
        (hns : cnsNames x = true → nsChecks s1 f q.nsid = none)
        (hd : identifyData q s1 f (namedNs s1 f q.nsid) = some (fs, true)) : opens fs :=
      congrArg done ((identify_ready h hb hlen hc hx hns hd).trans (congrArg (postOk s1 q.conn q.cid 0) (if_pos rfl)))
    have hlist {x : Nat} {l : List Nat} (hc : cns = x)
        (hx : [0x00, 0x01, 0x02, 0x03, 0x05, 0x06, 0x07, 0x1C].contains x = true)
        (hns : cnsNames x = true → nsChecks s1 f q.nsid = none)
        (hd : identifyData q s1 f (namedNs s1 f q.nsid) = some (idList l, false)) : list l :=
      congrArg done ((identify_ready h hb hlen hc hx hns hd).trans (congrArg (postOk s1 q.conn q.cid 0) (if_neg Bool.false_ne_true)))
    refine ⟨fun hc => hopens hc (by decide) (fun hz => nomatch hz) (identifyData_ctrl hc),
      fun hc => hlist hc (by decide) (fun hz => nomatch hz) (identifyData_list hc),
      fun hc => hopens hc (by decide) (fun hz => nomatch hz) (identifyData_cmdSet hc),
      fun hc => hlist hc (by decide) (fun hz => nomatch hz) (identifyData_listOfSet hc),
      fun hc => hopens hc (by decide) (fun hz => nomatch hz) (identifyData_sets hc), fun k n hf' hk hn hns => ?_⟩
    have hname := namedNs_tenant hf' hk hn
    exact ⟨fun hc => hopens hc (by decide) (fun _ => hns) (hname ▸ identifyData_ns hc),
      fun hc => hopens hc (by decide) (fun _ => hns) (hname ▸ identifyData_descriptor hc),
      fun hc => hopens hc (by decide) (fun _ => hns) (hname ▸ identifyData_nsOfSet hc)⟩
  case abort =>
    intro sqid cid target ends
    have hends {aborted : Bool} {u : State} (hu : abortLookup q f s1 = abortEntry q f (!aborted) u) : ends aborted u :=
      congrArg done ((abortCmd_ready h hf hb hn).trans (hu.trans (abortEntry_aborted q f aborted u)))
    refine ⟨fun hq => ⟨fun a ha => ?held, fun ha => ?notHeld⟩, fun hq => ⟨fun k c ht hp => ?dropped, fun k c ht hp => ?past, fun ht => ?none⟩⟩
    case held => exact hends (aborted := true) (abortLookup_held hq ha)
    case notHeld => exact hends (aborted := false) (abortLookup_notHeld hq ha)
    case dropped => exact hends (aborted := true) ((abortLookup_found hq ht).trans (if_neg (Bool.eq_false_iff.mp hp)))
    case past => exact hends (aborted := false) ((abortLookup_found hq ht).trans (if_pos hp))
    case none => exact hends (aborted := false) (abortLookup_noTarget hq ht)

end Sys2Proof.Machine
end

section
/-! PROOFS. Wakes from DOZE and HOLD and during a mode entry: frames, energy, WAKE_N, the always-on timer, and lanes that were late
(03_ethernet_transport.md R141–R144; 16_power_modes.md R590, R596, R598–R604). -/

namespace Sys2Proof.Machine

/-! ### What a wake source does in a mode -/

section Sources

variable {s : State} {late : List Nat} {code : Nat}

theorem wakeBy_doze (hm : s.mode = .doze) (hw : wakeSource s 1 code = true) :
    wakeBy late code s = resumeAfter s (wakeCommon s code) := by
  simp only [wakeBy, wakeLate, hm, hw, if_true]

theorem wakeBy_hold (hm : s.mode = .hold) (hw : wakeSource s 2 code = true) :
    wakeBy late code s = resumeAfter s (holdWake s code late) := by
  simp only [wakeBy, wakeLate, hm, hw, if_true]

/-- In RUN a source abandons the entry into a mode that it would wake from. -/
theorem wakeBy_entry {t : Nat} (hm : s.mode = .run) (he : s.pwr.entry = some t) (hw : wakeSource s t code = true) :
    wakeBy late code s = resumeAfter s (entryAbort s) := by
  simp only [wakeBy, wakeLate, hm, he, hw, if_true]

/-- With no entry under way it has no effect there. -/
theorem wakeBy_awake (hm : s.mode = .run) (he : s.pwr.entry = none) : wakeBy late code s = resumeAfter s s := by
  simp only [wakeBy, wakeLate, hm, he]

/-- WAKE_N and the timer wake the part from both modes when they are enabled (R598). -/
theorem wakeSource_wakeN (t : Nat) (h : getF s .pwr 0 F.PWR_WAKE_EN_WAKE_N = 1) : wakeSource s t 4 = true := decide_eq_true h

theorem wakeSource_timer (t : Nat) (h : getF s .pwr 0 F.PWR_WAKE_EN_TIMER = 1) : wakeSource s t 5 = true := decide_eq_true h

end Sources

/-! ### Ports (R141–R143) -/

section Ports

variable {s : State} {p : Nat} {late : List Nat}

/-- A wake frame with the port's key is seen by a port that hears in the present mode. -/
theorem wakeFrame_seen {key : Nat} (h0 : key ≠ 0) (hk : (eth s p).wakeKey = key) (hf : getF s .eth p F.ETH_WAKE_CTRL_FRAME_WAKE = 1)
    (he : getF s .eth p F.ETH_PORT_CTRL_ENABLE = 1)
    (hh : (if s.mode = .hold then (eth s p).serdesUntil.isSome else (eth s p).linkUp) = true) :
    wakeFrame p key late s = wakeBy late 3 s := by
  subst hk
  simp only [wakeFrame, ne_eq, h0, not_false_eq_true, hf, he, hh, decide_true, Bool.and_self, if_true]

theorem energyDetect_wakes (hm : s.mode = .hold) (hw : getF s .eth p F.ETH_WAKE_CTRL_ENERGY_WAKE = 1) :
    energyDetect p late s = wakeBy late 2 s := by
  rw [energyDetect, if_pos hm, if_pos hw]

/-- With FRAME_WAKE alone energy starts the port (R143). -/
theorem energyDetect_starts (hm : s.mode = .hold) (hw : getF s .eth p F.ETH_WAKE_CTRL_ENERGY_WAKE = 0)
    (hf : getF s .eth p F.ETH_WAKE_CTRL_FRAME_WAKE = 1) (hn : (eth s p).serdesUntil = none) : energyDetect p late s =
      modEth (if portsStarted s then s else railsOn s portRails) p (fun e => { e with serdesUntil := some (s.now + 100000000) }) := by
  have hstarts : (decide (getF s .eth p F.ETH_WAKE_CTRL_FRAME_WAKE = 1) && (eth s p).serdesUntil.isNone) = true := by simp [hf, hn]
  rw [energyDetect, if_pos hm, if_neg (by omega), if_pos hstarts]

theorem portWakeTimeout_due {t : Nat} (hm : s.mode = .hold) (hs : (eth s p).serdesUntil = some t) (ht : t ≤ s.now) :
    let s1 := modEth s p (fun e => { e with serdesUntil := none })
    portWakeTimeout p s = if portsStarted s1 then s1 else railsOff s1 portRails := by
  simp only [portWakeTimeout, hs, hm, ht, decide_true, Bool.and_self, if_true]

end Ports

/-! ### The timer (R604) and late lanes (R602) -/

/-- The end of the always-on timer is recorded. -/
def timerEnded (s : State) : State := raise { s with aon := { s.aon with timer := none } } .pwr 0 F.PWR_INT_RAW_TIMER

theorem timerExpiry_due {s : State} {late : List Nat} {t : Nat} (hs : s.aon.timer = some t) (ht : t ≤ s.now) :
    timerExpiry late s = wakeBy late 5 (timerEnded s) := by
  simp only [timerExpiry, hs, if_pos ht, timerEnded]

theorem warmDone_late {s : State} {f : LaneFind} (h : ∃ q ∈ s.dies, q.1 / 32 = f.lane ∧ q.2.st = .bringUp) :
    warmDone f s = pump (laneUp s f) := by
  have hlate : s.dies.any (fun q => q.1 / 32 = f.lane && q.2.st = .bringUp) = true := by simpa using h
  rw [warmDone, if_pos hlate]

/-- Settles O54: each source comes to a wake by its code, which the mode decides. -/
theorem wakesComplete : Obligations.WakesComplete := by
  unfold Obligations.WakesComplete
  refine ⟨fun p key late s => ⟨fun h0 hk hf he => ?frame, fun hm hw => ?energy, fun hm hw hf hn => ?start, fun t hm hs ht => ?timeout⟩,
    fun late s hw => ⟨fun hm => ?wakeDoze, fun hm => ?wakeHold, fun t hm he => ?wakeEntry⟩, fun late t s hs ht => ?timer,
    fun f s h => congrArg done (warmDone_late h)⟩
  case frame =>
    refine ⟨fun hm hup => ?_, fun hm hser => ?_⟩
    · have hheard : (if s.mode = .hold then (eth s p).serdesUntil.isSome else (eth s p).linkUp) = true := by
        rw [if_neg (by rw [hm]; decide), hup]
      exact congrArg done ((wakeFrame_seen h0 hk hf he hheard).trans (wakeBy_doze hm rfl))
    · have hheard : (if s.mode = .hold then (eth s p).serdesUntil.isSome else (eth s p).linkUp) = true := by
        rw [if_pos hm, Option.isSome_iff_ne_none.mpr hser]
      exact congrArg done ((wakeFrame_seen h0 hk hf he hheard).trans (wakeBy_hold hm rfl))
  case energy => exact congrArg done ((energyDetect_wakes hm hw).trans (wakeBy_hold hm rfl))
  case start => exact congrArg done (energyDetect_starts hm hw hf hn)
  case timeout => exact congrArg done (portWakeTimeout_due hm hs ht)
  case wakeDoze => exact congrArg done (wakeBy_doze hm (wakeSource_wakeN 1 hw))
  case wakeHold => exact congrArg done (wakeBy_hold hm (wakeSource_wakeN 2 hw))
  case wakeEntry => exact congrArg done (wakeBy_entry hm he (wakeSource_wakeN t hw))
  case timer =>
    intro s1
    have hdue := timerExpiry_due (late := late) hs ht
    refine ⟨fun hm he => congrArg done (hdue.trans (wakeBy_awake hm he)), fun hw => ⟨fun hm => ?_, fun hm => ?_⟩⟩
    · exact congrArg done (hdue.trans (wakeBy_doze hm (wakeSource_timer 1 hw)))
    · exact congrArg done (hdue.trans (wakeBy_hold hm (wakeSource_timer 2 hw)))

end Sys2Proof.Machine
end

section
/-! PROOFS. The firmware commands of MF: downloads, and the actions of a Firmware Commit on the slot that it names
(04_commands_and_ordering.md R188; 20_boot_and_firmware.md R701, R702). -/

namespace Sys2Proof.Machine

theorem mfOnly_has {masks : List Nat} : (mfOnly masks).has fnMF = true := if_pos rfl

/-- A ready command that MF alone accepts comes to what it executes. -/
theorem mfOnly_yes {q : Capsule} {i : Instr} {w : Bool} {masks : List Nat} {run : Nat → State → Verdict} {s t : State}
    (h : Ready s q fnMF) (hb : OnlyBits q masks) (hr : run fnMF (served s fnMF) = .yes t) :
    inTurn q i w (admin q (mfOnly masks) run) s = t :=
  turn_yes h mfOnly_has rfl hb hr

/-! ### Download (R701) -/

section Firmware

variable {q : Capsule} {i : Instr} {s : State} (h : Ready s q fnMF)

include h

theorem fwDownload_ready {data : List Nat} (hb : OnlyBits q [0xFFFFFFFF, 0xFFFFFFFF, 0, 0, 0, 0])
    {n : Nat} (hn : n = (q.dw10 + 1) * 4) {held : List Nat} (hh : held = if q.dw11 = 0 then [] else (served s fnMF).dlBuf)
    (hpieces : n % 4096 = 0) (hoff : q.dw11 % 1024 = 0) (hfollows : q.dw11 * 4 = held.length)
    (hfits : held.length + n ≤ 8388608) (hmax : n ≤ 2097152) (hlen : n ≤ q.len) :
    inTurn q i false (fwDownload q data) s = postOk (setF { served s fnMF with dlBuf := held ++ fitBytes n data } .fwp 0
      F.FWP_DL_STAT_BYTES (held ++ fitBytes n data).length) q.conn q.cid 0 [] := by
  subst hn hh
  refine mfOnly_yes h hb ?_
  simp only [hpieces, hoff, ← hfollows, Nat.not_lt.mpr hmax, Nat.not_lt.mpr hlen, ne_eq, not_true_eq_false, decide_false, Bool.or_self,
    Nat.not_lt.mpr (hfollows ▸ hfits), Bool.false_eq_true, if_false]

/-! ### Commit (R702) -/

/-- A Firmware Commit whose dword 10 names its action runs it. -/
theorem fwCommit_ready {ca : Nat} {run : State → State} (hb : OnlyBits q [0x3F, 0, 0, 0, 0, 0]) (hca : bitsOf q.dw10 5 3 = ca) :
    inTurn q i false (fwCommit q ca run) s = run (served s fnMF) := by
  refine mfOnly_yes h rfl ?_
  have hfields : (decide (bitsOf q.dw10 5 3 ≠ ca) || (badDword q [0x3F, 0, 0, 0, 0, 0]).isSome) = false := by
    rw [show badDword q [0x3F, 0, 0, 0, 0, 0] = none from hb, hca]
    simp
  simp only [hfields, Bool.false_eq_true, if_false]

end Firmware

/-- A firmware package goes into the slot that FS names. -/
theorem fwReplace_firmware {q : Capsule} {p : Profile} {w : SlotEnd} {s : State} {i : Instr} (h : Ready s q fnMF)
    (hb : OnlyBits q [0x3F, 0, 0, 0, 0, 0]) (hca : bitsOf q.dw10 5 3 = 0) (hkind : pkgKind (served s fnMF).dlBuf ≠ 2) :
    inTurn q i false (fwReplace q p w) s = fwStore q w false (served s fnMF) :=
  (fwCommit_ready h hb hca).trans (if_neg hkind)

/-- A good package whose write to the slot that is not running reads back. -/
theorem fwStore_matched {q : Capsule} {s : State} {k : Nat} (hk : fwSlot s q = some k) (hrun : k ≠ fwRunning s)
    (hgood : bufCheck s [1] = none) (trial : Bool) : fwStore q .matched trial s =
      let w := slotWrite (slotClear (fwPassed s) k) k (slotClear (fwPassed s) k).dlBuf
      fwDone (if trial then fwNext w k true else w) q stOk := by
  simp only [fwStore, hk, if_neg hrun, hgood]

section Slot

variable {q : Capsule} {s : State} {i : Instr} {k : Nat} (h : Ready s q fnMF) (hb : OnlyBits q [0x3F, 0, 0, 0, 0, 0])
  (hk : fwSlot (served s fnMF) q = some k) (hv : slotValid (served s fnMF) k = true)

include h hb hk hv

theorem fwSelectNext_valid (hca : bitsOf q.dw10 5 3 = 2) : inTurn q i false (fwSelectNext q) s =
    fwDone (fwNext (served s fnMF) k (decide (k ≠ fwRunning (served s fnMF)))) q stOk := by
  refine (fwCommit_ready h hb hca).trans ?_
  simp only [hk, hv, if_true]

/-- An activation begins the hold of R188. -/
theorem fwActivate_good (hca : bitsOf q.dw10 5 3 = 3) (hrun : k ≠ fwRunning (served s fnMF))
    (hgood : pkgReason [1] (svnMin (served s fnMF)) (mgetD (served s fnMF).slots k []) = none) (us : Nat) (good : Bool) (ue : Option Nat) :
    let s1 := served s fnMF; let b := mgetD s1.slots k []
    inTurn q i false (fwActivate q us good ue) s = setF { fwPassed s1 with
      arb := { s1.arb with holdFrom := s1.nextCmd, holdTo := s1.nextCmd }
      fwHold := some ⟨k, good, pkgSvn b, imageBytes b, ue, q.conn, q.cid, s1.now, s1.now + min 80000 us * 1000⟩ }
      .cfe 0 F.CFE_STAT_HOLDING 1 := by
  refine (fwCommit_ready h hb hca).trans ?_
  simp only [hk, if_neg hrun, hv, Bool.not_true, Bool.false_eq_true, if_false, hgood]

end Slot

/-- Settles O57: each command passes its admission, and the slot and the package decide what it executes. -/
theorem firmwareCommandsComplete : Obligations.FirmwareCommandsComplete := by
  unfold Obligations.FirmwareCommandsComplete
  intro q s h s1
  refine ⟨fun data hb => ?download, fun k hb hk => ⟨fun hrun hgood => ⟨fun p hca hkind => ?replace, fun hca => ?trial⟩,
    fun hca hv => ?select, fun hca hrun hv => ?activate⟩⟩
  case download =>
    intro n held hpieces hoff hfollows hfits hmax hlen b
    exact congrArg done (fwDownload_ready h hb rfl rfl hpieces hoff hfollows hfits hmax hlen)
  case replace => exact congrArg done ((fwReplace_firmware h hb hca hkind).trans (fwStore_matched hk hrun hgood false))
  case trial => exact congrArg done ((fwCommit_ready h hb hca).trans (fwStore_matched hk hrun hgood true))
  case select => exact congrArg done (fwSelectNext_valid h hb hk hv hca)
  case activate =>
    intro b hgood us good ue
    exact congrArg done (fwActivate_good h hb hk hv hca hrun hgood us good ue)

end Sys2Proof.Machine
end

section
/-! PROOFS. The maintenance commands: Format NVM and Sanitize, power states, the fault log and device resets
(04_commands_and_ordering.md R161; 12_sorrel_keys_cipher.md R484, R485; 16_power_modes.md R593; 19_faults_and_resets.md R675–R677,
R683). -/

namespace Sys2Proof.Machine

/-! ### Format NVM and Sanitize (R161, R484, R485) -/

/-- A command that tenants accept. -/
theorem Accept.has_tenant {a : Accept} {f : Nat} (ht : a.tf = true) (hf : f < 512) : a.has f = true := by
  rw [Accept.has, if_neg (by unfold fnMF; omega), if_pos hf, ht]

section Erase

variable {q : Capsule} {f : Nat} {s : State} {i : Instr} (h : Ready s q f) (hf : f < 512)

include h hf

theorem formatNvm_ready {k : Nat} (hb : OnlyBits q [0x3FFF, 0, 0, 0, 0, 0]) (hc : formatChk q f (served s f) = none)
    (hk : nsSlot (served s f) f q.nsid = some k) : let s2 := eraseStart (served s f) k .format
    inTurn q i false (formatNvm q) s = { s2 with adminWaits := s2.adminWaits ++ [(q.conn, q.cid, .format k)] } :=
  turn_yes h (Accept.has_tenant rfl hf) rfl hb (by simp only [hc, hk])

/-- A Sanitize that passes its checks executes. -/
theorem sanitizeAs_ready {act : Nat} {run : Nat → State → State} (hb : OnlyBits q [0x7FF, 0xFFFFFFFF, 0, 0, 0, 0])
    (hc : sanitizeChk q act f (served s f) = none) : inTurn q i false (sanitizeAs q act run) s = run f (served s f) :=
  turn_yes h (Accept.has_tenant rfl hf) rfl hb (by simp only [hc])

end Erase

/-! ### Power states (R593) -/

section Service

variable {q : Capsule} {s : State} {i : Instr} (h : Ready s q fnMF)

include h

theorem powerState_ready (hb : OnlyBits q [0xFFFFFFFF, 0, 0, 0, 0, 0]) (hps : q.dw10 < 3) : inTurn q i false (powerState q) s =
    postSt (setF (served s fnMF) .pwr 0 F.PWR_MODE_CTRL_PS q.dw10) q.conn q.cid stOk := by
  have hmode : (served s fnMF).mode ≠ .service := by
    rw [show (served s fnMF).mode = .run from h.1]
    decide
  exact mfOnly_yes h hb ((if_neg (Nat.not_le.mpr hps)).trans (if_neg hmode))

/-! ### The fault log (R675–R677) -/

/-- A FAULT_READ of entries within the log answers them; its capsule is looked at without CLEAR. -/
theorem faultRead_ready (clear : Bool) (hb : OnlyBits q [0x1FFF, 0x3FFF, 1, 0, 0, 0]) (hcount : bitsOf q.dw11 13 0 ≠ 0)
    (hlast : bitsOf q.dw10 12 0 + bitsOf q.dw11 13 0 ≤ 8192) (hlen : 64 + 64 * bitsOf q.dw11 13 0 ≤ q.len) :
    let ans := postOk (served s fnMF) q.conn q.cid 0 (faultData (served s fnMF) (bitsOf q.dw10 12 0) (bitsOf q.dw11 13 0))
    inTurn q i false (faultRead q clear) s =
      if clear then { ans with flog := { ans.flog with log := [], dropped := 0 } } else ans := by
  have hb' : OnlyBits { q with dw12 := q.dw12 / 2 * 2 } [0x1FFF, 0x3FFF, 0, 0, 0, 0] := by
    obtain ⟨h10, h11, h12, h13, h14, h15⟩ := onlyBits_each hb
    have hclear : q.dw12 / 2 * 2 = 0 := by
      have := Nat.and_le_right (n := q.dw12) (m := 1)
      omega
    rw [Nat.and_zero, Nat.sub_zero] at h13 h14 h15
    simp [OnlyBits, badDword, hclear, h10, h11, h13, h14, h15, List.range_succ]
  have hturn : inTurn q i false (faultRead q clear) s = inTurn { q with dw12 := q.dw12 / 2 * 2 } i false (faultRead q clear) s := rfl
  rw [hturn]
  refine vendor_yes h hb' (fun n => ?_) (if_neg (Nat.not_lt.mpr hlen))
  simp [hcount, Nat.not_lt.mpr hlast]

/-! ### Device resets (R683) -/

theorem deviceReset_ready (force : Bool) (hb : OnlyBits q [1, 0, 0, 0, 0, 0]) : let ok := postSt (served s fnMF) q.conn q.cid stOk
    deviceResetTurn q i force s = if force then partReset 7 1 0 0 ok else orderlyStop 7 0 ok := by
  have ⟨_, _, _, ⟨hhold, _, _⟩, _⟩ := h
  have hnone : (served s fnMF).fwHold.isSome = false := congrArg Option.isSome hhold
  rw [deviceResetTurn, if_neg (by simp [hhold])]
  exact vendor_yes h hb (fun _ => rfl) (if_neg (by simp [hnone]))

end Service

/-- What a ready command has but its turn. -/
def Admissible (s : State) (q : Capsule) (f : Nat) : Prop :=
  s.mode = .run ∧ s.plRun = none ∧ s.pwr.entry = none ∧ PduGood s q ∧ adminFn s q.conn = some f ∧
    (ctrl s f).resetting = false ∧ q.reserved = false ∧ q.unknown = false ∧ q.keyed ≤ 1 ∧ authMissing s f = false ∧
    isQuiesced s f = false

/-- The hold of R188 is a matter of a command's turn alone. -/
theorem admissible_of_holding {s : State} {q : Capsule} {f : Nat} (h : Ready { s with fwHold := none } q f) : Admissible s q f := by
  obtain ⟨hm, hp, he, -, hrest⟩ := h
  exact ⟨hm, hp, he, hrest⟩

theorem admissible_yes {q : Capsule} {a : Accept} {run : Nat → State → Verdict} {s t : State} {f : Nat} (h : Admissible s q f)
    (ha : a.has f = true) (hk : a.keepAlive = false) (hb : OnlyBits q a.masks) (hr : run f (served s f) = .yes t) :
    admin q a run s = t := by
  obtain ⟨hm, hp, he, -, hf, hres, hrsv, hunk, hkey, hauth, hquiet⟩ := h
  have htakes : takesAdmin s f false = true := by simp [takesAdmin, hm, hp, he, hres]
  have hcheck : adminCheck q a f (touch s f) = none := by
    simp [adminCheck, hunk, ha, hrsv, hb, touch_auth, hauth, Nat.not_lt.mpr hkey]
  rw [served] at hr
  rw [admin, serveMode_run (.inl hm) he]
  simp only [hf, hk, htakes, hcheck, hr, touch_quiesced, hquiet, Bool.not_true, Bool.false_and, Bool.false_eq_true, if_false]

/-- A device reset that arrives during the hold does not wait for its end. -/
theorem deviceReset_holding {q : Capsule} {s : State} {i : Instr} (force : Bool) (h : Ready { s with fwHold := none } q fnMF)
    (hhold : s.fwHold.isSome = true) (hb : OnlyBits q [1, 0, 0, 0, 0, 0]) :
    deviceResetTurn q i force s = postSt (served s fnMF) q.conn q.cid stSequenceError := by
  have hadm := admissible_of_holding h
  have ⟨_, _, _, hpdu, _⟩ := hadm
  have hheld : (served s fnMF).fwHold.isSome = true := hhold
  rw [deviceResetTurn, if_pos hhold, capsuleIn_good hpdu]
  rw [deviceReset, vendor]
  refine admissible_yes hadm mfOnly_has rfl rfl ?_
  rw [firstBad_none hb fun _ => rfl]
  exact if_pos hheld

/-! ### Entries of the fault log (R675, R676) -/

section Entries

variable {e : FaultEntry} {rest : List FaultEntry} {s : State} (hq : s.flog.queue = e :: rest)

include hq

theorem faultLogWrite_room (hroom : s.flog.log.length < 8192) : let s1 := { s with flog := { s.flog with queue := rest } }
    faultLogWrite s = { s1 with flog := { s1.flog with
      log := s.flog.log ++ [{ e with seq := s.flog.nextSeq }], nextSeq := s.flog.nextSeq + 1 } } := by
  simp only [faultLogWrite, hq, if_pos hroom]

theorem faultLogWrite_full (hfull : 8192 ≤ s.flog.log.length) : let s1 := { s with flog := { s.flog with queue := rest } }
    faultLogWrite s = raise (bump { s1 with flog := { s1.flog with dropped := min 0xFFFFFFFF (s.flog.dropped + 1) } } .dir 0
      F.DIR_FAULT_OVF) .dir 0 F.DIR_INT_RAW_FAULT_DROP := by
  simp only [faultLogWrite, hq, if_neg (Nat.not_lt.mpr hfull)]

end Entries

/-- Settles O35: each command passes its admission and its own checks, and a device reset also during the hold. -/
theorem maintenanceCommandsComplete : Obligations.MaintenanceCommandsComplete := by
  unfold Obligations.MaintenanceCommandsComplete
  refine ⟨fun q f s h hf => ⟨fun k hb hc hk => ?format, fun hb => ⟨fun hc => ?sanitize, fun hc => ?sanitizeExit⟩⟩,
    fun q s h => ⟨fun hb hps => ?powerState, fun hb => ?faultRead, fun hb => ⟨?reset, ?force⟩⟩,
    fun q s h hhold hb => ⟨?resetHeld, ?forceHeld⟩, fun e rest s hq => ⟨fun hroom => ?logged, fun hfull => ?dropped⟩⟩
  case format => exact congrArg done (formatNvm_ready h hf hb hc hk)
  case sanitize => exact congrArg done (sanitizeAs_ready h hf hb hc)
  case sanitizeExit => exact congrArg done (sanitizeAs_ready h hf hb hc)
  case powerState => exact congrArg done (powerState_ready h hb hps)
  case faultRead =>
    intro first count hcount hlast hlen ans
    exact ⟨congrArg done (faultRead_ready h false hb hcount hlast hlen), congrArg done (faultRead_ready h true hb hcount hlast hlen)⟩
  case reset => exact congrArg done (deviceReset_ready h false hb)
  case force => exact congrArg done (deviceReset_ready h true hb)
  case resetHeld => exact congrArg done (deviceReset_holding false h hhold hb)
  case forceHeld => exact congrArg done (deviceReset_holding true h hhold hb)
  case logged => exact congrArg done (faultLogWrite_room hq hroom)
  case dropped => exact congrArg done (faultLogWrite_full hq hfull)

end Sys2Proof.Machine
end

section
/-! PROOFS. Reads, flushes, deallocations and zone reports: what admission makes of a command that is alone in the part, and what its
dispatch comes to (04_commands_and_ordering.md R160, R165, R171; 06_zones_and_placement.md R241; 07_translation_and_wear.md R294). -/

namespace Sys2Proof.Machine

/-! ### What admission leaves of the namespaces -/

theorem charge_nss (s : State) (t b : Nat) (r w : Bool) : (charge s t b r w).nss = s.nss := by
  unfold charge
  dsimp only
  (repeat' split) <;> rfl

theorem countHint_nss (s : State) (n : Option Ns) (c : Cmd) : (countHint s n c).nss = s.nss := by
  rw [countHint]
  split <;> rfl

theorem askData_nss (s : State) (c : Cmd) : (askData s c).nss = s.nss := by
  rw [askData]
  split
  · obtain ⟨c', w, o, h⟩ := sendMsg_frame s c.conn 24 (fun h => .conn c.conn "r2t" [c.cid, c.icd, cmdMoves c - c.icd] h)
    rw [h]
  · rfl

/-- Only a write takes numbers of its namespace. -/
theorem takeNumbers_reads {s : State} {n : Option Ns} {c : Cmd} (h : c.op.writes = false) : takeNumbers s n c = s := by
  unfold takeNumbers
  dsimp only
  split
  · rw [if_neg (by simp [h])]
  · rfl

theorem mget_mmod {α : Type} (m : FMap α) (k : Nat) (f : α → α) (j : Nat) :
    mget (mmod m k f) j = (mget m j).map (fun v => if j = k then f v else v) := by
  induction m with
  | nil => rfl
  | cons p m ih =>
    have hcons : mmod (p :: m) k f = (if p.1 = k then (p.1, f p.2) else p) :: mmod m k f := rfl
    by_cases hj : j = p.1
    · by_cases hk : p.1 = k <;> simp [hcons, mget, hj, hk]
    · have hhead : mget (mmod (p :: m) k f) j = mget (mmod m k f) j := by
        rw [hcons]
        split <;> exact if_neg hj
      rw [hhead, ih]
      exact congrArg _ (if_neg hj).symm

theorem nsAt_modNs (s : State) (j : Nat) (f : Ns → Ns) (k : Nat) :
    nsAt (modNs s j f) k = (nsAt s k).map (fun n => if k = j then f n else n) := mget_mmod ..

/-- A namespace stays where it is, whatever numbers are taken of it. -/
theorem takeNumbers_nsAt {s : State} {x : Option Ns} {c : Cmd} {k : Nat} {n : Ns} (h : nsAt s k = some n) :
    ∃ m, nsAt (takeNumbers s x c) k = some m := by
  unfold takeNumbers
  dsimp only
  split
  · split
    · exact ⟨_, (nsAt_modNs ..).trans (congrArg (Option.map _) h)⟩
    · exact ⟨n, h⟩
  · exact ⟨n, h⟩

section Admission

variable {s : State} {c : Cmd} {a : Arb}

/-- The part with a command that has been charged, before it is admitted. -/
def charged (s : State) (c : Cmd) (a : Arb) : State :=
  charge { entered s c with arb := a } c.fn (cmdBytes (entered s c) c) (c.op = .read) (programs (cmdZoned (entered s c) c) c.op)

theorem admitted_eq : admitted s c a = admitCmd (charged s c a) s.nextCmd c := rfl

theorem charged_nss : (charged s c a).nss = s.nss := charge_nss ..

theorem admitted_cmds_entering : (admitted s c a).cmds = [(cmdKey s, c.entering (charged s c a))] := by
  have hcmds : (charged s c a).cmds = [(s.nextCmd, c)] := charge_cmds ..
  have hnext : (charged s c a).nextCmd = cmdKey s := charge_nextCmd ..
  rw [admitted_eq, (admit_alone _ _ _ hcmds).1, hnext]

theorem asAdmitted_eq : asAdmitted s c a = c.entering (charged s c a) := by
  rw [asAdmitted, admitted_cmds_entering]
  simp [mget]

theorem admitted_cmds : (admitted s c a).cmds = [(cmdKey s, asAdmitted s c a)] := by
  rw [asAdmitted_eq, admitted_cmds_entering]

/-- A change of the command is what it makes of the command as admission leaves it. -/
theorem modCmd_admitted {f g : Cmd → Cmd} (h : f (asAdmitted s c a) = g (asAdmitted s c a)) :
    modCmd (admitted s c a) (cmdKey s) f = modCmd (admitted s c a) (cmdKey s) g := by
  simp [modCmd, admitted_cmds, mmod, h]

theorem admitted_nss (h : c.op.writes = false) : (admitted s c a).nss = s.nss := by
  rw [admitted_eq]
  simp only [admitCmd, askData_nss, takeNumbers_reads h, countHint_nss, bump_nss]
  exact charged_nss

theorem admitted_nsAt {k : Nat} {n : Ns} (h : nsAt s k = some n) : ∃ m, nsAt (admitted s c a) k = some m := by
  have hcount : nsAt (countHint (bump (cmdSeen (charged s c a)) .cfe 0 F.CFE_ADMITTED) (c.nsk.bind (nsAt (charged s c a))) c) k =
      some n := by
    rw [nsAt, countHint_nss]
    exact (congrArg (mget · k) charged_nss).trans h
  obtain ⟨m, hm⟩ := takeNumbers_nsAt (x := c.nsk.bind (nsAt (charged s c a))) (c := c) hcount
  exact ⟨m, (congrArg (mget · k) (askData_nss ..)).trans hm⟩

/-! The command itself keeps what its capsule brought. -/

theorem asAdmitted_op : (asAdmitted s c a).op = c.op := by rw [asAdmitted_eq]; rfl

theorem asAdmitted_nsk : (asAdmitted s c a).nsk = c.nsk := by rw [asAdmitted_eq]; rfl

theorem asAdmitted_nsid : (asAdmitted s c a).nsid = c.nsid := by rw [asAdmitted_eq]; rfl

theorem asAdmitted_fn : (asAdmitted s c a).fn = c.fn := by rw [asAdmitted_eq]; rfl

theorem asAdmitted_slba : (asAdmitted s c a).slba = c.slba := by rw [asAdmitted_eq]; rfl

theorem asAdmitted_nlb : (asAdmitted s c a).nlb = c.nlb := by rw [asAdmitted_eq]; rfl

theorem asAdmitted_dwords : (asAdmitted s c a).dwords = c.dwords := by rw [asAdmitted_eq]; rfl

theorem asAdmitted_ranges : (asAdmitted s c a).ranges = c.ranges := by rw [asAdmitted_eq]; rfl

/-- It takes the next write sequence of its namespace. -/
theorem asAdmitted_wseq {k : Nat} {n : Ns} (hk : c.nsk = some k) (hn : nsAt s k = some n) : (asAdmitted s c a).wseq = n.wseq.next := by
  have hat : nsAt (charged s c a) k = some n := (congrArg (mget · k) charged_nss).trans hn
  simp only [asAdmitted_eq, Cmd.entering, hk, Option.bind_some, hat]

end Admission

/-! ### Dispatch (R182) -/

section Dispatch

variable {s : State} {k slot : Nat} {c : Cmd} {n : Ns}

theorem dispatch_flush (ho : c.op = .flush) : dispatch s k c = dispatchFlush s k c := by
  rw [dispatch, ho]

variable (hk : c.nsk = some slot) (hn : nsAt s slot = some n)

include hk hn

theorem dispatch_read (ho : c.op = .read) (hz : zoneRefuses s n c = none) : dispatch s k c = dispatchRead s k c slot n := by
  simp only [dispatch, ho, hk, Option.bind_some, hn, hz]

theorem dispatch_dsm (ho : c.op = .dsm) : dispatch s k c =
    if bitsOf (c.dwords.getD 1 0) 2 2 = 1 then dispatchDealloc s k c slot c.ranges else finishCmd s k stOk 0 0 := by
  simp only [dispatch, ho, hk, Option.bind_some, hn]

theorem dispatch_zmRecv (ho : c.op = .zmRecv) : dispatch s k c = dispatchReport s k n c := by
  simp only [dispatch, ho, hk, Option.bind_some, hn]

end Dispatch

/-! ### Zones of a Read (check 13 of R161) -/

/-- The zones refuse a Read or not whatever else the part does. -/
theorem zoneRefuses_read {s t : State} {n : Ns} {c d : Cmd} (hc : c.op = .read) (hd : d.op = .read) (hs : c.slba = d.slba)
    (hl : c.nlb = d.nlb) : zoneRefuses s n c = zoneRefuses t n d := by
  simp only [zoneRefuses, hc, hd, hs, hl]

theorem eq_none_of_ite_some {α : Type} {p : Prop} [Decidable p] {x : α} {o : Option α}
    (h : (if p then some x else o) = none) : o = none := by
  by_cases hp : p
  · cases (if_pos hp).symm.trans h
  · exact (if_neg hp).symm.trans h

/-- The last of the checks looks at the zones, unless effects on them are still to come. -/
theorem ioCheck_zone {s : State} {c : Cmd} {k : Nat} {n : Ns} (h : ioCheck s c = none) (hk : c.nsk = some k) (hn : nsAt s k = some n)
    (hz : zonePending s k n c = false) : zoneRefuses s n c = none := by
  unfold ioCheck at h
  dsimp only at h
  iterate 12 replace h := eq_none_of_ite_some h
  split at h
  next => cases h
  next =>
    split at h
    next => cases h
    next =>
      iterate 2 replace h := eq_none_of_ite_some h
      simpa only [hk, Option.bind_some, hn, hz, Bool.false_eq_true, if_false, Option.map_eq_none_iff] using h

/-- A Read that passes its checks alone in the part finds its zones open to it. -/
theorem passes_zone {s : State} {c : Cmd} {k : Nat} {n : Ns} (h : Passes s c) (hp : c.phase = .waiting) (hk : c.nsk = some k)
    (hn : nsAt s k = some n) : zoneRefuses (entered s c) n c = none := by
  obtain ⟨-, hcheck, -⟩ := h
  have hpending : zonePending (entered s c) k n c = false := by
    show ([(s.nextCmd, c)] : FMap Cmd).any _ = false
    simp [hp]
  exact ioCheck_zone hcheck hk hn hpending

/-! ### The commands -/

section Commands

variable {q : Capsule} {f slot : Nat} {n : Ns} {s : State} (h : IoReady s q f slot n)

include h

theorem readCmd_passes (hp : Passes s (ioCmd s q f slot n .read q.slba q.nlb false [] [])) :
    let c := ioCmd s q f slot n .read q.slba q.nlb false [] []
    ∃ a, capsuleIn q (readCmd q) s = afterDispatch ((List.range q.nlb).foldl (readOff (cmdKey s) (asAdmitted s c a) slot n)
      (modCmd (admitted s c a) (cmdKey s) (fun c => { c with phase := .dispatched, left := List.range q.nlb }))) := by
  intro c
  have ⟨_, _, hn⟩ := h
  obtain ⟨a, ha⟩ := submitIo_alone h (by decide) hp
  have hat : nsAt (admitted s c a) slot = some n := (congrArg (mget · slot) (admitted_nss rfl)).trans hn
  have hzone : zoneRefuses (admitted s c a) n (asAdmitted s c a) = none :=
    (zoneRefuses_read asAdmitted_op rfl asAdmitted_slba asAdmitted_nlb).trans (passes_zone hp rfl rfl hn)
  have hnlb : (asAdmitted s c a).nlb = q.nlb := asAdmitted_nlb
  refine ⟨a, ha.trans (congrArg afterDispatch ?_)⟩
  rw [dispatch_read asAdmitted_nsk hat asAdmitted_op hzone, dispatchRead, hnlb]
  refine congrArg (List.foldl _ · _) (modCmd_admitted ?_)
  rw [hnlb]

theorem flushCmd_passes (hp : Passes s (ioCmd s q f slot n .flush 0 0 false [] [])) :
    let c := ioCmd s q f slot n .flush 0 0 false [] []
    ∃ a, let r := admitted s c a; capsuleIn q (flushCmd q) s = afterDispatch (modCmd (forceUnits r (ackedUnits r [slot])) (cmdKey s)
      (fun c => { c with phase := .dispatched, units := ackedUnits r [slot], dw0 := 0 })) := by
  intro c
  obtain ⟨a, ha⟩ := submitIo_alone h (by decide) hp
  refine ⟨a, ha.trans (congrArg afterDispatch ?_)⟩
  have hslots : cmdSlots (admitted s c a) (asAdmitted s c a) = [slot] := by rw [cmdSlots, asAdmitted_nsk]; rfl
  rw [dispatch_flush asAdmitted_op, dispatchFlush, hslots]

/-- A Dataset Management deallocates with Deallocate set, and without it has nothing to do. -/
theorem datasetManagement_passes (ranges : List (Nat × Nat))
    (hp : Passes s (ioCmd s q f slot n .dsm 0 0 false [] (ranges.take (bitsOf q.dw10 7 0 + 1)))) :
    let rs := ranges.take (bitsOf q.dw10 7 0 + 1)
    let c := ioCmd s q f slot n .dsm 0 0 false [] rs
    ∃ a, let r := admitted s c a; let d := deallocAll r slot n.wseq.next rs
      capsuleIn q (datasetManagement q ranges) s = afterDispatch (if bitsOf q.dw11 2 2 = 1 then
        modCmd d (cmdKey s) (fun c => { c with phase := .dispatched, recNo := jCount d, dw0 := 0 }) else finishCmd r (cmdKey s) stOk 0 0) := by
  intro rs c
  have ⟨_, _, hn⟩ := h
  obtain ⟨a, ha⟩ := submitIo_alone h (by decide) hp
  obtain ⟨m, hat⟩ := admitted_nsAt (c := c) (a := a) hn
  refine ⟨a, ha.trans (congrArg afterDispatch ?_)⟩
  rw [dispatch_dsm asAdmitted_nsk hat asAdmitted_op, dispatchDealloc, asAdmitted_wseq rfl hn, asAdmitted_ranges, asAdmitted_dwords]
  rfl

theorem reportZones_passes (hp : Passes s (ioCmd s q f slot n .zmRecv q.slba 0 false [] [])) :
    let c := ioCmd s q f slot n .zmRecv q.slba 0 false [] []
    ∃ a, capsuleIn q (reportZones q) s = afterDispatch (dispatchReport (admitted s c a) (cmdKey s) n (asAdmitted s c a)) := by
  intro c
  have ⟨_, _, hn⟩ := h
  obtain ⟨a, ha⟩ := submitIo_alone h (by decide) hp
  have hat : nsAt (admitted s c a) slot = some n := (congrArg (mget · slot) (admitted_nss rfl)).trans hn
  exact ⟨a, ha.trans (congrArg afterDispatch (dispatch_zmRecv asAdmitted_nsk hat asAdmitted_op))⟩

end Commands

/-- A Flush of all of a tenant's namespaces, as it waits in its submission queue. -/
def tenantFlush (s : State) (q : Capsule) (f slot : Nat) (n : Ns) : Cmd :=
  { ioCmd s q f slot n .flush 0 0 false [] [] with nsk := none, cls := 0 }

theorem tenantFlush_enters {q : Capsule} {f : Nat} {s : State} (slot : Nat) (n : Ns) (h : IoServed s q f) (hnone : nsSlot s f q.nsid = none) :
    capsuleIn q (flushCmd q) s = pump (entered s (tenantFlush s q f slot n)) := by
  obtain ⟨hm, hpl, hentry, -, hpdu, ⟨cn, hcn, hfn, hready, hqid⟩, hf, hres, hcmds⟩ := h
  have htaken : (!cn.ready || decide (cn.qid = 0) || decide (512 ≤ f) || (ctrl s f).resetting || s.plRun.isSome ||
      !(decide (s.mode = .run) || decide (s.mode = .guard))) = false := by
    simp [hready, hqid, Nat.not_le.mpr hf, hres, hpl, hm]
  rw [capsuleIn_good hpdu, flushCmd, submitIo, serveMode_run (.inl hm) hentry]
  simp only [hcn, hfn, htaken, hnone, hcmds, Option.bind_none]
  rfl

theorem tenantFlush_passes {q : Capsule} {f slot : Nat} {n : Ns} {s : State} (h : IoServed s q f) (hall : q.nsid = 0xFFFFFFFF)
    (hnone : nsSlot s f q.nsid = none) (hp : Passes s (tenantFlush s q f slot n)) :
    ∃ a, let r := admitted s (tenantFlush s q f slot n) a
      let us := ackedUnits r ((r.nss.filter (fun p => p.2.tenant = f)).map Prod.fst)
      capsuleIn q (flushCmd q) s = afterDispatch (modCmd (forceUnits r us) (cmdKey s)
        (fun c => { c with phase := .dispatched, units := us, dw0 := 0 })) := by
  have ⟨hm, hpl, hentry, hhold, _⟩ := h
  obtain ⟨a, ha⟩ := pump_alone s (tenantFlush s q f slot n) rfl hm hpl hentry hhold nofun hp nofun
  refine ⟨a, (tenantFlush_enters slot n h hnone).trans (ha.trans (congrArg afterDispatch ?_))⟩
  have hslots : cmdSlots (admitted s (tenantFlush s q f slot n) a) (asAdmitted s (tenantFlush s q f slot n) a) =
      (((admitted s (tenantFlush s q f slot n) a).nss.filter (fun p => p.2.tenant = f)).map Prod.fst) := by
    rw [cmdSlots, asAdmitted_nsk, asAdmitted_nsid, asAdmitted_fn]
    exact if_pos hall
  rw [dispatch_flush asAdmitted_op, dispatchFlush, hslots]

/-- Settles O31: each command is taken, admitted and dispatched, and its dispatch is what the statement names. -/
theorem readsAndDeallocationsComplete : Obligations.ReadsAndDeallocationsComplete := by
  unfold Obligations.ReadsAndDeallocationsComplete
  refine fun q f slot n s => ⟨fun bad corr => ?read, fun h hall hnone => ?flushAll, fun h => ⟨?flush, fun ranges => ?dealloc, ?report⟩⟩
  case read =>
    intro s0 nlb c h hp
    obtain ⟨a, ha⟩ := readCmd_passes h hp
    exact ⟨a, congrArg done ha⟩
  case flushAll =>
    intro c hp
    obtain ⟨a, ha⟩ := tenantFlush_passes h hall hnone hp
    exact ⟨a, congrArg done ha⟩
  case flush =>
    intro c hp
    obtain ⟨a, ha⟩ := flushCmd_passes h hp
    exact ⟨a, congrArg done ha⟩
  case dealloc =>
    intro rs c _ hp
    obtain ⟨a, ha⟩ := datasetManagement_passes h ranges hp
    refine ⟨a, fun hdealloc => ?_, fun hnot => ?_⟩
    · exact congrArg done (ha.trans (congrArg afterDispatch (if_pos hdealloc)))
    · exact congrArg done (ha.trans (congrArg afterDispatch (if_neg (by omega))))
  case report =>
    intro c _ hp
    obtain ⟨a, ha⟩ := reportZones_passes h hp
    exact ⟨a, congrArg done ha⟩

end Sys2Proof.Machine
end

section
/-! PROOFS. Registers of a tenant, a lane, the DRAM ranks and the test windows that have an effect of their own: TFn.CTRL.QUIESCE,
DIAG_CTRL.GO, SPARE_CTRL.FORCE and TEST_DATA (05_tenant_functions.md R220, R223; 09_flash_lanes_thyme.md R396, R402;
14_memories_buffers_dram.md R544, R549, R556). -/

namespace Sys2Proof.Machine

/-! ### Quiesce (R220, R223) -/

theorem doWrite_tfCtrl (s : State) (p : Path) (t v : Nat) : doWrite s p .tf t 0x010 v = tfCtrl s p t v := rfl

section Quiesce

variable {s : State} {p : Path} {t : Fin 512} (h : RegOpen s p .tf t)

include h

/-- With no lock of the page in force, a write of TFn.CTRL without ERR_CLR begins or ends the quiesce. -/
theorem tfCtrl_open {v : Nat} (hv : v / 2 ^ 31 % 2 = 0) :
    tfCtrl s p t v = if v % 2 = 1 then quiesceBegin s t else quiesceEnd s t := by
  obtain ⟨-, -, hlock⟩ := h
  have hfree : (!p.isFw && decide (rd s .tf t 0x038 % 2 = 1)) = false := by
    rcases hlock with hlock | hlock <;> simp [hlock]
  simp only [tfCtrl, hv, hfree, Nat.zero_ne_one, Bool.false_eq_true, if_false]

theorem writeReg_tfCtrl {v : Nat} (hv : v < 2 ^ 31) : writeReg p .tf t 0x010 v s =
    emit (if v % 2 = 1 then quiesceBegin s t else quiesceEnd s t) (.access (regAddr .tf t 0x010) 0 0) := by
  have hword : v % 2 ^ 32 = v := Nat.mod_eq_of_lt (by omega)
  rw [writeReg_open p .tf t 0x010 v s (pageIs_tf t) (by decide) (by decide) (by decide) (by decide) h, hword,
    doWrite_tfCtrl, tfCtrl_open h (by omega : v / 2 ^ 31 % 2 = 0)]

end Quiesce

theorem quiesceBegin_active {s : State} {t : Nat} (h : (tenant s t).state = .active) : quiesceBegin s t =
    pump (modTenant (setF s .tf t F.TF_CTRL_QUIESCE 1) t (fun x =>
      { x with state := .quiescing, quiesced := false, drain := tenantCmds s t })) := if_pos h

theorem quiesceEnd_over {s : State} {t : Nat} (h : (tenant s t).state = .quiescing ∨ (tenant s t).state = .quiesced) :
    quiesceEnd s t = quiesceOver s t := by
  rw [quiesceEnd]
  rcases h with h | h <;> rw [h]

/-! ### Diagnostic reads (R396, R402) -/

/-- Giving an operation to Cirrus leaves what the lanes were given. -/
theorem feed_lanes (s : State) (x : FMap Lane) (op : FlashOp) :
    feed { s with lanes := x } op = { s with lanes := x, feeds := s.feeds ++ [op] } := rfl

/-- DIAG_CTRL.GO stores its register's word and starts the lane's diagnostic read. -/
theorem writeReg_diagGo {s : State} {p : Path} {l : Fin 64} (v : Nat) (h : RegOpen s p .lan l) :
    writeReg p .lan l 0x138 (v ||| 1) s =
      emit (diagGo (storeWord s .lan l 0x138 ((v ||| 1) % 2 ^ 32)) l) (.access (regAddr .lan l 0x138) 0 0) :=
  (writeReg_block 0x138 (v ||| 1) h (pageIs_lan l) (by decide) (by decide)).trans
    (congrArg (emit · _) (if_pos (odd_or_one_mod_word v)))

section Diagnostic

variable {s : State} {l : Nat} (hidle : getF s .lan l F.LAN_DIAG_STAT_BUSY = 0)

/-- The place that a lane's diagnostic read names. -/
abbrev diagPua (s : State) (l : Nat) : Nat := getF s .lan l F.LAN_DIAG_PUA_LO_PUA_LO + getF s .lan l F.LAN_DIAG_PUA_HI_PUA_HI * 2 ^ 32

include hidle

theorem diagGo_otherLane (hl : laneOfDie (puaDie (diagPua s l)) ≠ l) :
    diagGo s l = diagEnd (setF s .lan l F.LAN_DIAG_STAT_BUSY 1) l 6 0 := by
  rw [diagGo, if_neg (by omega)]
  exact if_pos hl

variable (hl : laneOfDie (puaDie (diagPua s l)) = l)

include hl

theorem diagGo_absent (hd : (dieAt s (puaDie (diagPua s l))).st = .absent) :
    diagGo s l = diagEnd (setF s .lan l F.LAN_DIAG_STAT_BUSY 1) l 5 0 := by
  rw [diagGo, if_neg (by omega)]
  exact (if_neg (not_not_intro hl)).trans (if_pos hd)

variable (hd : (dieAt s (puaDie (diagPua s l))).st ≠ .absent)

include hd

theorem diagGo_out (ho : dieOut s (puaDie (diagPua s l)) = true) :
    diagGo s l = diagEnd (setF s .lan l F.LAN_DIAG_STAT_BUSY 1) l 4 0 := by
  rw [diagGo, if_neg (by omega)]
  exact (if_neg (not_not_intro hl)).trans ((if_neg hd).trans (if_pos ho))

/-- A flash die in service is read through Cirrus as bulk data. -/
theorem diagGo_feeds (ho : dieOut s (puaDie (diagPua s l)) = false) :
    let busy := setF s .lan l F.LAN_DIAG_STAT_BUSY 1
    diagGo s l = feed { busy with lanes := mset busy.lanes l { mgetD busy.lanes l {} with diag := some s.now, diagRead := false } }
      { kind := .read, die := puaDie (diagPua s l), pua := diagPua s l, owner := .diag, cls := 0, deadline := s.now + clsTarget s 0
        thr := if getF s .lan l F.LAN_DIAG_CTRL_THR ≤ 5 then getF s .lan l F.LAN_DIAG_CTRL_THR else 0
        cws := [getF s .lan l F.LAN_DIAG_CTRL_SUB] } := by
  rw [diagGo, if_neg (by omega)]
  exact (if_neg (not_not_intro hl)).trans ((if_neg hd).trans (if_neg (Bool.eq_false_iff.mp ho)))

end Diagnostic

/-! ### The spare rank (R544, R549) -/

/-- A report leaves every register of a block, wherever it is logged; BOOT counts what the fault queue drops. -/
theorem rd_report_block {s : State} {k l : PageKind} {i j o : Nat} (src kind cause detail lo hi : Nat) (hk : pageIs k i = true)
    (hl : pageIs l j = true) (hb : l ≠ .boot) (ho : 0x100 ≤ o) (ho' : o < 0x1000) :
    rd (report s k i src kind cause detail lo hi) l j o = rd s l j o := by
  have hheader : o ∉ [0x024, 0x028, 0x02C, 0x030] := by
    simp only [List.mem_cons, List.not_mem_nil, or_false]
    omega
  by_cases ha : rd s k i 0x030 = 0
  · rw [rd_report_armed _ _ _ _ _ _ ha hl hb ho']
    by_cases hsame : (l, j) = (k, i)
    · cases hsame
      exact rd_reportCaptured_otherOff _ _ _ _ _ _ hheader
    · exact rd_reportCaptured_otherPage _ _ _ _ hk hl ho' hsame
  · rw [rd_report_held _ _ _ _ _ _ ha hl hb ho']
    by_cases hsame : (l, j) = (k, i)
    · cases hsame
      exact rd_reportMissed_otherOff _ _ _ (by omega) (by omega)
    · exact rd_reportMissed_otherPage _ hk hl ho' hsame

theorem pageIs_drc {r : Nat} (h : r < 16) : pageIs .drc (r / 2) = true := by
  have hch : r / 2 < 8 := by omega
  generalize r / 2 = c at hch
  revert c
  decide

/-- The register word SPARE_CTRL. -/
def spareWord (s : State) : Nat := rd s .drx 0 0x10C

theorem spareWord_setF_drc (s : State) {r : Nat} (f : Fld) (v : Nat) (h : r < 16) (hf : f.off < 0x1000) :
    spareWord (setF s .drc (r / 2) f v) = spareWord s :=
  rd_wr_otherPage _ _ (pageIs_drc h) rfl hf (by decide) (by simp)

@[simp] theorem spareWord_setF_drx (s : State) (f : Fld) (v : Nat) (hf : f.off ≠ 0x10C) :
    spareWord (setF s .drx 0 f v) = spareWord s := rd_wr_otherOff _ _ _ _ hf.symm

theorem spareWord_blockError (s : State) {k : PageKind} {i : Nat} (cause detail lo hi : Nat) (hk : pageIs k i = true) :
    spareWord (blockError s k i cause detail lo hi) = spareWord s :=
  rd_report_block _ _ _ _ _ _ hk rfl (by decide) (by decide) (by decide)

theorem spareWord_dram (s : State) (d : Dram) : spareWord { s with dram := d } = spareWord s := rfl

section Ranks

variable {r : Nat}

/-- The registers that tell of the copy of a failed rank to the spare. -/
def copyTold (s : State) (r : Nat) : State :=
  setF (setF (setF (setF (setRank s r 3) .drx 0 F.DRX_SPARE_STATE 1) .drx 0 F.DRX_SPARE_FAILED_CH (r / 2)) .drx 0
    F.DRX_SPARE_FAILED_RANK (r % 2)) .drx 0 F.DRX_COPY_PTR_PIECES 0

/-- The state in which that copy starts, with the rank and its serial number on record from then on (log 133). -/
def copyStarted (s : State) (r : Nat) : State :=
  let s2 := copyTold s r
  raise { s2 with dram := { s2.dram with copyAt := s.now, retired := some (r, mgetD s.dram.serials (r / 2) 0) } } .drx 0
    F.DRX_INT_RAW_SPARE_START

/-- The state in which a rank has failed and found no spare. -/
def spareMissed (s : State) (r : Nat) : State :=
  raise (blockError { s with dram := { s.dram with noSpare := r :: s.dram.noSpare } } .drx 0 1 r 0 0) .drx 0 F.DRX_INT_RAW_NO_SPARE

theorem rankFail_eq (s : State) (r : Nat) : rankFail s r = if rankState s r ≠ 1 ∨ r ∈ s.dram.noSpare then s
    else if getF s .drx 0 F.DRX_SPARE_STATE = 0 then copyStarted s r else spareMissed s r := by
  simp only [rankFail, copyStarted, copyTold, spareMissed, Bool.or_eq_true, decide_eq_true_eq, List.contains_iff_mem]

theorem rankFail_inService {s : State} (h : rankState s r = 1) (hn : r ∉ s.dram.noSpare) :
    rankFail s r = if getF s .drx 0 F.DRX_SPARE_STATE = 0 then copyStarted s r else spareMissed s r := by
  rw [rankFail_eq, if_neg (by simp [h, hn])]

theorem rankFld_off_lt (r : Nat) : (rankFld r F.DRC_RANK_STAT_RANK0 F.DRC_RANK_STAT_RANK1).off < 0x1000 := by
  rw [rankFld]
  split <;> decide

theorem spareWord_copyTold (s : State) (h : r < 16) : spareWord (copyTold s r) = spareWord s := by
  have hrank : spareWord (setRank s r 3) = spareWord s := spareWord_setF_drc _ _ _ h (rankFld_off_lt r)
  simp [copyTold, hrank]

theorem spareWord_rankFail (s : State) (h : r < 16) : spareWord (rankFail s r) = spareWord s := by
  rw [rankFail_eq]
  split
  · rfl
  · split
    · rw [copyStarted, raise, spareWord_setF_drx _ _ _ (by decide), spareWord_dram]
      exact spareWord_copyTold s h
    · rw [spareMissed, raise, spareWord_setF_drx _ _ _ (by decide)]
      exact spareWord_blockError _ _ _ _ _ rfl

theorem spareWord_ceJudge (s : State) (h : r < 16) : spareWord (ceJudge s r) = spareWord s := by
  rw [ceJudge]
  split
  · rfl
  · split
    · rfl
    · rw [spareWord_rankFail _ h, raise, spareWord_setF_drc _ _ _ h (by decide)]
      exact spareWord_blockError _ _ _ _ _ (pageIs_drc h)

/-- Judging ranks leaves SPARE_CTRL as it was written. -/
theorem spareWord_judged {l : List Nat} (s : State) (h : ∀ r ∈ l, r < 16) : spareWord (l.foldl ceJudge s) = spareWord s := by
  induction l generalizing s with
  | nil => rfl
  | cons r l ih =>
    exact (ih _ fun x hx => h x (List.mem_cons_of_mem _ hx)).trans (spareWord_ceJudge s (h r List.mem_cons_self))

end Ranks

/-- The ranks that a write of SPARE_CTRL judges. -/
def ranksJudged (s : State) : State := ((List.range 16).filter (fun r => rankState s r = 1)).foldl ceJudge s

/-- The rank that FORCE names. -/
def forcedRank (s : State) : Nat := getF s .drx 0 F.DRX_SPARE_CTRL_FORCE_CH * 2 + getF s .drx 0 F.DRX_SPARE_CTRL_FORCE_RANK

theorem forcedRank_judged (s : State) : forcedRank (ranksJudged s) = forcedRank s := by
  have hword : rd (ranksJudged s) .drx 0 0x10C = rd s .drx 0 0x10C :=
    spareWord_judged s fun r hr => List.mem_range.mp (List.mem_of_mem_filter hr)
  rw [forcedRank, forcedRank, getF_of_rd_eq F.DRX_SPARE_CTRL_FORCE_CH hword, getF_of_rd_eq F.DRX_SPARE_CTRL_FORCE_RANK hword]

/-- A write of SPARE_CTRL with FORCE judges the ranks, and fails the rank that it names. -/
theorem writeReg_spareForce {s : State} {p : Path} (v : Nat) (h : RegOpen s p .drx 0) :
    let s1 := ranksJudged (storeWord s .drx 0 0x10C ((v ||| 1) % 2 ^ 32))
    writeReg p .drx 0 0x10C (v ||| 1) s = emit (rankFail s1 (forcedRank s1)) (.access (regAddr .drx 0 0x10C) 0 0) := by
  intro s1
  rw [writeReg_block 0x10C (v ||| 1) h (by decide) (by decide) (by decide), forcedRank_judged]
  have hforce : decide ((v ||| 1) % 2 ^ 32 % 2 = 1) = true := decide_eq_true (odd_or_one_mod_word v)
  rw [blockWrite, hforce]
  rfl

/-! ### The test windows (R556) -/

section TestData

variable {s : State}

theorem testWrite_plain {v : Nat} (h : ¬(getF s .sea 0 F.SEA_FLIP_ARMED = 1 ∧ memIndex (getF s .sea 0 F.SEA_FLIP_TARGET) = (testSel s).1)) :
    testWrite v s = setWin s (testSel s).1 (testSel s).2 ⟨v % 256, 0⟩ := if_neg (by simpa using h)

theorem testWrite_armed {v : Nat} (h : getF s .sea 0 F.SEA_FLIP_ARMED = 1 ∧ memIndex (getF s .sea 0 F.SEA_FLIP_TARGET) = (testSel s).1) :
    testWrite v s = raise (setF (setWin s (testSel s).1 (testSel s).2 ⟨v % 256, flipCount s⟩) .sea 0 F.SEA_FLIP_ARMED 0)
      .sea 0 F.SEA_INT_RAW_FLIP_DONE := if_pos (by simpa using h)

/-- A byte with its check bits as they were is read and written back. -/
theorem windowRead_good {m o : Nat} (h : (winAt s m o).flips = 0) : windowRead s m o = setWin s m o (winAt s m o) := by
  have hback : ({ winAt s m o with flips := if (winAt s m o).flips = 1 then 0 else (winAt s m o).flips } : TestByte) = winAt s m o := by
    rw [if_neg (by omega)]
  have hfinds : (winAt s m o).finds = .good := by
    rw [TestByte.finds, h]
    rfl
  simp only [windowRead, hback, hfinds, sealedRead]

end TestData

/-- Settles O17: an access that its page allows has its register's own effect; judging the ranks leaves the one that FORCE names. -/
theorem tenantLaneTestRegistersComplete : Obligations.TenantLaneTestRegistersComplete := by
  unfold Obligations.TenantLaneTestRegistersComplete
  refine fun p v s => ⟨fun t h => ⟨fun ha => ?quiesce, fun hq => ?quiesceEnd⟩, fun l h => ?diagFeeds, fun l h => ?diagEnds,
    fun h => ?spare, fun h => ?test⟩
  case quiesce =>
    refine congrArg done ((writeReg_tfCtrl h (v := 1) (by decide)).trans ?_)
    rw [if_pos rfl, quiesceBegin_active ha]
  case quiesceEnd =>
    refine congrArg done ((writeReg_tfCtrl h (v := 0) (by decide)).trans ?_)
    rw [if_neg (by decide), quiesceEnd_over hq, quiesceOver]
  case diagFeeds =>
    intro s1 pua busy hidle hl hd ho
    refine congrArg done ((writeReg_diagGo v h).trans (congrArg (emit · _) ?_))
    rw [diagGo_feeds hidle hl hd ho, feed_lanes]
  case diagEnds =>
    intro s1 pua busy ends hidle
    have hgo {n : Nat} (hn : diagGo s1 l = diagEnd busy l n 0) : exec (.diagRead p l v) s = .next (settle (ends n)) :=
      congrArg done ((writeReg_diagGo v h).trans (congrArg (emit · _) hn))
    exact ⟨fun hl => hgo (diagGo_otherLane hidle hl), fun hl hd => hgo (diagGo_absent hidle hl hd),
      fun hl hd ho => hgo (diagGo_out hidle hl hd ho)⟩
  case spare =>
    intro s0 s1 r s2 hr hn
    have hfail := (writeReg_spareForce v h).trans (congrArg (emit · _) (rankFail_inService (s := s1) (r := r) hr hn))
    refine ⟨fun hspare => congrArg done (hfail.trans ?_), fun hspare => congrArg done (hfail.trans ?_)⟩
    · rw [if_pos hspare]
      rfl
    · rw [if_neg hspare]
      rfl
  case test =>
    intro m o armed
    have hwrite := writeReg_block 0x130 v h (by decide) (by decide) (by decide)
    refine ⟨fun hfree => congrArg done (hwrite.trans ?_), fun harmed => congrArg done (hwrite.trans ?_), fun hgood => ?_⟩
    · exact congrArg (emit · _) (testWrite_plain hfree)
    · exact congrArg (emit · _) (testWrite_armed harmed)
    · refine congrArg done ((readReg_open p .sea 0 0x130 s (by decide) (by decide) (by decide) (by decide) h.1 h.2.1).trans ?_)
      exact congrArg (emit · _) (windowRead_good hgood)

end Sys2Proof.Machine
end

section
/-! PROOFS. MF's commands on a tenant and the end of a quiesce (05_tenant_functions.md R209, R211–R215, R220, R226–R229;
12_sorrel_keys_cipher.md R473, R474). -/

namespace Sys2Proof.Machine

section Tenants

variable {q : Capsule} {i : Instr} {s : State} (h : Ready s q fnMF)

include h

/-- CONFIG_SAVE commits the interface table and the register words beside it (R209). -/
theorem configSave_ready (hb : OnlyBits q [0, 0, 0, 0, 0, 0]) : let s1 := served s fnMF
    inTurn q i false (configSave q) s = postSt { s1 with
      savedIfs := s1.ifs
      savedRegs := savedWords.foldl (fun m w => mset m (pageBase w.1 w.2.1 + w.2.2) (BitVec.ofNat 32 (rd s1 w.1 w.2.1 w.2.2)))
        s1.savedRegs } q.conn q.cid stOk :=
  vendor_yes h hb (fun _ => rfl) rfl

variable (hb : OnlyBits q [0x1FF, 0, 0, 0, 0, 0])

include hb

/-! ### Creation (R211, R212) -/

theorem tenantCreate_ready {b : Block} (hfree : (tenant (served s fnMF) (cmdTenant q)).state = .free) (hlen : 4096 ≤ q.len)
    (hgood : tenantBlockBad (served s fnMF) (cmdTenant q) b false = none) : let t := cmdTenant q
    inTurn q i false (tenantCreate q b) s = postSt (setF (trecClear (setTenant (served s fnMF) t
      { state := .active, par := tenantPar b, ver := 1 }) t) .tf t F.TF_CTRL_QUIESCE 0) q.conn q.cid stOk :=
  manage_yes h hb (fun n => by simp [hfree]) (by simp only [if_neg (Nat.not_lt.mpr hlen), hgood])

variable (hused : (tenant (served s fnMF) (cmdTenant q)).state ≠ .free)

include hused

/-- A command on a tenant that is not FREE comes to what it executes. -/
theorem onTenant_ready {run : Nat → State → Verdict} {u : State} (hr : run (cmdTenant q) (served s fnMF) = .yes u) :
    inTurn q i false (onTenant q [tenantMask, 0, 0, 0, 0, 0] noFieldT run) s = u :=
  onTenant_yes h hb hused (fun _ => rfl) hr

/-! ### Modification (R213, R214) -/

section Modify

variable {b : Block} (hlen : 4096 ≤ q.len) (hgood : tenantBlockBad (served s fnMF) (cmdTenant q) b true = none)

include hlen hgood

/-- A change that needs no quiesce, or that finds the tenant quiesced, replaces the parameters: the buckets keep their levels (log 58),
and metering that it turns on begins a minute (log 192). -/
theorem tenantModify_replaces (hq : needsQuiesce (tenant (served s fnMF) (cmdTenant q)).par (tenantPar b) = false ∨
      (tenant (served s fnMF) (cmdTenant q)).quiesced = true) : let s1 := served s fnMF; let t := cmdTenant q
    let s2 := modTenant (rebaseTenant s1 t) t (fun x => { x with par := tenantPar b, ver := (x.ver + 1) % 2 ^ 32 })
    inTurn q i false (tenantModify q b) s = pump (postSt (if meterEn (tenant s2 t) && !meterEn (tenant s1 t) then
      modAcc s2 t (fun a => { ({} : MtrAcc) with timeSet := a.timeSet }) else s2) q.conn q.cid stOk) := by
  have hopen : (needsQuiesce (tenant (served s fnMF) (cmdTenant q)).par (tenantPar b) &&
      !(tenant (served s fnMF) (cmdTenant q)).quiesced) = false := by
    rcases hq with hq | hq <;> simp [hq]
  exact onTenant_ready h hb hused (by simp only [if_neg (Nat.not_lt.mpr hlen), hgood, hopen, Bool.false_eq_true, if_false])

/-- A change that needs a quiesce is reported while the tenant is not quiesced. -/
theorem tenantModify_refused (hneeds : needsQuiesce (tenant (served s fnMF) (cmdTenant q)).par (tenantPar b) = true)
    (hnot : (tenant (served s fnMF) (cmdTenant q)).quiesced = false) : inTurn q i false (tenantModify q b) s =
      postSt (tfError (served s fnMF) (cmdTenant q) 3 q.cid) q.conn q.cid stSequenceError :=
  onTenant_ready h hb hused (by simp only [if_neg (Nat.not_lt.mpr hlen), hgood, hneeds, hnot, Bool.not_false, Bool.and_self, if_true])

end Modify

/-! ### Reset and removal (R226–R229) -/

theorem stopGate_quiesced {cause : Nat} {run : Nat → State → State} (hq : (tenant (served s fnMF) (cmdTenant q)).state = .quiesced)
    (hquiet : (tenant (served s fnMF) (cmdTenant q)).quiesced = true) (hmig : (migOf (served s fnMF) (cmdTenant q)).logs = false) :
    inTurn q i false (stopGate q cause run) s = run (cmdTenant q) (served s fnMF) :=
  onTenant_ready h hb hused (by simp only [hq, hquiet, hmig, decide_true, Bool.and_self, Bool.not_true, Bool.false_eq_true, if_false])

theorem stopGate_refused {cause : Nat} {run : Nat → State → State} (hnot : (tenant (served s fnMF) (cmdTenant q)).state ≠ .quiesced ∨
      (tenant (served s fnMF) (cmdTenant q)).quiesced = false) : inTurn q i false (stopGate q cause run) s =
      post (tfError (served s fnMF) (cmdTenant q) cause q.cid) q.conn q.cid stNotQuiesced (cmdTenant q) 0 [] := by
  refine onTenant_ready h hb hused (if_pos ?_)
  rcases hnot with hnot | hnot <;> simp [hnot]

/-! ### Credentials (R473, R474) -/

/-- A blob that opens under the tenant's key, names the tenant and is in range is installed in its list and in its record. -/
theorem tenantCred_ready {data b sec : List Nat} {x : Tenant} {e : Enroll} {m : FMap Nat} (hlen : 368 ≤ q.len)
    (hx : tenant (served s fnMF) (cmdTenant q) = x) (hdata : fitBytes 368 data = b) (he : x.enroll = some e)
    (hopen : credOpen (kWrap (cmdTenant q) e) b = some sec) (ht : credTenant b = cmdTenant q) (hok : credOk b = true)
    (hput : putCred (if credKind b = 1 then x.psk else x.secrets) b sec = some m) :
    let y := if credKind b = 1 then { x with psk := m } else { x with secrets := m }
    inTurn q i false (tenantCred q data) s =
      postSt (setTenant (recPut (served s fnMF) (credRec (cmdTenant q)) (.creds y.psk y.secrets)) (cmdTenant q) y) q.conn q.cid stOk :=
  onTenant_ready h hb hused (by
    simp only [if_neg (Nat.not_lt.mpr hlen), hx, hdata, he, Option.bind_some, hopen, ht, hok, decide_true, Bool.and_self, if_true, hput])

end Tenants

/-- With the commands that it waited for gone, a quiesce is complete (R220). -/
theorem quiesceComplete_gone {s : State} {t : Nat} (hq : (tenant s t).state = .quiescing) (hgone : cmdsGone s (tenant s t).drain = true)
    (hwaits : tenantWaits s t = false) : quiesceComplete t s = raise (setTenant s t
      { tenant s t with state := .quiesced, quiesced := true, drain := [] }) .tf t F.TF_INT_RAW_QUIESCED :=
  if_pos (by simp [hq, hgone, hwaits])

/-- Settles O36: each command passes its admission, and the tenant's state and the command's data decide what it executes. -/
theorem tenantCommandsComplete : Obligations.TenantCommandsComplete := by
  unfold Obligations.TenantCommandsComplete
  refine ⟨fun q s h => ?commands, fun t s hq hgone hwaits => congrArg done (quiesceComplete_gone hq hgone hwaits)⟩
  case commands =>
    intro s1 t x ok ends
    refine ⟨fun hb => ⟨fun b hfree hlen hgood => congrArg done (tenantCreate_ready h hb hfree hlen hgood), fun hused => ?used⟩,
      fun hb => congrArg done (configSave_ready h hb)⟩
    case used =>
      refine ⟨fun b hlen hgood => ⟨fun hq => ?replaces, fun hneeds hnot => ?refused⟩, fun hq hquiet hmig => ⟨?reset, ?remove⟩,
        fun hnot => ⟨?resetRefused, ?removeRefused⟩, ?cred⟩
      case replaces => exact congrArg done (tenantModify_replaces h hb hused hlen hgood hq)
      case refused => exact congrArg done (tenantModify_refused h hb hused hlen hgood hneeds hnot)
      case reset => exact congrArg done (stopGate_quiesced h hb hused hq hquiet hmig)
      case remove => exact congrArg done (stopGate_quiesced h hb hused hq hquiet hmig)
      case resetRefused => exact congrArg done (stopGate_refused h hb hused hnot)
      case removeRefused => exact congrArg done (stopGate_refused h hb hused hnot)
      case cred =>
        intro data e sec m b hlen he hopen ht hok hput y
        exact congrArg done (tenantCred_ready h hb hused hlen rfl rfl he hopen ht hok hput)

end Sys2Proof.Machine
end

section
/-! PROOFS. Namespaces and die sets as MF's commands make and release them, and the ends of a reset and of a removal
(05_tenant_functions.md R216–R219, R226, R228; 06_zones_and_placement.md R266–R271; 07_translation_and_wear.md R308, R309). -/

namespace Sys2Proof.Machine

/-- A namespace of which no command is in the part may go. -/
theorem nsDeletable_idle {q : Capsule} {s : State} {t k : Nat} (hk : nsSlot s t (bitsOf q.dw11 4 0) = some k) (hcmds : nsCmds s k = [])
    (hformat : ∀ w ∈ s.adminWaits, w.2.2 ≠ .format k) : nsDeletable q t s = true := by
  have hnone : s.adminWaits.any (fun w => w.2.2 = .format k) = false := by simpa using hformat
  simp only [nsDeletable, hk, hcmds, hnone, List.isEmpty_nil, Bool.not_false, Bool.and_self]

section Commands

variable {q : Capsule} {i : Instr} {s : State} (h : Ready s q fnMF)

include h

/-! ### Namespaces (R216–R219) -/

/-- NS_CREATE puts the namespace that its block describes under the lowest free key slot, with the journal's count as its erase cut
(log 14). -/
theorem nsCreate_ready {b : Block} {k : Nat} (hb : OnlyBits q [0x1FF, 0, 0, 0, 0, 0])
    (hused : (tenant (served s fnMF) (cmdTenant q)).state ≠ .free) (hlen : 256 ≤ q.len)
    (hgood : nsBlockBad (served s fnMF) (cmdTenant q) b = none) (hk : freeNsSlot (served s fnMF) = some k) :
    let s1 := served s fnMF
    let n : Ns :=
      { tenant := cmdTenant q, nsid := blkField b 0 4, zoned := blkField b 4 1 = 1, zsize := blkField b 5 1, parity := blkField b 6 1
        cls := blkField b 7 1, dieSet := blkField b 8 2, capacity := blkField b 0x10 8, eraseCut := jCount s1 }
    inTurn q i false (nsCreate q b) s = postSt { s1 with nss := mset s1.nss k n } q.conn q.cid stOk := by
  intro s1 n
  -- Unfolded by name: left to unification, the search of `freeNsSlot` through the 1,024 slots would be evaluated.
  unfold nsCreate
  refine onTenant_yes h hb hused (fun _ => rfl) ?_
  rw [if_neg (Nat.not_lt.mpr hlen), hgood, hk]

theorem nsDelete_ready {k : Nat} (hb : OnlyBits q [0x1FF, 0x1F, 0, 0, 0, 0])
    (hused : (tenant (served s fnMF) (cmdTenant q)).state ≠ .free)
    (hk : nsSlot (served s fnMF) (cmdTenant q) (bitsOf q.dw11 4 0) = some k) (hcmds : nsCmds (served s fnMF) k = [])
    (hformat : ∀ w ∈ (served s fnMF).adminWaits, w.2.2 ≠ .format k) (hmig : (migOf (served s fnMF) (cmdTenant q)).logs = false) :
    inTurn q i false (nsDelete q) s = pump (postSt (releaseNs (destroySlot (served s fnMF) k) k) q.conn q.cid stOk) :=
  onTenant_yes h hb hused (fun _ => by rw [nsDeletable_idle hk hcmds hformat, Bool.not_true, Bool.and_false])
    (by simp only [hmig, Bool.false_eq_true, if_false, hk])

/-! ### Die sets (R266–R271, R309) -/

theorem diesetCreate_ready {b : Block} (hb : OnlyBits q [0x7F, 0, 0, 0, 0, 0])
    (hnew : dsAt (served s fnMF) (bitsOf q.dw10 6 0) = none) (hlen : 256 ≤ q.len) : let s1 := served s fnMF; let count := blkField b 4 1
    let ms := chooseMembers ((presentDies s1).filter (dieFree s1)) (maskLanes (blkField b 8 8)) count count
    dsBlockBad s1 b ms = none →
    let bb := minOf (ms.map (fun m => (goodBlocks s1 m).length - 16 - getF s1 .mape 0 F.MAPE_SPARE_CTRL_SPARE_RES))
    let pool := ms.map (fun m => (goodBlocks s1 m).length - 16 - bb)
    let x : DieSet :=
      { mode := blkField b 0 1, parity := blkField b 1 1, owner := blkField b 2 2, opPct := blkField b 5 1
        streams := blkField b 6 1, flags := blkField b 7 1, laneMask := blkField b 8 8
        streamMap := (List.range 192).map (fun i => (mgetD b (0x20 + i) 0).toNat), members := ms, bandBlocks := bb
        initSpare := pool, spare := pool }
    let s2 := ms.foldl takeSystem s1
    inTurn q i false (diesetCreate q b) s =
      postSt { s2 with diesets := mset s1.diesets (bitsOf q.dw10 6 0) { x with freeWas := freeBands s2 x } } q.conn q.cid stOk := by
  intro s1 count ms hgood bb pool x s2
  refine manage_yes h hb (fun n => by simp [hnew]) ((if_neg (Nat.not_lt.mpr hlen)).trans ?_)
  simp only [show dsBlockBad (served s fnMF) b ms = none from hgood, ms, count, s1]
  rfl

theorem diesetDelete_ready {x : DieSet} (hx : dsAt (served s fnMF) (bitsOf q.dw10 6 0) = some x)
    (hb : OnlyBits q [0x7F, 0, 0, 0, 0, 0]) (hns : ∀ n ∈ (served s fnMF).nss, n.2.dieSet ≠ bitsOf q.dw10 6 0) :
    let s1 := served s fnMF; let d := bitsOf q.dw10 6 0
    let s2 := ((s1.bands.filter (fun b => b.2.dieSet = d)).map Prod.fst).foldl (fun s h => releaseBand s h)
      (discardUnits s1 (fun u => u.dieSet = d))
    inTurn q i false (diesetDelete q) s =
      postSt (rehome { (x.members.foldl freeMember s2) with diesets := mdel s2.diesets d } x.members) q.conn q.cid stOk := by
  refine manage_yes h hb (fun n => ?_) (by simp only [hx, Option.elim_some])
  have hempty : (served s fnMF).nss.any (fun n => n.2.dieSet = bitsOf q.dw10 6 0) = false := by simpa using hns
  simp only [hx, hempty, Option.isNone_some, Bool.or_self, Bool.and_false]

theorem diesetInfo_ready {x : DieSet} (hx : dsAt (served s fnMF) (bitsOf q.dw10 6 0) = some x)
    (hb : OnlyBits q [0xFF, 0, 0, 0, 0, 0]) (hone : bitsOf q.dw10 7 7 = 0) (hlen : 4096 ≤ q.len) :
    inTurn q i false (diesetInfo q) s =
      postOk (served s fnMF) q.conn q.cid 0 (diesetReport (served s fnMF) (bitsOf q.dw10 6 0) x) := by
  have hset : diesetInfo q = _ := funext fun s => if_neg (by omega)
  rw [hset]
  exact manage_yes h hb (fun n => by simp [hx]) (by simp only [hx, if_neg (Nat.not_lt.mpr hlen)])

theorem diesetPopulation_ready (hb : OnlyBits q [0xFF, 0, 0, 0, 0, 0]) (hlen : 4096 ≤ q.len) :
    let s1 := served s fnMF; let pres := presentDies s1
    inTurn q i false (diesetPopulation q) s = postOk s1 q.conn q.cid 0
      (dieBitmap (fun d => pres.contains d && !dieOut s1 d) ++ dieBitmap (((s1.diesets.map (fun x => x.2.members)).flatten).contains ·) ++
        dieBitmap (fun d => pres.contains d && dieOut s1 d) ++ List.replicate 3328 0) :=
  manage_yes h hb (fun _ => rfl) (if_neg (Nat.not_lt.mpr hlen))

end Commands

/-! ### Ends of a reset and of a removal (R226, R228) -/

section Ends

variable {s : State} {t : Nat}

theorem tenantResetDone_resetting (hr : (tenant s t).state = .resetting) :
    let s2 := modTenant (bump (setCtrl s t { critWarn := (ctrl s t).critWarn }) .tf t F.TF_RESETS_TENANT) t
      (fun x => { x with state := .quiesced, cmd := none, resets := x.resets + 1 })
    let s3 := (tenant s t).cmd.elim s2 (fun w => postSt s2 w.1 w.2 stOk)
    tenantResetDone t s = if (tenant s t).endHeld then quiesceOver s3 t else s3 := by
  rw [tenantResetDone, if_pos hr]
  cases (tenant s t).cmd <;> rfl

theorem tenantRemoveDone_removing (hr : (tenant s t).state = .removing) (hstep : (tenant s t).removeStep = 2) :
    tenantRemoveDone t s = pump ((tenant s t).cmd.elim (removeRest s t) (fun w => postSt (removeRest s t) w.1 w.2 stOk)) := by
  rw [tenantRemoveDone, if_pos (by simp [hr, hstep])]
  cases (tenant s t).cmd <;> rfl

end Ends

/-- Settles O37: each command passes its admission and its own checks, and an end finds the tenant resetting or removing. -/
theorem namespaceAndDieSetCommandsComplete : Obligations.NamespaceAndDieSetCommandsComplete := by
  unfold Obligations.NamespaceAndDieSetCommandsComplete
  refine ⟨fun q s h => ⟨fun hused => ⟨fun b k hb hlen hgood hk => ?nsCreate, fun k hb hk hcmds hformat hmig => ?nsDelete⟩,
    ⟨fun b hb hnew hlen => ?create, fun x hx => ⟨fun hb hns => ?delete, fun hb hone hlen => ?info⟩⟩, fun hb hlen => ?population⟩,
    fun t s => ⟨fun hr => ?resetDone, fun hr hstep => ?removeDone⟩⟩
  case nsCreate => exact congrArg done (nsCreate_ready h hb hused hlen hgood hk)
  case nsDelete => exact congrArg done (nsDelete_ready h hb hused hk hcmds hformat hmig)
  case create =>
    intro count ms hgood
    exact congrArg done (diesetCreate_ready h hb hnew hlen hgood)
  case delete => exact congrArg done (diesetDelete_ready h hx hb hns)
  case info => exact congrArg done (diesetInfo_ready h hx hb hone hlen)
  case population => exact congrArg done (diesetPopulation_ready h hb hlen)
  case resetDone => exact congrArg done (tenantResetDone_resetting hr)
  case removeDone => exact congrArg done (tenantRemoveDone_removing hr hstep)

end Sys2Proof.Machine
end

section
/-! PROOFS. Zone Management Sends and writes: the zones answer a command at its dispatch as they did when it was checked, so that
nothing refuses there what is alone in the part, and what their dispatch comes to (06_zones_and_placement.md R243–R250, R254–R258;
07_translation_and_wear.md R293, R294; 08_map_durability.md R338). -/

namespace Sys2Proof.Machine

/-! ### What admission leaves of the zones and their limits -/

/-- Zones in states of a kind that a tenant holds in a set of namespaces (R251). -/
def zonesUsed (m : FMap Ns) (kind : ZState → Bool) (t : Nat) : Nat :=
  ((m.filter (fun q => q.2.tenant = t)).map (fun q => (q.2.zones.filter (fun z => kind z.2.state)).length)).sum

theorem zonesUsed_mmod {g : Ns → Ns} (ht : ∀ n, (g n).tenant = n.tenant) (hz : ∀ n, (g n).zones = n.zones) (m : FMap Ns) (k : Nat)
    (kind : ZState → Bool) (t : Nat) : zonesUsed (mmod m k g) kind t = zonesUsed m kind t := by
  have hone : ∀ p : Nat × Ns, (if p.1 = k then (p.1, g p.2) else p).2.tenant = p.2.tenant ∧
      (if p.1 = k then (p.1, g p.2) else p).2.zones = p.2.zones := by
    intro p
    split
    · exact ⟨ht p.2, hz p.2⟩
    · exact ⟨rfl, rfl⟩
  simp only [zonesUsed, mmod, List.filter_map, List.map_map, Function.comp_def, (hone _).1, (hone _).2]

theorem modNs_zonesUsed {s : State} {k : Nat} {g : Ns → Ns} {kind : ZState → Bool} {t : Nat} (ht : ∀ n, (g n).tenant = n.tenant)
    (hz : ∀ n, (g n).zones = n.zones) : zonesUsed (modNs s k g).nss kind t = zonesUsed s.nss kind t := zonesUsed_mmod ht hz ..

theorem takeNumbers_zonesUsed (s : State) (x : Option Ns) (c : Cmd) (kind : ZState → Bool) (t : Nat) :
    zonesUsed (takeNumbers s x c).nss kind t = zonesUsed s.nss kind t := by
  unfold takeNumbers
  dsimp only
  split
  · split
    · exact modNs_zonesUsed (by intro; rfl) (by intro; rfl)
    · rfl
  · rfl

/-- The numbers a command takes of a namespace are its write sequences and nonce counter values (R344, R482). -/
theorem takeNumbers_numbers {s : State} {x : Option Ns} {c : Cmd} {k : Nat} {n : Ns} (h : nsAt s k = some n) :
    ∃ w o, nsAt (takeNumbers s x c) k = some { n with wseq := w, nonce := o } := by
  unfold takeNumbers
  dsimp only
  split
  · split
    · rw [nsAt_modNs, h, Option.map_some]
      split
      · exact ⟨_, _, rfl⟩
      · exact ⟨n.wseq, n.nonce, rfl⟩
    · exact ⟨n.wseq, n.nonce, h⟩
  · exact ⟨n.wseq, n.nonce, h⟩

/-- A charge changes the buckets alone. -/
theorem charge_frame (s : State) (t b : Nat) (r w : Bool) : ∃ x y u v,
    charge s t b r w = { s with byteBkts := x, cmdBkts := y, readBkt := u, writeBkt := v } := by
  unfold charge
  dsimp only
  (repeat' split) <;> exact ⟨_, _, _, _, rfl⟩

theorem countHint_diesets (s : State) (n : Option Ns) (c : Cmd) : (countHint s n c).diesets = s.diesets := by
  rw [countHint]
  split <;> rfl

theorem takeNumbers_diesets (s : State) (n : Option Ns) (c : Cmd) : (takeNumbers s n c).diesets = s.diesets := by
  unfold takeNumbers
  dsimp only
  (repeat' split) <;> rfl

theorem askData_diesets (s : State) (c : Cmd) : (askData s c).diesets = s.diesets := by
  rw [askData]
  split
  · obtain ⟨c', w, o, h⟩ := sendMsg_frame s c.conn 24 (fun h => .conn c.conn "r2t" [c.cid, c.icd, cmdMoves c - c.icd] h)
    rw [h]
  · rfl

section Admission

variable {s : State} {c : Cmd} {a : Arb}

theorem charged_frame : ∃ x y u v, charged s c a =
    { entered s c with arb := a, byteBkts := x, cmdBkts := y, readBkt := u, writeBkt := v } := charge_frame ..

theorem admitted_zonesUsed (kind : ZState → Bool) (t : Nat) :
    zonesUsed (admitted s c a).nss kind t = zonesUsed (entered s c).nss kind t := by
  rw [admitted_eq]
  simp only [admitCmd, askData_nss, takeNumbers_zonesUsed, countHint_nss, bump_nss]
  exact congrArg (zonesUsed · kind t) charged_nss

theorem openUsed_admitted (t : Nat) : openUsed (admitted s c a) t = openUsed (entered s c) t := admitted_zonesUsed ZState.isOpen t

theorem activeUsed_admitted (t : Nat) : activeUsed (admitted s c a) t = activeUsed (entered s c) t :=
  admitted_zonesUsed ZState.isActive t

theorem dsAt_admitted (d : Nat) : dsAt (admitted s c a) d = dsAt (entered s c) d := by
  obtain ⟨x, y, u, v, h⟩ := charged_frame (s := s) (c := c) (a := a)
  rw [admitted_eq, h]
  simp only [dsAt, admitCmd, askData_diesets, takeNumbers_diesets, countHint_diesets, bump_diesets]
  rfl

theorem openLimit_admitted (p : TParams) (t : Nat) (z : ZState) :
    openLimit (admitted s c a) p t z = openLimit (entered s c) p t z := by
  rw [openLimit, openLimit, openUsed_admitted, activeUsed_admitted]

theorem zoneWriteState_admitted (p : TParams) (n : Ns) (z : Nat) :
    zoneWriteState (admitted s c a) p n z = zoneWriteState (entered s c) p n z := by
  unfold zoneWriteState
  simp only [openLimit_admitted]

theorem zoneAction_admitted (p : TParams) (n : Ns) (act z : Nat) :
    zoneAction (admitted s c a) p n act z = zoneAction (entered s c) p n act z := by
  unfold zoneAction
  simp only [openLimit_admitted, dsAt_admitted]

theorem admitted_numbers {k : Nat} {n : Ns} (h : nsAt s k = some n) :
    ∃ w o, nsAt (admitted s c a) k = some { n with wseq := w, nonce := o } := by
  have hcount : nsAt (countHint (bump (cmdSeen (charged s c a)) .cfe 0 F.CFE_ADMITTED) (c.nsk.bind (nsAt (charged s c a))) c) k =
      some n := by
    rw [nsAt, countHint_nss]
    exact (congrArg (mget · k) charged_nss).trans h
  obtain ⟨w, o, hnum⟩ := takeNumbers_numbers (x := c.nsk.bind (nsAt (charged s c a))) (c := c) hcount
  exact ⟨w, o, (congrArg (mget · k) (askData_nss ..)).trans hnum⟩

/-- The parameters that bind a command from its admission on are those it was checked under (R44, R213). -/
theorem asAdmitted_par (hp : c.phase = .waiting) : (asAdmitted s c a).par = parOf (entered s c) c := by
  obtain ⟨x, y, u, v, h⟩ := charged_frame (s := s) (c := c) (a := a)
  rw [asAdmitted_eq, parOf, if_pos hp, h]
  rfl

end Admission

/-! ### Zone Management Sends (R243, R244, R246, R248, R250) -/

/-- The end of a Zone Management Send's dispatch: it waits for the records that it staged, or has its result. -/
def zoneSendEnds (r u : State) (k : Nat) : State :=
  if jCount u = jCount r then finishCmd u k stOk 0 0 else modCmd u k (fun c => { c with phase := .dispatched, recNo := jCount u, dw0 := 0 })

/-- A ZONE record is staged, and what follows it once it is in the ring (R338). -/
def stagedAct (r : State) (rec : JRec) (act : JAct) : State :=
  let u := jStage r [rec]
  { u with jr := { u.jr with acts := u.jr.acts ++ [(jCount u, act)] } }

section OneZone

variable {s : State} {slot z : Nat} {n : Ns} (hn : nsAt s slot = some n)

include hn

theorem zoneDo_open : zoneDo s slot 3 z = setZone s slot z { zoneOf n z with state := .explicit } := by
  simp only [zoneDo, hn]

theorem zoneDo_close : zoneDo s slot 1 z = if (zoneOf n z).state.isOpen then
    forceUnits (setZone s slot z { zoneOf n z with state := if (zoneOf n z).wp = 0 then .empty else .closed }) (partialOf s slot n z)
    else s := by
  simp only [zoneDo, hn]

theorem zoneDo_finish : zoneDo s slot 2 z = if (zoneOf n z).state = .full then s else
    stagedAct s (.zone slot z (zoneOf n z).epoch 2) (.zoneFinish slot z) := by
  simp only [zoneDo, hn]
  rfl

theorem zoneDo_reset : zoneDo s slot 4 z = if (zoneOf n z).state = .empty then s
    else if (zoneOf n z).epoch + 1 = 0xFFFFFFFF then stagedAct s (.zone slot z ((zoneOf n z).epoch + 1) 4) (.zoneReadOnly slot z)
    else stagedAct s (.zone slot z ((zoneOf n z).epoch + 1) 1) (.zoneReset slot z) := by
  simp only [zoneDo, hn]
  split
  · rfl
  · by_cases hlast : (zoneOf n z).epoch + 1 = 0xFFFFFFFF <;> simp only [hlast, if_true, if_false] <;> rfl

theorem zoneDo_offline : zoneDo s slot 5 z = if (zoneOf n z).state = .offline then s else
    stagedAct s (.zone slot z (zoneOf n z).epoch 3) (.zoneOffline slot z) := by
  simp only [zoneDo, hn]
  rfl

end OneZone

theorem dispatchZone_one {s : State} {k slot act : Nat} {n : Ns} {c : Cmd} (h : zoneAction s c.par n act (cmdZone n c) = none) :
    dispatchZone s k slot n c act false = zoneSendEnds s (zoneDo s slot act (cmdZone n c)) k := by
  simp only [dispatchZone, Bool.false_eq_true, if_false, h]
  rfl

theorem dispatch_zmSend {s : State} {k slot act : Nat} {all : Bool} {c : Cmd} {n : Ns} (ho : c.op = .zmSend act all)
    (hk : c.nsk = some slot) (hn : nsAt s slot = some n) : dispatch s k c = dispatchZone s k slot n c act all := by
  simp only [dispatch, ho, hk, Option.bind_some, hn]

theorem zoneRefuses_zmSend {s : State} {act : Nat} {n : Ns} {c : Cmd} (hz : n.zoned = true) (ho : c.op = .zmSend act false) :
    zoneRefuses s n c = zoneAction s (parOf s c) n act (cmdZone n c) := by
  simp only [zoneRefuses, hz, ho, Bool.not_true, Bool.false_eq_true, if_false]

/-- Open leaves no record, so the command has its result. -/
theorem zoneSendEnds_setZone {s : State} {slot z k : Nat} {x : Zone} :
    zoneSendEnds s (setZone s slot z x) k = finishCmd (setZone s slot z x) k stOk 0 0 := if_pos rfl

section Send

variable {q : Capsule} {f slot act : Nat} {n : Ns} {s : State} (h : IoReady s q f slot n)

include h

theorem zoneSend_passes {all : Bool} (hall : decide (bitsOf q.dw13 8 8 = 1) = all)
    (hp : Passes s (ioCmd s q f slot n (.zmSend act all) q.slba 0 false [] [])) :
    let c := ioCmd s q f slot n (.zmSend act all) q.slba 0 false [] []
    ∃ a, nsAt (admitted s c a) slot = some n ∧ capsuleIn q (zoneSend act q) s =
      afterDispatch (dispatchZone (admitted s c a) (cmdKey s) slot n (asAdmitted s c a) act all) := by
  intro c
  have ⟨_, _, hn⟩ := h
  obtain ⟨a, ha⟩ := submitIo_alone h (by nofun) hp
  have hat : nsAt (admitted s c a) slot = some n := (congrArg (mget · slot) (admitted_nss rfl)).trans hn
  refine ⟨a, hat, ?_⟩
  have hrun : zoneSend act q = submitIo q (.zmSend act all) q.slba 0 false [] [] := by
    funext t
    rw [zoneSend, hall]
  rw [hrun, ha, dispatch_zmSend asAdmitted_op asAdmitted_nsk hat]

/-- The action of one zone finds the zone as its check did, and takes place as `act'` says. -/
theorem zoneSend_one {act' : State → State} (hz : n.zoned = true) (hone : bitsOf q.dw13 8 8 = 0)
    (hp : Passes s (ioCmd s q f slot n (.zmSend act false) q.slba 0 false [] []))
    (hact : ∀ r, nsAt r slot = some n → zoneDo r slot act (q.slba / zoneSize n) = act' r) :
    let c := ioCmd s q f slot n (.zmSend act false) q.slba 0 false [] []
    ∃ a, let r := admitted s c a
      done (capsuleIn q (zoneSend act q) s) = done (afterDispatch (zoneSendEnds r (act' r) (cmdKey s))) := by
  intro c
  have ⟨_, _, hn⟩ := h
  obtain ⟨a, hat, ha⟩ := zoneSend_passes h (by simp [hone]) hp
  have hzone : cmdZone n (asAdmitted s c a) = q.slba / zoneSize n := congrArg (· / zoneSize n) asAdmitted_slba
  have hopen : zoneAction (entered s c) (parOf (entered s c) c) n act (q.slba / zoneSize n) = none :=
    (zoneRefuses_zmSend hz rfl).symm.trans (passes_zone hp rfl rfl hn)
  refine ⟨a, congrArg done (ha.trans (congrArg afterDispatch ?_))⟩
  rw [dispatchZone_one, hzone, hact _ hat]
  rw [hzone, zoneAction_admitted, asAdmitted_par rfl]
  exact hopen

end Send

/-- Settles O30: the zone answers at the dispatch as it did when the command was checked, so that its action takes place. -/
theorem zoneActionsComplete : Obligations.ZoneActionsComplete := by
  unfold Obligations.ZoneActionsComplete
  intro q f slot n s h hz k at' z x cmd ends staged
  refine ⟨fun hone => ⟨fun hp => ?opens, fun hp => ?close, fun hp => ?finish, fun hp => ?reset, fun hp => ?offline⟩,
    fun hall => ?all⟩
  case opens =>
    obtain ⟨a, ha⟩ := zoneSend_one h hz hone hp fun _ => zoneDo_open
    exact ⟨a, ha.trans (congrArg (done ∘ afterDispatch) zoneSendEnds_setZone)⟩
  case close =>
    obtain ⟨a, ha⟩ := zoneSend_one h hz hone hp fun _ => zoneDo_close
    exact ⟨a, ha⟩
  case finish =>
    obtain ⟨a, ha⟩ := zoneSend_one h hz hone hp fun _ => zoneDo_finish
    exact ⟨a, ha⟩
  case reset =>
    obtain ⟨a, ha⟩ := zoneSend_one h hz hone hp fun _ => zoneDo_reset
    exact ⟨a, ha⟩
  case offline =>
    obtain ⟨a, ha⟩ := zoneSend_one h hz hone hp fun _ => zoneDo_offline
    exact ⟨a, ha⟩
  case all =>
    have hselect : decide (bitsOf q.dw13 8 8 = 1) = true := decide_eq_true hall
    have hsend : ∀ act, Passes s (cmd act true) → ∃ a, done (capsuleIn q (zoneSend act q) s) = .next (settle (afterDispatch
        (dispatchZone (admitted s (cmd act true) a) k slot n (asAdmitted s (cmd act true) a) act true))) := by
      intro act hp
      obtain ⟨a, -, ha⟩ := zoneSend_passes h hselect hp
      exact ⟨a, congrArg done ha⟩
    exact ⟨hsend 3, hsend 1, hsend 2, hsend 4, hsend 5⟩

end Sys2Proof.Machine
end

section
/-! PROOFS. Writes, Write Zeroes and Zone Appends: their dispatch finds the zone as their check did, and programs, deallocates or ends
with a status (06_zones_and_placement.md R245, R254–R258; 07_translation_and_wear.md R293, R294). -/

namespace Sys2Proof.Machine

/-! ### Writes to a zone (R245, R254–R258) -/

/-- Where in its zone a write starts: a Zone Append at the write pointer (R256). -/
def writeOffset (n : Ns) (c : Cmd) : Nat := if c.op = .append then (zoneOf n (cmdZone n c)).wp else c.slba % zoneSize n

/-- A zone whose write pointer a write has moved: full at its end, else open as it was or implicitly (R245). -/
def writtenZone (n : Ns) (x : Zone) (wp : Nat) : Zone :=
  { x with wp := wp, state := if wp = zoneSize n then .full else if x.state.isOpen then x.state else .implicit }

section ZoneWrite

variable {s : State} {k slot : Nat} {c : Cmd} {n : Ns} (h : zoneWriteState s c.par n (cmdZone n c) = none)

include h

theorem dispatchZoneWrite_boundary (hlong : zoneSize n < writeOffset n c + c.nlb) :
    dispatchZoneWrite s k c slot n = finishCmd s k stZoneBoundary 0 0 := by
  simp only [dispatchZoneWrite, h]
  exact if_pos hlong

theorem dispatchZoneWrite_elsewhere (hfit : writeOffset n c + c.nlb ≤ zoneSize n)
    (hwp : writeOffset n c ≠ (zoneOf n (cmdZone n c)).wp) :
    dispatchZoneWrite s k c slot n = finishCmd (bump s .zne 0 F.ZNE_ZIW) k stZoneInvalidWrite 0 0 := by
  simp only [dispatchZoneWrite, h]
  exact (if_neg (Nat.not_lt.mpr hfit)).trans (if_pos hwp)

theorem dispatchZoneWrite_fits {m : Ns} (hfit : writeOffset n c + c.nlb ≤ zoneSize n)
    (hwp : writeOffset n c = (zoneOf n (cmdZone n c)).wp)
    (hm : nsAt (setZone s slot (cmdZone n c) (writtenZone n (zoneOf n (cmdZone n c)) (writeOffset n c + c.nlb))) slot = some m) :
    let first := cmdZone n c * zoneSize n + writeOffset n c
    dispatchZoneWrite s k c slot n = dispatchProgram
      (setZone s slot (cmdZone n c) (writtenZone n (zoneOf n (cmdZone n c)) (writeOffset n c + c.nlb))) k c slot m first
      (if c.op = .append then first % 2 ^ 32 else 0) (if c.op = .append then first / 2 ^ 32 else 0) := by
  intro first
  simp only [dispatchZoneWrite, h]
  refine (if_neg (Nat.not_lt.mpr hfit)).trans ((if_neg (not_not.mpr hwp)).trans ?_)
  rw [hwp, writtenZone] at hm
  rw [hm, writtenZone, hwp]
  rfl

end ZoneWrite

/-- The write sequences and nonces of a namespace have no part in it. -/
theorem dispatchZoneWrite_numbers {s : State} {k slot : Nat} {c : Cmd} {n : Ns} {w o : Counter} :
    dispatchZoneWrite s k c slot { n with wseq := w, nonce := o } = dispatchZoneWrite s k c slot n := rfl

/-! ### Dispatch of writes (R293, R294) -/

theorem programs_iff {zoned : Bool} {op : IoOp} : programs zoned op = true ↔
    op = .write ∨ op = .append ∨ ∃ deac, op = .writeZeroes deac ∧ (zoned = true ∨ deac = false) := by
  cases op <;> simp [programs]

section Dispatch

variable {s : State} {k slot : Nat} {c : Cmd} {n : Ns}

theorem zoneRefuses_programs (hz : n.zoned = true) (ho : programs n.zoned c.op = true) :
    zoneRefuses s n c = zoneWriteState s (parOf s c) n (cmdZone n c) := by
  rcases programs_iff.mp ho with ho | ho | ⟨deac, ho, -⟩ <;>
    simp only [zoneRefuses, hz, ho, Bool.not_true, Bool.false_eq_true, if_false]

variable (hk : c.nsk = some slot) (hn : nsAt s slot = some n)

include hk hn

theorem dispatch_zoneWrite (hz : n.zoned = true) (ho : programs n.zoned c.op = true) :
    dispatch s k c = dispatchZoneWrite s k c slot n := by
  rcases programs_iff.mp ho with ho | ho | ⟨deac, ho, -⟩ <;>
    simp only [dispatch, ho, hk, Option.bind_some, hn, hz, if_true]

theorem dispatch_program (hz : n.zoned = false) (ho : programs n.zoned c.op = true) (happend : c.op ≠ .append) :
    dispatch s k c = dispatchProgram s k c slot n c.slba 0 0 := by
  rcases programs_iff.mp ho with ho | ho | ⟨deac, ho, hdeac⟩
  · simp only [dispatch, ho, hk, Option.bind_some, hn, hz, Bool.false_eq_true, if_false]
  · exact absurd ho happend
  · have hnot : deac = false := hdeac.resolve_left (by simp [hz])
    simp only [dispatch, ho, hk, Option.bind_some, hn, hz, hnot, Bool.false_eq_true, if_false]

theorem dispatch_deallocates (hz : n.zoned = false) (ho : c.op = .writeZeroes true) :
    dispatch s k c = dispatchDealloc s k c slot [(c.slba, c.nlb)] := by
  simp only [dispatch, ho, hk, Option.bind_some, hn, hz, Bool.false_eq_true, if_false, if_true]

end Dispatch

/-! ### The commands -/

/-- What a command that answers `o` takes of a write `c` that is alone in the part: in a zone it ends with a status or moves the write
pointer and is programmed from offset `off` on; in a conventional namespace it is programmed where it starts. -/
def WriteTakes (o : Res) (s : State) (c : Cmd) (slot : Nat) (n : Ns) (off dw0 dw1 : Nat) : Prop :=
  ∃ a, let r := admitted s c a; let z := cmdZone n c; let x := zoneOf n z
    (n.zoned = true →
      (zoneSize n < off + c.nlb → o = done (afterDispatch (finishCmd r (cmdKey s) stZoneBoundary 0 0))) ∧
      (off + c.nlb ≤ zoneSize n → off ≠ x.wp →
        o = done (afterDispatch (finishCmd (bump r .zne 0 F.ZNE_ZIW) (cmdKey s) stZoneInvalidWrite 0 0))) ∧
      (off + c.nlb ≤ zoneSize n → off = x.wp → let u := setZone r slot z (writtenZone n x (off + c.nlb))
        ∃ n', nsAt u slot = some n' ∧ o = done (afterDispatch
          (dispatchProgram u (cmdKey s) (asAdmitted s c a) slot n' (z * zoneSize n + off) dw0 dw1)))) ∧
    (n.zoned = false → ∃ n', nsAt r slot = some n' ∧ o = done (afterDispatch
      (dispatchProgram r (cmdKey s) (asAdmitted s c a) slot n' c.slba 0 0)))

theorem nsAt_setZone {s : State} {slot z : Nat} {x : Zone} {n : Ns} (h : nsAt s slot = some n) :
    nsAt (setZone s slot z x) slot = some { n with zones := mput n.zones z {} x } :=
  (nsAt_modNs ..).trans (by rw [h, Option.map_some, if_pos rfl])

section Taken

variable {s : State} {c : Cmd} {a : Arb} {slot : Nat} {n : Ns} (hp : Passes s c) (hwait : c.phase = .waiting) (hk : c.nsk = some slot)
  (hn : nsAt s slot = some n) (ho : programs n.zoned c.op = true)

include hp hwait hk hn ho

/-- A write that passed the checks finds its zone open to it at its dispatch. -/
theorem zoneWriteState_asAdmitted (hz : n.zoned = true) :
    zoneWriteState (admitted s c a) (asAdmitted s c a).par n (cmdZone n c) = none := by
  rw [zoneWriteState_admitted, asAdmitted_par hwait, ← zoneRefuses_programs hz ho]
  exact passes_zone hp hwait hk hn

theorem writeTakes_of_dispatch {o : Res} {off dw0 dw1 : Nat} (happend : n.zoned = false → c.op ≠ .append)
    (ha : o = done (afterDispatch (dispatch (admitted s c a) (cmdKey s) (asAdmitted s c a)))) (hoff : off = writeOffset n c)
    (hdw0 : dw0 = if c.op = .append then (cmdZone n c * zoneSize n + off) % 2 ^ 32 else 0)
    (hdw1 : dw1 = if c.op = .append then (cmdZone n c * zoneSize n + off) / 2 ^ 32 else 0) :
    WriteTakes o s c slot n off dw0 dw1 := by
  obtain ⟨w, v, hat⟩ := admitted_numbers (c := c) (a := a) hn
  have hop : (asAdmitted s c a).op = c.op := asAdmitted_op
  have hslot : (asAdmitted s c a).nsk = some slot := asAdmitted_nsk.trans hk
  have hnlb : (asAdmitted s c a).nlb = c.nlb := asAdmitted_nlb
  have hslba : (asAdmitted s c a).slba = c.slba := asAdmitted_slba
  refine ⟨a, fun hz => ?zone, fun hz => ⟨_, hat, ha.trans (congrArg (done ∘ afterDispatch) ?conventional)⟩⟩
  case conventional => rw [dispatch_program hslot hat hz (by rw [hop]; exact ho) (by rw [hop]; exact happend hz), hslba]
  case zone =>
    have hzone : cmdZone n (asAdmitted s c a) = cmdZone n c := congrArg (· / zoneSize n) hslba
    have hstart : writeOffset n (asAdmitted s c a) = off := by rw [hoff, writeOffset, writeOffset, hop, hslba, hzone]
    have hopen : zoneWriteState (admitted s c a) (asAdmitted s c a).par n (cmdZone n (asAdmitted s c a)) = none := by
      rw [hzone]
      exact zoneWriteState_asAdmitted hp hwait hk hn ho hz
    rw [dispatch_zoneWrite hslot hat hz (by rw [hop]; exact ho), dispatchZoneWrite_numbers] at ha
    refine ⟨fun hlong => ?_, fun hfit hne => ?_, fun hfit hwp => ⟨_, nsAt_setZone hat, ?_⟩⟩
    · rw [ha, dispatchZoneWrite_boundary hopen (by rwa [hstart, hnlb])]
    · rw [ha, dispatchZoneWrite_elsewhere hopen (by rwa [hstart, hnlb]) (by rwa [hstart, hzone])]
    · rw [ha, dispatchZoneWrite_fits hopen (by rwa [hstart, hnlb]) (by rwa [hstart, hzone]) (nsAt_setZone hat), hstart, hnlb, hzone,
        hop, hdw0, hdw1]

end Taken

section Write

variable {q : Capsule} {f slot : Nat} {n : Ns} {s : State} (h : IoReady s q f slot n)

include h

theorem submitIo_writes {op : IoOp} {fua : Bool} {data : List Nat} {off dw0 dw1 : Nat} (ho : programs n.zoned op = true)
    (happend : n.zoned = false → op ≠ .append) (hp : Passes s (ioCmd s q f slot n op q.slba q.nlb fua data []))
    (hoff : off = writeOffset n (ioCmd s q f slot n op q.slba q.nlb fua data []))
    (hdw0 : dw0 = if op = .append then (q.slba / zoneSize n * zoneSize n + off) % 2 ^ 32 else 0)
    (hdw1 : dw1 = if op = .append then (q.slba / zoneSize n * zoneSize n + off) / 2 ^ 32 else 0) :
    WriteTakes (done (capsuleIn q (submitIo q op q.slba q.nlb fua data []) s)) s (ioCmd s q f slot n op q.slba q.nlb fua data [])
      slot n off dw0 dw1 := by
  have ⟨_, _, hn⟩ := h
  obtain ⟨a, ha⟩ := submitIo_alone h (by rintro rfl; cases ho) hp
  exact writeTakes_of_dispatch hp rfl rfl hn ho happend (congrArg done ha) hoff hdw0 hdw1

/-- Write Zeroes with DEAC in a conventional namespace deallocates under the write sequence it takes (R294). -/
theorem submitIo_deallocates {fua : Bool} (hz : n.zoned = false)
    (hp : Passes s (ioCmd s q f slot n (.writeZeroes true) q.slba q.nlb fua [] [])) :
    let c := ioCmd s q f slot n (.writeZeroes true) q.slba q.nlb fua [] []
    ∃ a, let d := deallocAll (admitted s c a) slot n.wseq.next [(q.slba, q.nlb)]
      capsuleIn q (submitIo q (.writeZeroes true) q.slba q.nlb fua [] []) s = afterDispatch
        (modCmd d (cmdKey s) (fun c => { c with phase := .dispatched, recNo := jCount d, dw0 := 0 })) := by
  intro c
  have ⟨_, _, hn⟩ := h
  obtain ⟨a, ha⟩ := submitIo_alone h (by decide) hp
  obtain ⟨w, o, hat⟩ := admitted_numbers (c := c) (a := a) hn
  refine ⟨a, ha.trans (congrArg afterDispatch ?_)⟩
  rw [dispatch_deallocates asAdmitted_nsk hat hz asAdmitted_op, dispatchDealloc, asAdmitted_wseq rfl hn, asAdmitted_slba,
    asAdmitted_nlb]
  rfl

end Write

/-- Settles O32: a write finds the zone as its check did, and its dispatch is what the statement names. -/
theorem writesComplete : Obligations.WritesComplete := by
  unfold Obligations.WritesComplete
  intro q f slot n s0 data corr s h at' nlb fua k z x zone fails takes
  refine ⟨fun hp => ?write, fun hprog hp => ?zeroes, fun hz hdeac => ?deallocate, fun hz => ?append⟩
  case write =>
    exact submitIo_writes h rfl nofun hp (if_neg nofun).symm (if_neg nofun).symm (if_neg nofun).symm
  case zeroes =>
    have hops : n.zoned = true ∨ decide (bitsOf q.dw12 25 25 = 1) = false := hprog.imp_right (fun hclear => by rw [hclear]; rfl)
    exact submitIo_writes h (programs_iff.mpr (.inr (.inr ⟨_, rfl, hops⟩))) nofun hp (if_neg nofun).symm (if_neg nofun).symm
      (if_neg nofun).symm
  case deallocate =>
    intro c hp
    have hrun : writeZeroes q = submitIo q (.writeZeroes true) q.slba q.nlb q.fua [] [] := by
      funext t
      rw [writeZeroes, decide_eq_true hdeac]
    obtain ⟨a, ha⟩ := submitIo_deallocates h hz hp
    exact ⟨a, congrArg done ((congrArg (capsuleIn q · s) hrun).trans ha)⟩
  case append =>
    intro alba hp
    exact submitIo_writes h rfl (by simp [hz]) hp (if_pos rfl).symm (if_pos rfl).symm (if_pos rfl).symm

end Sys2Proof.Machine
end

section
/-! PROOFS. Relocation and patrol: with no copy begun a die set takes its next victim, with copies begun each victim takes a step, and a
patrol whose period has passed reads the closed bands (07_translation_and_wear.md R314, R317–R322; 08_map_durability.md R350). -/

namespace Sys2Proof.Machine

/-! ### Relocation (R314, R317, R318) -/

/-- The victims of a die set whose copy has begun. -/
abbrev begunVictims (s : State) (d : Nat) : List (Nat × Band) := s.bands.filter (fun q => q.2.dieSet = d && q.2.victim.isSome)

/-- The step of the victim in band `q.1` as the steps before it in the same row left that band: none where the band is released or no
longer a victim. -/
def victimStep (s : State) (q : Nat × Band) : State :=
  match bandAt s q.1 with
  | some b => (match b.victim with
    | some v => relocStep s q.1 b v
    | none => s)
  | none => s

section Relocation

variable {d h : Nat} {ds : DieSet} {b : Band} {s : State} (hds : dsAt (judgeReloc s d) d = some ds)

include hds

theorem relocation_begins (hnone : begunVictims (judgeReloc s d) d = []) (hnext : nextVictim (judgeReloc s d) d ds = some (h, b)) :
    relocation d s = pump (beginCopy (judgeReloc s d) ds h b) := by
  simp only [relocation, hds, hnone, hnext, List.isEmpty_nil, if_true]

theorem relocation_idle (hnone : begunVictims (judgeReloc s d) d = []) (hnext : nextVictim (judgeReloc s d) d ds = none) :
    relocation d s = judgeReloc s d := by
  simp only [relocation, hds, hnone, hnext, List.isEmpty_nil, if_true]

theorem relocation_advances (hsome : begunVictims (judgeReloc s d) d ≠ []) :
    relocation d s = pump ((begunVictims (judgeReloc s d) d).foldl victimStep (judgeReloc s d)) := by
  simp only [relocation, hds, List.isEmpty_iff, hsome, if_false]
  rfl

end Relocation

/-! ### Patrol (R321) -/

/-- The patrol read of the member in position `pos` of band `q.1`: none of a die out of service or of a codeword that is still staged. -/
def patrolMember (q : Nat × Band) (s : State) (pos : Nat) : State :=
  if dieOut s (q.2.die pos) || (stagedAtPua s (q.2.puaOf 0 pos 0)).isSome then s
  else startClimb s (q.2.puaOf 0 pos 0) 0 0 0 (.patrol q.1)

theorem patrolTimer_due {s : State} (hon : getF s .mape 0 F.MAPE_RETAIN_PATROL_H ≠ 0)
    (hdue : s.patrolAt + getF s .mape 0 F.MAPE_RETAIN_PATROL_H * 3600000000000 ≤ s.now) :
    let s1 := ageBands { s with patrolAt := s.now }
    patrolTimer s = (s1.bands.filter (fun q => q.2.closed)).foldl (fun s q => (List.range q.2.size).foldl (patrolMember q) s) s1 := by
  simp only [patrolTimer, hon, hdue.not_gt, decide_false, Bool.or_self, Bool.false_eq_true, if_false]
  rfl

/-- Settles O50: whether copies have begun and whether there is a victim decide what relocation does; a patrol that is due goes over the
bands that are closed. -/
theorem relocationsComplete : Obligations.RelocationsComplete := by
  unfold Obligations.RelocationsComplete
  refine ⟨?relocation, ?patrol⟩
  case relocation =>
    intro d ds s s1 hds begun
    exact ⟨fun h b hnone hnext => congrArg done (relocation_begins hds hnone hnext),
      fun hnone hnext => congrArg done (relocation_idle hds hnone hnext),
      fun hsome => congrArg done (relocation_advances hds hsome)⟩
  case patrol =>
    intro s h s1 hon hdue
    exact congrArg done (patrolTimer_due hon hdue)

end Sys2Proof.Machine
end

section
/-! PROOFS. The journal: flushes that begin and end, checkpoints, and marks that are durable (08_map_durability.md R338–R345, R352). -/

namespace Sys2Proof.Machine

/-! ### Flushes (R338, R339) -/

/-- A flush of what is staged begins when none is under way. -/
theorem jFlush_staged {s : State} (hidle : s.jr.flushing = []) (hstaged : s.jr.staged ≠ []) : jFlush s =
    bump { s with jr := { s.jr with flushing := s.jr.staged, staged := [], oldest := none } } .mrj 0 F.MRJ_FLUSHES_COUNT :=
  if_pos ⟨hidle, hstaged⟩

theorem flushTimer_due {s : State} {t : Nat} (hold : s.jr.oldest = some t) (hdue : t + 64000 ≤ s.now) : flushTimer s = jFlush s := by
  simp only [flushTimer, hold, if_pos hdue]

/-- The records of the flush under way are in the ring. -/
def inRing (s : State) : State :=
  { s with jr := { s.jr with
    ring := msetList s.jr.ring s.jr.head s.jr.flushing, head := s.jr.head + s.jr.flushing.length, flushing := [] } }

theorem flushDone_flushing {s : State} (h : s.jr.flushing ≠ []) :
    flushDone s = pump (runActs (jFull (inRing s)) (jFull (inRing s)).jr.acts) :=
  if_neg (by simpa using h)

/-! ### Checkpoints (R340, R342–R345) -/

theorem segmentCheckpoint_turn {s : State} {k g : Nat} (h : segTurn s k g = true) : segmentCheckpoint (some (k, g)) s =
    let t := settleBands (ckptSeg s k g); pump (releaseWaits (tailAdvance t (t.jr.ring.length + 1))) := by
  simp only [segmentCheckpoint, if_pos h]

/-! ### Marks (R352) -/

theorem durable_wanted {c : Counter} {m : Nat} (h : c.wanted = some m) :
    c.durable = { c with mark := m, wanted := none, waits := false } := by
  simp only [Counter.durable, h]

/-- Only the value at its key decides what a change of a map comes to. -/
theorem mmod_congr {α : Type} {m : FMap α} {k : Nat} {f g : α → α} (h : ∀ q ∈ m, q.1 = k → f q.2 = g q.2) : mmod m k f = mmod m k g :=
  List.map_congr_left fun q hq => ite_congr rfl (fun hk => by rw [h q hq hk]) (fun _ => rfl)

theorem modNs_congr {s : State} {k : Nat} {f g : Ns → Ns} (h : ∀ q ∈ s.nss, q.1 = k → f q.2 = g q.2) : modNs s k f = modNs s k g := by
  rw [modNs, modNs, mmod_congr h]

theorem modTenant_congr {s : State} {t : Nat} {f g : Tenant → Tenant} (h : f (tenant s t) = g (tenant s t)) :
    modTenant s t f = modTenant s t g := by
  rw [modTenant, modTenant, h]

theorem tenant_of_mget {s : State} {f : Nat} {t : Tenant} (h : mget s.tenants f = some t) : tenant s f = t := by
  rw [tenant, mgetD, h, Option.getD_some]

/-- What waited for a mark goes on. -/
def markGoes (s : State) : State := pump (runActs s s.jr.acts)

section Marks

variable {s : State} {k m : Nat}

theorem markDurable_band (h : s.bandCtr.wanted = some m) : markDurable .band s =
    markGoes { s with bandCtr := { s.bandCtr with mark := m, wanted := none, waits := false } } := by
  rw [← durable_wanted h]
  rfl

theorem markDurable_sealing (h : s.sealCtr.wanted = some m) : markDurable .sealing s =
    markGoes { s with sealCtr := { s.sealCtr with mark := m, wanted := none, waits := false } } := by
  rw [← durable_wanted h]
  rfl

theorem markDurable_wseq (h : ∀ q ∈ s.nss, q.1 = k → q.2.wseq.wanted = some m) : markDurable (.wseq k) s =
    markGoes (modNs s k (fun n => { n with wseq := { n.wseq with mark := m, wanted := none, waits := false } })) :=
  congrArg markGoes (modNs_congr fun q hq hk => by rw [durable_wanted (h q hq hk)])

theorem markDurable_nonce (h : ∀ q ∈ s.nss, q.1 = k → q.2.nonce.wanted = some m) : markDurable (.nonce k) s =
    markGoes (modNs s k (fun n => { n with nonce := { n.nonce with mark := m, wanted := none, waits := false } })) :=
  congrArg markGoes (modNs_congr fun q hq hk => by rw [durable_wanted (h q hq hk)])

theorem markDurable_deferSeq (h : (tenant s k).deferSeq.wanted = some m) : markDurable (.deferSeq k) s =
    markGoes (modTenant s k (fun t => { t with deferSeq := { t.deferSeq with mark := m, wanted := none, waits := false } })) :=
  congrArg markGoes (modTenant_congr (by rw [durable_wanted h]))

end Marks

/-- Settles O49: a flush under way decides what the timer and its end do, a segment's turn its checkpoint, and the mark that a counter
wants the one that it gets. -/
theorem journalCompletes : Obligations.JournalCompletes := by
  unfold Obligations.JournalCompletes
  intro s
  refine ⟨fun t hold hdue hidle hstaged => ?timer, fun hflush => ?done, ?checkpoint, ?mark⟩
  case timer => exact congrArg done ((flushTimer_due hold hdue).trans (jFlush_staged hidle hstaged))
  case done => exact congrArg done (flushDone_flushing hflush)
  case checkpoint => exact ⟨fun k g hturn => congrArg done (segmentCheckpoint_turn hturn), rfl⟩
  case mark =>
    exact ⟨fun m h => congrArg done (markDurable_band h), fun m h => congrArg done (markDurable_sealing h),
      fun k m h => congrArg done (markDurable_wseq h), fun k m h => congrArg done (markDurable_nonce h),
      fun f m t ht h => congrArg done (markDurable_deferSeq (by rw [tenant_of_mget ht, h]))⟩

end Sys2Proof.Machine
end

section
/-! PROOFS. The sense inputs and GUARD: samples of VIN_SENSE and HOLD_SENSE, the power-loss warning, and the end of GUARD
(08_map_durability.md R355; 16_power_modes.md R610–R612; 17_thermal.md R631). -/

namespace Sys2Proof.Machine

/-! ### VIN_SENSE (R610) -/

/-- A sample of VIN_SENSE is kept, recorded and reported when it is low. -/
def vinKept (mv : Nat) (s : State) : State :=
  let t := modSense (recSupply (setF s .pwr 0 F.PWR_SENSE_VIN_MV mv) 17 mv) (senseVin s mv)
  if mv < vinWarn s then raise t .pwr 0 F.PWR_INT_RAW_VIN_WARN else t

/-- PF_WARN is raised: a mode entry is abandoned and the power-loss sequence begins. -/
def pfWarns (s : State) : State :=
  let u := modSense s (fun x => { x with raised := true })
  lossStart .pfWarn none (if u.pwr.entry.isSome then entryAbort u else u)

section Vin

variable {s : State} {mv : Nat} (hm : s.mode ≠ .reset)

include hm

theorem vinSample_passes (h : let x := (vinKept mv (guardJudge s)).pwr.sense; x.vinLow < 5 ∨ x.armed = false ∨ x.raised = true) :
    vinSample mv s = guardJudge (vinKept mv (guardJudge s)) := by
  have hquiet : ¬ (let x := (vinKept mv (guardJudge s)).pwr.sense; (5 ≤ x.vinLow && x.armed && !x.raised) = true) := by
    rcases h with hlow | harmed | hraised
    · simp [hlow.not_ge]
    · simp [harmed]
    · simp [hraised]
  rw [vinSample, if_neg hm]
  exact if_neg hquiet

theorem vinSample_warns (hlow : 5 ≤ (vinKept mv (guardJudge s)).pwr.sense.vinLow)
    (harmed : (vinKept mv (guardJudge s)).pwr.sense.armed = true) (hraised : (vinKept mv (guardJudge s)).pwr.sense.raised = false) :
    vinSample mv s = pfWarns (vinKept mv (guardJudge s)) := by
  rw [vinSample, if_neg hm]
  have hwarns : (let x := (vinKept mv (guardJudge s)).pwr.sense; 5 ≤ x.vinLow && x.armed && !x.raised) = true := by
    simp [hlow, harmed, hraised]
  exact if_pos hwarns

end Vin

/-! ### HOLD_SENSE (R611) -/

/-- A sample of HOLD_SENSE is kept and recorded. -/
def holdKept (mv : Nat) (s : State) : State := recSupply (setF s .pwr 0 F.PWR_SENSE_HOLD_MV mv) 18 mv

/-- A sample of HOLD_SENSE counts when it is below the reset level, and else begins the count anew. -/
def countHold (mv : Nat) (s : State) (x : Sense) : Sense := { x with holdRst := if mv < holdReset s then x.holdRst + 1 else 0 }

theorem countHold_low {mv : Nat} {s : State} (h : mv < holdReset s) : countHold mv s = fun x => { x with holdRst := x.holdRst + 1 } := by
  funext x
  rw [countHold, if_pos h]

theorem countHold_ok {mv : Nat} {s : State} (h : holdReset s ≤ mv) : countHold mv s = fun x => { x with holdRst := 0 } := by
  funext x
  rw [countHold, if_neg h.not_gt]

section Hold

variable {s t : State} {mv : Nat} (hm : s.mode ≠ .reset) (ht : modSense (holdKept mv s) (countHold mv s) = t)

include hm ht

theorem holdSample_resets (h : 2 ≤ t.pwr.sense.holdRst) : holdSample mv s = partReset 3 0x20 0 0 t := by
  subst ht
  rw [holdSample, if_neg hm]
  exact if_pos h

variable (hcount : t.pwr.sense.holdRst < 2)

include hcount

/-- HOLD_LOW follows the sample, and its edges have effects of their own. -/
theorem holdSample_judges : holdSample mv s =
    let t := { t with holdLow := decide (mv < holdReady s) }
    if decide (mv < holdReady s) && !s.holdLow then
      let u := raise t .pwr 0 F.PWR_INT_RAW_HOLD_LOW
      forceUnits u (unackedUnits u)
    else if !decide (mv < holdReady s) && s.holdLow then pump t else t := by
  subst ht
  rw [holdSample, if_neg hm]
  exact if_neg hcount.not_ge

theorem holdSample_same (h : s.holdLow = decide (mv < holdReady s)) :
    holdSample mv s = { t with holdLow := decide (mv < holdReady s) } := by
  rw [holdSample_judges hm ht hcount, ← h]
  simp

theorem holdSample_falls (hhigh : s.holdLow = false) (hlow : mv < holdReady s) : holdSample mv s =
    let u := raise { t with holdLow := decide (mv < holdReady s) } .pwr 0 F.PWR_INT_RAW_HOLD_LOW
    forceUnits u (unackedUnits u) := by
  rw [holdSample_judges hm ht hcount]
  exact if_pos (by simp [hhigh, hlow])

theorem holdSample_rises (hlow : s.holdLow = true) (hready : holdReady s ≤ mv) :
    holdSample mv s = pump { t with holdLow := decide (mv < holdReady s) } := by
  rw [holdSample_judges hm ht hcount]
  simp [hlow, hready.not_gt]

end Hold

/-! ### GUARD (R612, R631) -/

theorem guardJudge_noCause {s : State} (h : guardCause s = false) : guardJudge s = s :=
  if_neg (by rw [h]; decide)

theorem guardExit_due {s : State} (hm : s.mode = .guard) (hcause : guardCause s = false)
    (hdue : s.pwr.guardAt + max 1 (getF s .pwr 0 F.PWR_GUARD_CTRL_EXIT_S) * 1000000000 ≤ s.now) :
    guardExit s = pump (raise (setF (setMode s .run) .qeng 0 F.QENG_THROTTLE_ACTIVE 0) .pwr 0 F.PWR_INT_RAW_GUARD_EXIT) := by
  rw [guardExit, guardJudge_noCause hcause]
  exact if_pos (by simp [hm, hcause, hdue])

/-- Settles O51: the counts of low samples decide between a warning, a reset and neither, and HOLD_LOW's old and new value what a
sample brings about besides. -/
theorem supplySensesComplete : Obligations.SupplySensesComplete := by
  unfold Obligations.SupplySensesComplete
  refine ⟨?vin, ?hold, fun s hm hcause hdue => congrArg done (guardExit_due hm hcause hdue)⟩
  case vin =>
    intro v s hm mv s1 t t2 x
    exact ⟨fun h => congrArg done (vinSample_passes hm h),
      fun hlow harmed hraised => congrArg done (vinSample_warns hm hlow harmed hraised)⟩
  case hold =>
    intro v s hm mv s1
    have hcounted (hlow : mv < holdReset s) := congrArg (modSense s1) (countHold_low hlow)
    have hcleared (hok : holdReset s ≤ mv) := congrArg (modSense s1) (countHold_ok hok)
    refine ⟨fun hreset hfirst hready hlow => ?first, fun hreset hsecond => ?second, ?ok⟩
    case first =>
      have hsame := holdSample_same hm (hcounted hreset) (Nat.lt_succ_of_le (Nat.succ_le_succ hfirst.le))
        (hlow.trans (decide_eq_true hready).symm)
      rw [decide_eq_true hready] at hsame
      exact congrArg done hsame
    case second => exact congrArg done (holdSample_resets hm (hcounted hreset) (Nat.succ_le_succ hsecond))
    case ok =>
      intro hok t
      exact ⟨fun h => congrArg done (holdSample_same hm (hcleared hok) Nat.zero_lt_two h),
        fun hlow hready => congrArg done (holdSample_rises hm (hcleared hok) Nat.zero_lt_two hlow hready),
        fun hhigh hlow => congrArg done (holdSample_falls hm (hcleared hok) Nat.zero_lt_two hhigh hlow)⟩

end Sys2Proof.Machine
end

section
/-! PROOFS. The end of the power-loss sequence and the rails: their sequence, the polls of the regulators and the monitors' samples
(08_map_durability.md R355, R356; 16_power_modes.md R605–R609, R613). -/

namespace Sys2Proof.Machine

/-! ### The power-loss sequence (R355, R356) -/

theorem plProgramsDone_ended {p : PlRun} {s : State} (hp : s.plRun = some p) (hstep : p.step = 3) (hrun : p.ended = false)
    (hnone : programsLeft s = false) :
    let s1 := finalMarks (flushAll s (s.jr.staged.length + s.jr.flushing.length + 2))
    let p1 := { p with step := 5, step4End := some s.now }
    plProgramsDone s = lossEnd { s1 with
      plStat := ⟨true, true, 5, min 0xFFFF (ceilDiv (s.now - p.began) 1000000), 1⟩, plRun := some p1 } p1 := by
  have hends : (decide (p.step = 3) && !p.ended && !programsLeft s) = true := by simp [hstep, hrun, hnone]
  simp only [plProgramsDone, hp, if_pos hends]

theorem restartAt_pfWarn {p : PlRun} {t o : Nat} {s : State} (hc : p.cause = .pfWarn) (ht : p.step4End = some t)
    (ho : s.pwr.sense.okSince = some o) : restartAt s p = some (max t (o + 1000000) + 10000000) := by
  simp only [restartAt, hc, ht, ho]

theorem plRestart_due {p : PlRun} {t : Nat} {s : State} (hp : s.plRun = some p) (ht : restartAt s p = some t) (hdue : t ≤ s.now) :
    plRestart s = partReset 3 0x22 0 0 s := by
  simp only [plRestart, hp, ht, if_pos hdue]

/-! ### The sequence of rails (R605, R606) -/

section Sequence

variable {i : Nat} {l : List Nat} {s : State} (h : s.pwr.seq = i :: l)

include h

theorem railGood_next : railGood i s = { railOn s i with pwr := { (railOn s i).pwr with seq := l, seqAt := s.now } } := by
  simp only [railGood, h, if_true]

theorem railTimeout_due (hdue : s.pwr.seqAt + 2000000 ≤ s.now) : railTimeout s = partReset 3 0x21 0 0 (blockError
    (railsOff s (railOrder.filter (fun i => (railAt s (railMon i)).on))) .pwr 0 3 0 i 0) := by
  simp only [railTimeout, h, if_pos hdue]

end Sequence

/-! ### Regulators (R607) -/

/-- The polls in a row that a regulator has failed to answer. -/
def setNacks (s : State) (key n : Nat) : State := { s with pwr := { s.pwr with nacks := mput s.pwr.nacks key 0 n } }

/-- A regulator's fault is counted and reported with its STATUS_WORD, and the regulator is told to clear it. -/
def pmbTold (s : State) (key w : Nat) : State :=
  emit (raise (blockError (bump s .pwr 0 F.PWR_PMB_FAULTS_COUNT) .pwr 0 2 w key 0) .pwr 0 F.PWR_INT_RAW_PMB_FAULT)
    (.board "CLEAR_FAULTS" key)

section Polls

variable {addr page : Nat} {s : State} (hpoll : pmbPolled s addr page = true)

include hpoll

theorem pmbPoll_fine {w : Nat} (hw : w &&& 0xF73F = 0) : pmbPoll addr page (some w) s = setNacks s (addr * 256 + page) 0 := by
  simp [pmbPoll, hpoll, pmbFault, hw, setNacks]

theorem pmbPoll_fault {w : Nat} (hw : w &&& 0xF73F ≠ 0) :
    pmbPoll addr page (some w) s = pmbTold (setNacks s (addr * 256 + page) 0) (addr * 256 + page) w := by
  simp [pmbPoll, hpoll, pmbFault, hw, setNacks, pmbTold]

theorem pmbPoll_nack (hn : mgetD s.pwr.nacks (addr * 256 + page) 0 = 0) :
    pmbPoll addr page none s = setNacks s (addr * 256 + page) 1 := by
  simp [pmbPoll, hpoll, hn, setNacks]

theorem pmbPoll_nackAgain (hn : mgetD s.pwr.nacks (addr * 256 + page) 0 = 1) :
    pmbPoll addr page none s = pmbTold (setNacks s (addr * 256 + page) 0) (addr * 256 + page) 0xFFFF := by
  simp [pmbPoll, hpoll, hn, setNacks, pmbTold]

end Polls

/-! ### Monitors (R608, R609) -/

theorem since_any_iff {o : Option Nat} {n now : Nat} : o.any (fun t => decide (t + n ≤ now)) = true ↔ ∃ t, o = some t ∧ t + n ≤ now := by
  simp [Option.any_eq_true]

theorem since_any_false_iff {o : Option Nat} {n now : Nat} :
    o.any (fun t => decide (t + n ≤ now)) = false ↔ ∀ t, o = some t → now < t + n := by
  simp [Option.any_eq_false]

/-- A sample of a rail is recorded once its monitor is armed, and kept. -/
def railKept (i mv : Nat) (s : State) : State :=
  setRail (if railArmed s (railAt s i) then recSupply s i mv else s) i (railNext s i mv (railAt s i))

/-- A sample of a rail that is watched and on: how long it has been below its levels decides what it brings about. -/
theorem railSample_watched {i mv : Nat} {s0 : State} (hw : railWatched (guardJudge s0) i = true)
    (hon : (railAt (guardJudge s0) i).on = true) : railSample i mv s0 =
    let s := guardJudge s0
    let r := railNext s i mv (railAt s i)
    if r.resetSince.any (fun t => decide (t + 1000 ≤ s.now)) then
      (if i = 0 then partReset 1 0 0 0 (railKept i mv s) else partReset 3 i 0 0 (railKept i mv s))
    else if r.warnSince.any (fun t => decide (t + 10000 ≤ s.now)) && !r.warned then
      let s2 := raise (blockError (setRail (railKept i mv s) i { r with warned := true }) .pwr 0 1 mv i 0) .pwr 0 F.PWR_INT_RAW_RAIL_WARN
      resumeAfter s2 (guardJudge (wakeEvent 6 s2))
    else guardJudge (railKept i mv s) :=
  if_neg (by simp [hw, hon])

/-- Settles O52: with the programs ended the sequence goes to its fifth step; the head of the sequence of rails, a regulator's answer
and a monitor's times decide the rest. -/
theorem railsComplete : Obligations.RailsComplete := by
  unfold Obligations.RailsComplete
  refine ⟨fun p s hp hstep hrun hnone => congrArg done (plProgramsDone_ended hp hstep hrun hnone),
    fun p t o s hp hc ht ho hdue => congrArg done (plRestart_due hp (restartAt_pfWarn hc ht ho) hdue),
    fun i l s hseq => ⟨congrArg done (railGood_next hseq), fun hdue => congrArg done (railTimeout_due hseq hdue)⟩, ?poll, ?sample⟩
  case poll =>
    intro addr page s hpoll key told
    exact ⟨fun w hw => congrArg done (pmbPoll_fine hpoll hw), fun w hw => congrArg done (pmbPoll_fault hpoll hw),
      fun hn => congrArg done (pmbPoll_nack hpoll hn), fun hn => congrArg done (pmbPoll_nackAgain hpoll hn)⟩
  case sample =>
    intro i mv s0 s r hw hon r1 s1
    have hsample := railSample_watched (mv := mv) hw hon
    refine ⟨fun hreset => ?reset, fun hkept => ⟨fun hwarn hnew => ?warn, fun hquiet => ?quiet⟩⟩
    case reset => exact congrArg done (hsample.trans (if_pos (since_any_iff.mpr hreset)))
    case warn =>
      have hwarns : (r1.warnSince.any (fun t => decide (t + 10000 ≤ s.now)) && !r1.warned) = true := by
        rw [since_any_iff.mpr hwarn, hnew]
        rfl
      exact congrArg done (hsample.trans ((if_neg (Bool.eq_false_iff.mp (since_any_false_iff.mpr hkept))).trans (if_pos hwarns)))
    case quiet =>
      have hquiets : (r1.warnSince.any (fun t => decide (t + 10000 ≤ s.now)) && !r1.warned) = false := by
        rcases hquiet with hnot | hold
        · rw [since_any_false_iff.mpr hnot, Bool.false_and]
        · rw [hold, Bool.not_true, Bool.and_false]
      exact congrArg done (hsample.trans ((if_neg (Bool.eq_false_iff.mp (since_any_false_iff.mpr hkept))).trans
        (if_neg (Bool.eq_false_iff.mp hquiets))))

end Sys2Proof.Machine
end

section
/-! PROOFS. Resets, orderly stops, the end of recovery and start-up (12_sorrel_keys_cipher.md R460; 08_map_durability.md R358, R362;
19_faults_and_resets.md R678, R682; 20_boot_and_firmware.md R688–R696). -/

namespace Sys2Proof.Machine

/-! ### Causes of a reset (R460, R678, R682) -/

theorem healthFail_outsideReset {s : State} (hm : s.mode ≠ .reset) : healthFail s = partReset 5 0x2000 0 0 s := if_neg hm

/-- Outside HOLD an orderly stop runs the power-loss sequence under its budget. -/
theorem orderlyStop_awake {kind detail : Nat} {s : State} (hm : s.mode ≠ .hold) :
    orderlyStop kind detail s = lossStart (.orderly kind detail) (some (kind, detail, s.now)) s := if_neg hm

theorem watchdogExpiry_armed {core : Nat} {s : State} (hm : s.mode = .run ∨ s.mode = .guard ∨ s.mode = .service) :
    watchdogExpiry core s = lossStart (.orderly 6 (core % 16)) (some (6, core % 16, s.now)) s := by
  have harmed : (decide (s.mode = .run) || decide (s.mode = .guard) || decide (s.mode = .service)) = true := by
    rcases hm with hm | hm | hm <;> rw [hm] <;> rfl
  have hawake : s.mode ≠ .hold := by
    rcases hm with hm | hm | hm <;> rw [hm] <;> decide
  rw [watchdogExpiry, if_pos harmed, orderlyStop_awake hawake]

theorem stopBudgetExpiry_due {p : PlRun} {kind detail t : Nat} {s : State} (hp : s.plRun = some p)
    (hb : p.budget = some (kind, detail, t)) (hstep : p.step < 5) (hdue : t + stopBudget s ≤ s.now) :
    stopBudgetExpiry s = partReset kind (if kind = 6 then detail + 16 else detail) 0 0 s := by
  have hends : (decide (p.step < 5) && decide (t + stopBudget s ≤ s.now)) = true := by simp [hstep, hdue]
  simp only [stopBudgetExpiry, hp, hb, if_pos hends]

/-! ### Namespaces (R358, R362) -/

theorem namespaceReady_recovering {k : Nat} {n : Ns} {s : State} (hn : nsAt s k = some n) (hrec : n.recovered = false)
    (hm : s.mode = .run ∨ s.mode = .guard) :
    namespaceReady k s = recoveryEnd (modNs s k (fun n => { n with recovered := true })) := by
  have hends : ¬ (n.recovered || !(decide (s.mode = .run) || decide (s.mode = .guard))) = true := by simpa [hrec, or_iff_not_imp_left] using hm
  simp only [namespaceReady, hn, if_neg hends]

/-! ### Start-up (R688–R696) -/

/-- Steps 1 to 3 of a start-up: the cause is logged, the self-tests run and the keys are unsealed. -/
def startKeys (e : StartEnv) (s : State) : State := unsealKeys e (e.badCores.eraseDups.foldl coreFails (selfTests e (logReset s)))

/-- Step 4: the tenants come back and an image is looked for. -/
def startImage (e : StartEnv) (s : State) : State × Option (List Nat) :=
  bootImage e.nor (((startKeys e s).tenants.map Prod.fst).foldl tenantBack (newChallenge (startKeys e s)))

/-- The sealed configuration takes effect under the running image. -/
def startConfig (e : StartEnv) (s : State) : State := loadConfig (takeProfile e (startImage e s).1)

/-- What a start-up does once the cause of SERVICE, if there is one, is known. -/
def startRest (e : StartEnv) (cause : Nat) (img : List Nat) (s : State) : State :=
  let ready := gpioFirst (bringUp e cause img
    (railsOn { s with pwr := { s.pwr with seq := [] }, gpioExt := e.gpio % 65536 } (startRails cause)))
  if cause = 0 then enterRun e ready else enterService cause ready

section StartUp

variable {e : StartEnv} {s : State} (hm : s.mode = .reset)

include hm

/-- With an image found, a word of it that is uncorrectable resets the part; else the start-up goes on. -/
theorem startUp_image {img : List Nat} (himg : (startImage e s).2 = some img) : startUp e s =
    e.codeUe.elim (startRest e (svcCause e true (startConfig e s)) img (startConfig e s)) (codeReset · (startConfig e s)) := by
  unfold startImage startKeys at himg
  rw [startUp, if_neg (not_not.mpr hm)]
  simp only [himg, Option.isSome_some, if_true]
  cases e.codeUe <;> rfl

/-- With no image found the cause of SERVICE is 7. -/
theorem startUp_noImage (himg : (startImage e s).2 = none) : startUp e s = startRest e 7 [] (startImage e s).1 := by
  unfold startImage startKeys at himg
  rw [startUp, if_neg (not_not.mpr hm)]
  simp only [himg, Option.isSome_none, Bool.false_eq_true, if_false]
  rfl

end StartUp

/-- Settles O59: each reset is a part reset of its kind; whether an image was found, whether its words read well and which cause there
is decide where a start-up ends. -/
theorem resetsAndStartUpComplete : Obligations.ResetsAndStartUpComplete := by
  unfold Obligations.ResetsAndStartUpComplete
  refine ⟨fun s => ⟨rfl, rfl, fun hm => congrArg done (healthFail_outsideReset hm), fun core hm => congrArg done (watchdogExpiry_armed hm),
    fun p kind detail t hp hb hstep hdue => congrArg done (stopBudgetExpiry_due hp hb hstep hdue),
    fun k n hn hrec hm => congrArg done (namespaceReady_recovering hn hrec hm)⟩, ?startUp⟩
  intro e s hm s1 b
  refine ⟨?image, fun himg => congrArg done (startUp_noImage hm himg)⟩
  intro img himg s2 cause
  have himage := startUp_image hm himg
  refine ⟨fun off hue => congrArg done (himage.trans (by rw [hue]; rfl)), fun hue => ?runs⟩
  have hruns : startUp e s = startRest e cause img s2 := himage.trans (by rw [hue]; rfl)
  exact ⟨fun hrun => congrArg done (hruns.trans (if_pos hrun)), fun hservice => congrArg done (hruns.trans (if_neg hservice))⟩

end Sys2Proof.Machine
end

section
/-! PROOFS. Cirrus and the suspensions, the sequencers of the lanes, and diagnostic reads (09_flash_lanes_thyme.md R381, R384–R386,
R390–R392, R396, R402; 11_cirrus_latency.md R436–R438, R440, R442–R446, R454). -/

namespace Sys2Proof.Machine

/-! ### Entering the queue (R436, R437, R440, R442) -/

/-- The deadline with which an operation enters its queue (R437). -/
def entryDeadline (s : State) (o : FlashOp) : Nat :=
  if o.atEntry then s.now else if o.deadline = 0 then s.now + clsTarget s o.cls else o.deadline

/-- An operation as its queue takes it, before its SUSPEND flag is judged. -/
def stampedOp (s : State) (o : FlashOp) : FlashOp :=
  { o with deadline := entryDeadline s o, entered := s.now, ctl := rd s .qeng 0 F.QENG_BG_CTRL_BATCH.off }

/-- An operation as its queue takes it: a read near its deadline carries SUSPEND (R440). -/
def queuedOp (s : State) (o : FlashOp) : FlashOp :=
  { stampedOp s o with susp := (stampedOp s o).isRead && ((stampedOp s o).susp || bulkSusp s (stampedOp s o)) }

/-- A climb whose descriptor enters without a deadline takes the one it entered with. -/
def climbsTimed (s : State) (o : FlashOp) : State :=
  match o.owner with
  | .climb g => { s with climbs := s.climbs.map (fun (q : Nat × Climb) =>
      if q.2.desc = g && q.2.deadline = 0 then (q.1, { q.2 with deadline := entryDeadline s o }) else q) }
  | _ => s

/-- A flash die's queue takes an operation, which leaves what feeds the queues. -/
def enqueued (s : State) (d : Nat) (o : FlashOp) : State :=
  modDie { climbsTimed s o with feeds := dropOp (climbsTimed s o).feeds o } d (fun x => { x with queue := x.queue ++ [queuedOp s o] })

/-- The peak of the queues follows the length of a flash die's queue. -/
def peakFollows (s : State) (d : Nat) : State :=
  if getF s .qeng 0 F.QENG_QUEUE_PEAK < (dieAt s d).queue.length then setF s .qeng 0 F.QENG_QUEUE_PEAK (dieAt s d).queue.length
  else s

section Queue
variable {s : State} {d : Nat} {o : FlashOp} (hf : nextFeed s d = some o)
include hf

theorem operationQueued_stalls (hfull : 256 ≤ (dieAt s d).queue.length) (hnew : o.stalled = false) : operationQueued d s =
    bump { s with feeds := s.feeds.map (fun p => if p = o then { p with stalled := true } else p) } .qeng 0 F.QENG_QUEUE_STALLS := by
  simp only [operationQueued, hf, if_pos hfull, hnew, Bool.false_eq_true, if_false]

theorem operationQueued_enters (hroom : (dieAt s d).queue.length < 256) : operationQueued d s =
    fillPlaces (if (queuedOp s o).susp then gather (peakFollows (enqueued s d o) d) d else peakFollows (enqueued s d o) d) d := by
  simp only [operationQueued, hf, if_neg (Nat.not_le.mpr hroom)]
  rfl

end Queue

/-! ### BULK reads near their deadline and the end of a window (R440, R444–R446) -/

section Window
variable {s : State} {d : Nat}

/-- Each read that gains SUSPEND is counted in the gathering. -/
theorem bulkEscalation_near (hn : ((dieAt s d).queue.filter (fun o => bulkSusp s o && !o.susp)).length ≠ 0) : bulkEscalation d s =
    fillPlaces ((List.range ((dieAt s d).queue.filter (fun o => bulkSusp s o && !o.susp)).length).foldl (fun s _ => gather s d)
      (modDie s d (fun x => { x with queue := x.queue.map (fun o => if bulkSusp s o then { o with susp := true } else o) }))) d :=
  if_neg hn

/-- A flash die whose window ends now: what it has read is kept as λ and its counts begin anew (R445). -/
def windowReset (s : State) (x : Die) : Die :=
  { x with lastReads := x.winReads, winReads := 0, winProgs := 0, winHost := 0, winAt := s.now }

theorem bgWindowEnd_due
    (hw : (dieAt s d).winAt + max 1 (getF s .qeng 0 F.QENG_BG_CTRL_BG_WIN_MS) * 1000000 ≤ s.now) :
    let y := windowReset s (dieAt s d)
    bgWindowEnd d s = fillPlaces (modDie s d (fun _ => { y with queue := y.queue.map (fun o =>
      if o.bg && !o.isRead then { o with strikes := if bgFits s y o then 0 else o.strikes + 1 } else o) })) d :=
  if_neg (Nat.not_lt.mpr hw)

end Window

/-! ### Suspensions (R384, R386) -/

theorem suspendAccepted_sent {s : State} {d : Nat} {o : FlashOp} (hc : (dieAt s d).cur = some o) (hs : (dieAt s d).suspSent = true) :
    suspendAccepted d s = nextOp (modDie
      (bump s .lan (laneOfDie d) (if o.kind = .erase then F.LAN_SUSPENDS_ERASE else F.LAN_SUSPENDS_PROGRAM)) d (fun x => { x with
        st := if o.kind = .erase then .es else .ps, cur := none, suspSent := false, susAt := s.now, gatherAt := none,
        sus := some { o with nsusp := o.nsusp + 1, ran := o.ran + (s.now - o.since) } })) d := by
  simp only [suspendAccepted, hc, hs, if_true]

/-- Settles O44: a queue takes an operation or stalls it; each of the other events has its one effect under its guard. -/
theorem cirrusCompletes : Obligations.CirrusCompletes := by
  unfold Obligations.CirrusCompletes
  exact fun d s => ⟨fun o hf hfull hnew => congrArg done (operationQueued_stalls hf hfull hnew),
    fun o hf hroom => congrArg done (operationQueued_enters hf hroom),
    rfl, rfl, fun hn => congrArg done (bulkEscalation_near hn), fun hw => congrArg done (bgWindowEnd_due hw),
    fun o hc hs => congrArg done (suspendAccepted_sent hc hs), rfl, rfl⟩

/-! ### The sequencers of the lanes (R390–R392) -/

section Flow
variable {s : State} {l d : Nat} {x : Thyme} {e : ThymeEnv} {w : BitVec 128}

/-- FLOW 0 goes to NEXT. -/
theorem flowOf_next (h : uw w 112 110 = 0) : flowOf s l d x e w = .addr (uw w 127 113) := by
  simp only [flowOf, h]

/-- FLOW 5 ends the routine. -/
theorem flowOf_end (h : uw w 112 110 = 5) : flowOf s l d x e w = .post := by
  simp only [flowOf, h]

/-- A word that is no safe point looks at none of FAULT, PREEMPT and BUSWAIT (R393). -/
theorem thymeNext_noSafePoint (h : uw w 89 89 = 0) : thymeNext s l d x e w = flowGo s l d x w (flowOf s l d x e w) := by
  simp only [thymeNext, h, Nat.zero_ne_one, decide_false, Bool.false_and, Bool.false_eq_true, if_false]

end Flow

/-- A context's state once its word has acted: one that waits has acted before. -/
def acted (s : State) (l d : Nat) (e : ThymeEnv) : State × Thyme :=
  if (thymeOf s d).waiting then (s, thymeOf s d) else thymeActs s l (thymeOf s d) e (fetchWord s (thymeOf s d).pc)

/-- The context that has the bus acts and goes where FLOW says. -/
theorem laneExec_noSafePoint {s : State} {l d : Nat} {e : ThymeEnv} (hrun : runningCtx s l = some d)
    (hsafe : uw (fetchWord s (thymeOf s d).pc) 89 89 = 0) :
    let w := fetchWord s (thymeOf s d).pc
    let t := setThyme (acted s l d e).1 d (acted s l d e).2
    laneExec s l e = flowGo t l d (acted s l d e).2 w (flowOf t l d (acted s l d e).2 e w) := by
  simp only [laneExec, hrun, thymeExec, thymeNext_noSafePoint hsafe]
  rfl

/-- Settles O46: a word that is no safe point goes where its FLOW says, and FLOW 0 and 5 say NEXT and the end. -/
theorem sequencersComplete : Obligations.SequencersComplete := by
  unfold Obligations.SequencersComplete
  intro l d e s s3 x w hrun hsafe a t
  have hgo : thymeMicroword l e s = flowGo t l d a.2 w (flowOf t l d a.2 e w) := laneExec_noSafePoint hrun hsafe
  refine ⟨congrArg done hgo, fun hnext => congrArg done ?next, fun hend => congrArg done ?ends⟩
  case next => rw [hgo, flowOf_next hnext, flowGo]
  case ends => rw [hgo, flowOf_end hend, flowGo, thymePost]

/-! ### Diagnostic reads (R396, R402) -/

section Diag
variable {s : State} {l t : Nat} {r : DiagResult} (hx : (mgetD s.lanes l {}).diag = some t)
include hx

section Come
variable (hread : (mgetD s.lanes l {}).diagRead = true)
include hread

theorem diagReadDone_erased (hz : r.zeros ≤ getF s .sig (l / 16) F.SIG_DET_CTRL_ERASED_THR) :
    diagReadDone l r s = diagEnd s l 2 0 := by
  simp only [diagReadDone, hx, hread, if_true, if_pos hz]

/-- A codeword that is not erased ends as its hard decode did: 0 with the bits it corrected, 1 without. -/
theorem diagReadDone_decoded (hz : getF s .sig (l / 16) F.SIG_DET_CTRL_ERASED_THR < r.zeros) :
    diagReadDone l r s = r.corrected.elim (diagEnd s l 1 0) (diagEnd s l 0) := by
  simp only [diagReadDone, hx, hread, if_true, if_neg (Nat.not_le.mpr hz)]
  cases r.corrected <;> rfl

end Come

/-- An operation stays unless it is the diagnostic read of a lane. -/
def keptWithout (l : Nat) (o : FlashOp) : Bool := !(o.owner = .diag && laneOfDie o.die = l)

/-- 100 ms without the codeword end the read, which leaves what feeds the queues, and the queues. -/
theorem diagReadDone_overdue (hread : (mgetD s.lanes l {}).diagRead = false) (ht : t + 100000000 ≤ s.now) :
    diagReadDone l r s = diagEnd { s with
      feeds := s.feeds.filter (keptWithout l)
      dies := s.dies.map (fun q => (q.1, { q.2 with queue := q.2.queue.filter (keptWithout l) })) } l 7 0 := by
  simp only [diagReadDone, hx, hread, Bool.false_eq_true, if_false, if_pos ht]
  rfl

end Diag

/-- Settles O47: by whether the codeword has come, whether it is erased, and what its hard decode found. -/
theorem diagnosticReadsComplete : Obligations.DiagnosticReadsComplete := by
  unfold Obligations.DiagnosticReadsComplete
  intro l t r s x thr hx
  refine ⟨fun hread hz => congrArg done (diagReadDone_erased hx hread hz), fun hread hz n hn => congrArg done ?corrected,
    fun hread hz hn => congrArg done ?failed, fun hread ht => congrArg done (diagReadDone_overdue hx hread ht)⟩
  case corrected => rw [diagReadDone_decoded hx hread hz, hn, Option.elim_some]
  case failed => rw [diagReadDone_decoded hx hread hz, hn, Option.elim_none]

end Sys2Proof.Machine
end

section
/-! PROOFS. Attestation and key agreement (12_sorrel_keys_cipher.md R461, R462, R466–R472). -/

namespace Sys2Proof.Machine

section Protocols

variable {q : Capsule} {i : Instr} {f : Nat} {s : State} (h : Ready s q f) (hf : f ≤ 512) (hb : OnlyBits q secMasks)
  (hl : q.dw11 ≤ 2097152)

include h hf hb hl

/-! ### Security Receive (R461, R466) -/

theorem securityReceive_protocols (hp : bitsOf q.dw10 31 24 = 0) : inTurn q i false (securityReceive q) s =
    postOk (served s f) q.conn q.cid 0 [0, 0, 0, 0, 0, 0, 0, 3, 0x00, 0xE8, 0xF0] :=
  turn_yes h (secAccept_has hf) rfl hb (by simp only [if_neg (Nat.not_lt.mpr hl), if_pos hp])

theorem securityReceive_spdm {r : SecResp} (hp : bitsOf q.dw10 31 24 = 0xE8) (hr : mget (served s f).secs (f * 2) = some r) :
    inTurn q i false (securityReceive q) s =
      postOk { served s f with secs := mdel (served s f).secs (f * 2) } q.conn q.cid 0 r.body := by
  refine turn_yes h (secAccept_has hf) rfl hb ?_
  simp [Nat.not_lt.mpr hl, hp, hr]

/-- A response of key agreement that is ready is taken. -/
theorem securityReceive_keyAgreement {r : SecResp} (hp : bitsOf q.dw10 31 24 = 0xF0) (hsp : bitsOf q.dw10 23 8 = 0)
    (hr : mget (served s f).secs (f * 2 + 1) = some r) (hready : r.ready = true) (hdue : r.due ≤ (served s f).now) :
    inTurn q i false (securityReceive q) s = postOk { served s f with secs := mdel (served s f).secs (f * 2 + 1) } q.conn q.cid 0
      (kaBytes (served s f) f r) := by
  refine turn_yes h (secAccept_has hf) rfl hb ?_
  simp [Nat.not_lt.mpr hl, hp, hsp, hr, hready, hdue]

/-! ### Attestation (R461, R462; log 172) -/

/-- An SPDM request runs after its Security Send has completed. -/
theorem spdmSend_yes {run : Nat → State → State} (hp : bitsOf q.dw10 31 24 = 0xE8) (h8 : q.len ≤ 4096) :
    inTurn q i false (secSend q 0xE8 run) s = run f (postSt (served s f) q.conn q.cid stOk) :=
  secSend_yes h hf hb hl hp (fun hne => absurd hne (by decide)) fun _ => h8

end Protocols

/-- Settles O38: each request is answered after its Security Send has completed, and the checks of its own that it passes
decide the answer. -/
theorem attestationCompletes : Obligations.AttestationCompletes := by
  unfold Obligations.AttestationCompletes
  intro q f s h hf hb hl s1
  refine ⟨fun hp => congrArg done (securityReceive_protocols h hf hb hl hp),
    fun r hp hr => congrArg done (securityReceive_spdm h hf hb hl hp hr),
    fun r hp hsp hr hready hdue => congrArg done (securityReceive_keyAgreement h hf hb hl hp hsp hr hready hdue),
    fun req hp h8 => ?requests⟩
  case requests =>
    intro s2 x v op versions
    refine ⟨?version, fun hv => ?capabilities, fun hv => ?algorithms, fun hv => ?digests, fun hv hslot hoff a b hreq => ?certificate,
      fun hv hslot => ?challenge, fun hv hop => ?measurements, ?unsupported⟩
    case version => exact congrArg done (spdmSend_yes h hf hb hl hp h8)
    case capabilities =>
      have hknown : ¬ (v ≠ 0x11 ∧ v ≠ 0x12) := fun ⟨hne1, hne2⟩ => hv.elim hne1 hne2
      exact congrArg done ((spdmSend_yes h hf hb hl hp h8).trans (if_neg hknown))
    case algorithms => exact congrArg done (spdm_yes h hf hb hl hp h8 hv)
    case digests => exact congrArg done (spdm_yes h hf hb hl hp h8 hv)
    case certificate =>
      subst hreq
      have hpart : ¬ ((a ++ b).getD 2 0 % 16 ≠ 0 ∨ spdmChain.length ≤ ofLe (((a ++ b).drop 4).take 2)) :=
        not_or.mpr ⟨not_not.mpr hslot, Nat.not_le.mpr hoff⟩
      exact congrArg done ((spdm_yes h hf hb hl hp h8 hv).trans (if_neg hpart))
    case challenge => exact congrArg done ((spdm_yes h hf hb hl hp h8 hv).trans (if_neg (not_not.mpr hslot)))
    case measurements =>
      have hknown : ¬ (op ≠ 0 ∧ op ≠ 0xFF ∧ op ∉ measIdx) := fun ⟨hcount, hall, hone⟩ => hop.elim hcount (Or.elim · hall hone)
      refine ⟨fun a c hreq hplain => ?plain, fun a c hreq hsigned => ?signed⟩
      case plain =>
        subst hreq
        have hnot : ¬ (a ++ c).getD 2 0 % 2 = 1 := by omega
        exact congrArg done ((spdm_yes h hf hb hl hp h8 hv).trans ((if_neg hknown).trans (if_neg hnot)))
      case signed =>
        subst hreq
        exact congrArg done ((spdm_yes h hf hb hl hp h8 hv).trans ((if_neg hknown).trans (if_pos hsigned)))
    case unsupported => exact congrArg done (spdmSend_yes h hf hb hl hp h8)

/-! ### Key agreement (R468–R472) -/

/-- ENROLL with a point of the curve, of MF or of a tenant that is not enrolled. -/
theorem enroll_sent {q : Capsule} {i : Instr} {f ctr : Nat} {tpk : List Nat} {s : State} (h : Ready s q f) (hf : f ≤ 512)
    (hb : OnlyBits q secMasks) (hl : q.dw11 ≤ 2097152) (hp : bitsOf q.dw10 31 24 = 0xF0) (hsp : bitsOf q.dw10 23 8 = 0) :
    let s1 := postSt (served s f) q.conn q.cid stOk
    (f = fnMF ∨ enrollOf s f = none) → (ecPoint tpk).isSome = true →
    let r := freshScalar s1
    let s2 := setEnroll r.2 f ⟨tpk, r.1, 0⟩
    let g := dikSign (if f = fnMF then mkNew s2 else s2) (enrollHead f r.1 ++ tpk)
    inTurn q i false (enroll q ctr tpk) s = setResp g.2 f false ⟨1, 0, ctr, enrollHead f r.1 ++ g.1, true, 0⟩ := by
  intro s1 hopen hpoint
  have hnot : ¬ (f ≠ fnMF && (enrollOf s1 f).isSome) = true := by
    rw [sent_enroll]
    rcases hopen with hopen | hopen <;> simp [hopen]
  have hcurve : ¬ (ecPoint tpk).isNone = true := by
    rw [← Option.not_isSome, hpoint]
    decide
  exact (secSend_yes h hf hb hl hp (fun _ => hsp) fun hne => absurd hne (by decide)).trans
    ((if_neg hnot).trans (if_neg hcurve))

section KeyAgreement

variable {q : Capsule} {i : Instr} {f op : Nat} {h : KaHdr} {e : Enroll} {s : State}

/-- An accepted request is answered with what it comes to. -/
theorem ka_answers {body : List Nat} {run : Nat → State → KaRes} {r : KaRes} (ha : KaAccepts s q f op h body e)
    (hr : run f (kaTaken s q f h e) = r) : inTurn q i false (kaSend q op h body run) s =
      kaAnswer r.s f op r.result h.ctr r.body r.ready (s.now + r.wait) := by
  subst hr
  exact ka_yes ha

/-- BIND of a slot that was never bound, whose namespace is not being imported and is not under a crypto-erase. -/
theorem bind_unbound {nsid k : Nat} (ha : KaAccepts s q f 2 h (leBytes 4 nsid) e) (hf : f ≠ fnMF) :
    let s1 := kaTaken s q f h e
    nsSlot s1 f nsid = some k → ((migOf s1 f).state = .importing && (migOf s1 f).names nsid) = false →
    (nsAt s1 k).any (·.erase.isSome) = false → slotState s1 k = 1 →
    let r := freshKey s1
    inTurn q i false (bind q h nsid) s =
      kaAnswer (modNs (bindSlot r.2 k r.1 1) k (fun n => { n with nonce := {} })) f 2 0 h.ctr [] true s.now := by
  intro s1 hk himp herase hunbound r
  refine ka_answers ha (r := kaAns (modNs (bindSlot r.2 k r.1 1) k (fun n => { n with nonce := {} })) 0) ?_
  dsimp only
  rw [if_neg hf, hk]
  dsimp only
  rw [himp, herase, hunbound]
  rfl

end KeyAgreement

/-- Settles O39: a point of the curve enrolls the function, and an accepted request is answered with what its operation comes to. -/
theorem keyAgreementCompletes : Obligations.KeyAgreementCompletes := by
  unfold Obligations.KeyAgreementCompletes
  refine ⟨fun q f s h hf hb hl hp hsp => ?enroll,
    fun q f h e s => ⟨fun nsid k ha hf hk himp herase hunbound => ?bind, fun ha => ?status⟩⟩
  case enroll =>
    intro s1 ctr form xy hopen tpk hpoint
    exact congrArg done (enroll_sent h hf hb hl hp hsp hopen hpoint)
  case bind => exact congrArg done (bind_unbound ha hf hk himp herase hunbound)
  case status => exact congrArg done (ka_answers ha rfl)

end Sys2Proof.Machine
end

section
/-! PROOFS. Crypto-erase and the cipher cores (12_sorrel_keys_cipher.md R479, R484–R491). -/

namespace Sys2Proof.Machine

/-! ### Crypto-erase (R484–R486) -/

theorem cmdsGone_of_none {s : State} {l : List Nat} (h : ∀ i ∈ l, mget s.cmds i = none) : cmdsGone s l = true :=
  List.all_eq_true.mpr fun i hi => Option.isNone_iff_eq_none.mpr (h i hi)

section Erase

variable {s : State} {k : Nat} {n : Ns} (hn : nsAt s k = some n) (he : n.erase.isSome = true)

include hn he

/-- With the commands that were in the part before it gone, an erase that is not committed yet commits. -/
theorem eraseCommit_gone (hnot : n.eraseDone = false) (hgone : cmdsGone s n.eraseWait = true) :
    let r := freshKey s
    let s1 := modNs r.2 k (fun n => { n with eraseDone := true, eraseCut := jCount s })
    eraseCommit k s = bindSlot (dropKey s1 k) k r.1 (mgetD s.keyGen k 0 + 1) := by
  simp only [eraseCommit, hn]
  exact if_pos (by rw [he, hnot, hgone]; rfl)

/-- A committed erase ends. -/
theorem eraseEnd_committed (hdone : n.eraseDone = true) : eraseEnd k s = pump (eraseTell (modTenant
    (modNs (staleUnits s k) k (fun n => { n with
      erase := none, eraseWait := [], eraseDone := false, map := [], dirty := [], zones := [], nonce := {}, wp := false, defer := false }))
    n.tenant (fun t => { t with defer := t.defer.filter (fun e => e.nsid ≠ n.nsid) })) k n) := by
  simp only [eraseEnd, hn]
  exact if_pos (by rw [he, hdone]; rfl)

end Erase

/-- Settles O40: the commands that were in the part decide when an erase commits, and its commit when it ends. -/
theorem cryptoEraseCompletes : Obligations.CryptoEraseCompletes := by
  unfold Obligations.CryptoEraseCompletes
  exact fun k n s hn he => ⟨fun hnot hgone => congrArg done (eraseCommit_gone hn he hnot (cmdsGone_of_none hgone)),
    fun hdone => congrArg done (eraseEnd_committed hn he hdone)⟩

/-! ### Jobs that arrive (R488, R490) -/

/-- The cores in service that have no job, in their order. -/
def freeCores (s : State) : List Nat := (coresOk s).filter (fun c => (coreAt s c).job.isNone)

/-- A core holds the key of an address. -/
def coreHolds (s : State) (addr c : Nat) : Bool := (coreAt s c).cache.contains addr

section Arrival

variable {s : State} {j : CJob} {c : Nat}

/-- The first free core that holds the key, else the first free core, takes the job. -/
theorem jobArrive_free (h : ((freeCores s).find? (coreHolds s j.addr)).orElse (fun _ => (freeCores s).head?) = some c) :
    jobArrive s j = coreTake s c j := by
  simp only [jobArrive]
  split
  next c' hc' => rw [Option.some.inj (hc'.symm.trans h)]
  next hnone => exact absurd (hnone.symm.trans h) nofun

/-- A free core that holds the key takes the job and keeps its keys. -/
theorem jobArrive_cached (h : (freeCores s).find? (coreHolds s j.addr) = some c) :
    jobArrive s j = setCore s c { coreAt s c with job := some (j, s.now) } := by
  rw [jobArrive_free (by rw [h]; rfl), coreTake]
  exact if_pos (List.find?_some h)

/-- Where no free core holds the key the first one loads it. -/
theorem jobArrive_loads (h : (freeCores s).find? (coreHolds s j.addr) = none) (hc : (freeCores s).head? = some c) :
    jobArrive s j = bump (setCore s c { job := some (j, s.now), cache := (j.addr :: (coreAt s c).cache).take 8 })
      .csx 0 F.CSX_KEY_LOADS_COUNT := by
  have hmiss := List.find?_eq_none.mp h c (List.mem_of_head? hc)
  rw [jobArrive_free (by rw [h]; exact hc), coreTake]
  exact if_neg hmiss

/-- The decryption of a sector whose ciphertext a read has arrives unless there is one of it already. -/
theorem cipherArrival_sector {conn cid off k : Nat} {x : Cmd}
    (hfind : s.cmds.find? (fun q => q.2.conn = conn && q.2.cid = cid && (mget q.2.plain off).isSome) = some (k, x))
    (hnew : (allJobs s).all (fun j => j.what ≠ .dec k off) = true) : cipherArrival (.dec conn cid off) s =
      jobArrive s { what := .dec k off, addr := x.nsk.getD 0, cls := x.cls, blocks := 256 } := by
  have hnone : ¬ (allJobs s).any (fun j => j.what = .dec k off) = true := by simpa using hnew
  simp only [cipherArrival, hfind]
  exact if_neg hnone

end Arrival

/-! ### Jobs that end (R479, R489, R491) -/

section Done

variable {s : State}

theorem decDone_verified {k off sl : Nat} {c : Cmd} {x : Sector} {key v : Nat} (hc : mget s.cmds k = some c)
    (hsl : c.nsk = some sl) (hx : mget c.plain off = some x) (hkey : mget s.nsKeys sl = some key)
    (hopen : x.opened key ((nsAt s sl).elim 0 (·.nsid)) = some v) :
    decDone s k off true = readGive (bump s .csx 0 F.CSX_SECT_DEC_COUNT) k off v := by
  simp only [decDone, hc, hx, hsl, hkey, if_true, Option.bind_some, hopen]

variable {core t : Nat} {j : CJob} (hjob : (coreAt s core).job = some (j, t))

include hjob

theorem cipherDone_other {id : Nat} (intact : Bool) (hwhat : j.what = .other id) : cipherDone core intact s =
    coreNext (setCore s core { coreAt s core with job := none }) core := by
  simp only [cipherDone, hjob, hwhat]

theorem cipherDone_dec {k off : Nat} (intact : Bool) (hwhat : j.what = .dec k off) : cipherDone core intact s =
    coreNext (decDone (setCore s core { coreAt s core with job := none }) k off intact) core := by
  simp only [cipherDone, hjob, hwhat]

end Done

/-- Settles O41: what a request brings goes to the core that `jobArrive` finds free, and what a job was decides its end. -/
theorem cipherJobsComplete : Obligations.CipherJobsComplete := by
  unfold Obligations.CipherJobsComplete
  refine ⟨fun r j c s hj => ?arrival, fun core t j s hjob => ?ends⟩
  case arrival =>
    intro free
    have harrive : cipherArrival r s = jobArrive s j := by
      cases r with
      | other id addr cls blocks => exact congrArg (jobArrive s) hj.symm
      | dec conn cid off =>
        obtain ⟨k, x, hfind, rfl, hnew⟩ := hj
        exact cipherArrival_sector hfind hnew
    exact ⟨fun hfind => congrArg done (harrive.trans (jobArrive_cached hfind)),
      fun hnone hhead => congrArg done (harrive.trans (jobArrive_loads hnone hhead))⟩
  case ends =>
    intro s1
    refine ⟨fun id intact hwhat => congrArg done (cipherDone_other hjob intact hwhat), ?decryption⟩
    case decryption =>
      intro k off c sl x key v hwhat hc hsl hx hkey hopen
      have hdec : decDone s1 k off true = readGive (bump s1 .csx 0 F.CSX_SECT_DEC_COUNT) k off v :=
        decDone_verified hc hsl hx hkey hopen
      exact congrArg done ((cipherDone_dec hjob true hwhat).trans (congrArg (coreNext · core) hdec))

end Sys2Proof.Machine
end

section
/-! PROOFS. What a part reset keeps and loses, the lines at reset, and the queue of commands (00_scope.md; 02_register_pages.md R99;
18_recorder_and_metering.md R643, R644, R655; 19_faults_and_resets.md R678, R679, R684). -/

namespace Sys2Proof.Machine

/-! ### The queue of commands -/

theorem step_front (c : Instr) (rest : List Instr) (s : State) :
    step { s with pending := c :: rest } = exec c { s with pending := rest } := rfl

/-- With no command waiting, the admin command that has come to its turn runs. -/
theorem step_held {i : Instr} {s : State} (h : s.pending = []) (hn : nextHeld s = some i) : step s = exec i s := by
  simp only [step, h, hn]

/-- Settles O1: whether a command waits, and whether an admin command has come to its turn, decides what a step does. -/
theorem stepRunsTheFrontCommand : Obligations.StepRunsTheFrontCommand := by
  unfold Obligations.StepRunsTheFrontCommand
  refine ⟨step_front, fun i s => step_held, fun s h hn => (step_idle s h hn).trans (tick_settles s), fun s => ?_⟩
  obtain ⟨u, hu⟩ := step_settles s
  exact ⟨settle u, hu⟩

/-! ### The lines at reset (R99, R684) -/

/-- Settles O3: in a part reset ALERT_N is not judged and FAULT_N is not driven. -/
theorem linesFollowAtReset : Obligations.LinesFollowAtReset := by
  unfold Obligations.LinesFollowAtReset
  have hmode : State.reset.mode = .reset := rfl
  exact ⟨fun hm => (hm hmode).elim, by rw [hmode]; rfl⟩

/-! ### A part reset (R678, R679) -/

/-- A state with other register words. -/
def withRegs (s : State) (m : FMap Word) : State := { s with regs := m }

/-- Two states that differ in register words alone. -/
def RegsApart (s t : State) : Prop := ∃ m, t = withRegs s m

theorem RegsApart.wr {s t : State} (h : RegsApart s t) (k : PageKind) (i off v : Nat) : RegsApart s (wr t k i off v) := by
  obtain ⟨m, rfl⟩ := h
  exact ⟨_, rfl⟩

/-- Latching the cause writes registers alone. -/
theorem latchReset_regsApart (s : State) (kind detail lo hi : Nat) : RegsApart s (latchReset s kind detail lo hi) := by
  have hsame : RegsApart s s := ⟨s.regs, rfl⟩
  unfold latchReset
  split
  · exact (((hsame.wr ..).wr ..).wr ..).wr ..
  · exact ((hsame.wr ..).wr ..).wr ..

/-- A program that a reset cuts changes what the flash holds, by a free value. -/
theorem cutProgram_frame (s : State) (o : FlashOp) : ∃ n m, cutProgram s o = { s with free := n, flash := m } := by
  unfold cutProgram
  split
  · split <;> exact ⟨_, _, rfl⟩
  · exact ⟨_, _, rfl⟩

theorem cutPrograms_frame (s : State) : ∃ n m, cutPrograms s = { s with free := n, flash := m } := by
  unfold cutPrograms
  induction (s.dies.map (fun q => q.2.cur.toList ++ q.2.sus.toList)).flatten generalizing s with
  | nil => exact ⟨_, _, rfl⟩
  | cons o l ih =>
    obtain ⟨n, m, hcut⟩ := cutProgram_frame s o
    obtain ⟨n', m', hrest⟩ := ih (cutProgram s o)
    rw [List.foldl_cons, hrest, hcut]
    exact ⟨_, _, rfl⟩

/-- A map over the values of a sparse map reads what the map holds, changed. -/
theorem mget_map {α β : Type} (m : FMap α) (f : α → β) (k : Nat) : mget (m.map (fun q => (q.1, f q.2))) k = (mget m k).map f := by
  induction m with
  | nil => rfl
  | cons a t ih =>
    simp only [List.map_cons, mget, ih]
    split <;> rfl

/-- A tenant after a part reset is the tenant of before without what it had under way. -/
theorem mgetD_keptTenant (m : FMap Tenant) (n : Nat) :
    mgetD (m.map (fun q => (q.1, keptTenant q.2))) n {} = keptTenant (mgetD m n {}) := by
  unfold mgetD
  rw [mget_map]
  cases mget m n <;> rfl

/-- The part at a reset, once the cause is latched, the recorders have fallen back and the programs under way are cut. -/
theorem cutPart_frame (kind detail lo hi : Nat) (s : State) : ∃ m n w,
    cutPrograms (recReset (latchReset { s with regs := if kind = 1 then keptRegs true s.regs else s.regs } kind detail lo hi)) =
      { recReset s with regs := m, free := n, flash := w } := by
  obtain ⟨m, hlatch⟩ := latchReset_regsApart { s with regs := if kind = 1 then keptRegs true s.regs else s.regs } kind
    detail lo hi
  obtain ⟨n, w, hcut⟩ := cutPrograms_frame (recReset (withRegs s m))
  rw [hlatch]
  exact ⟨m, n, w, hcut⟩

/-- Settles O8: the cause and the cut programs change registers and flash, and all else is as a part reset lists it. -/
theorem partResetKeepsWhatLasts : Obligations.PartResetKeepsWhatLasts := by
  unfold Obligations.PartResetKeepsWhatLasts
  intro kind detail lo hi s
  obtain ⟨m, n, w, hcut⟩ := cutPart_frame kind detail lo hi s
  unfold partReset
  simp only [hcut]
  simp only [recReset, keptJournal, keptMeter, mgetD_keptTenant]
  refine ⟨trivial, trivial, trivial, ?kept, fun _ => ⟨rfl, rfl⟩, ?lost, fun hother => ?stays, fun hpor => ?por⟩
  case kept => simp only [and_self]
  case lost => simp only [and_self]
  case stays => simp only [if_neg hother, and_self]
  case por => simp only [if_pos hpor, and_self]
end Sys2Proof.Machine
end

section
/-! PROOFS. Entering DOZE and HOLD (16_power_modes.md R594–R596, R603, R614). -/

namespace Sys2Proof.Machine

/-- The part with an entry begun: the flash stops, and its erases go back to be given again (R595). -/
def entryStopped (s : State) (t : Nat) : State :=
  let s1 := stopReloc (stopFlash { s with pwr := { s.pwr with entry := some t } })
  { s1 with feeds := s1.feeds ++ (allErases s).map (fun o => { o with since := 0, ran := 0, nsusp := 0, entered := 0, counted := false }) }

theorem entryStart_idle {s : State} (ht : getF s .pwr 0 F.PWR_MODE_CTRL_PS = 1 ∨ getF s .pwr 0 F.PWR_MODE_CTRL_PS = 2)
    (hidle : entryIdle s = true) :
    entryStart s = forceUnits (entryStopped s (getF s .pwr 0 F.PWR_MODE_CTRL_PS))
      (lossUnits (entryStopped s (getF s .pwr 0 F.PWR_MODE_CTRL_PS))) := by
  have hbegins : ((decide (getF s .pwr 0 F.PWR_MODE_CTRL_PS = 1) || decide (getF s .pwr 0 F.PWR_MODE_CTRL_PS = 2)) && entryIdle s) = true := by
    simpa [hidle] using ht
  exact if_pos hbegins

/-- The part whose programs have ended, as an entry ends: the journal flushed and, on the way to HOLD, the hosts gone. -/
def entryFlushed (s : State) (t : Nat) : State :=
  let s1 := flushAll { s with free := s.free + 1 } (s.jr.staged.length + s.jr.flushing.length + 2)
  if t = 2 then dropHosts s1 else s1

/-- WAKE_N low as the mode would be entered, by the free value that stands for its level, abandons the entry it may wake from. -/
theorem entryCommit_ended {s : State} {t : Nat} (he : s.pwr.entry = some t) (hp : programsLeft s = false) : entryCommit s =
    if (Config.freeWord s.free).toNat % 2 = 0 && wakeSource s t 4 then resumeAfter s (entryAbort (entryFlushed s t))
    else entryEnd (entryFlushed s t) t := by
  unfold entryCommit
  rw [he]
  exact if_neg (Bool.eq_false_iff.mp hp)

/-- Settles O53: an idle part begins the entry it is asked for, and WAKE_N decides how an entry whose programs have ended ends. -/
theorem modeEntriesComplete : Obligations.ModeEntriesComplete := by
  unfold Obligations.ModeEntriesComplete
  refine fun s => ⟨fun ht hidle => congrArg done (entryStart_idle ht hidle), fun t he hp => ?commit⟩
  intro low s1 s2
  have hends := entryCommit_ended he hp
  refine ⟨fun hstays => ?enters, fun hlow hwake => ?abandons⟩
  case enters =>
    have hno : ¬ ((Config.freeWord s.free).toNat % 2 = 0 && wakeSource s t 4) = true := by
      rcases hstays with hhigh | hnot
      · simp [show ¬ (Config.freeWord s.free).toNat % 2 = 0 from hhigh]
      · simp [hnot]
    exact congrArg done (hends.trans (if_neg hno))
  case abandons =>
    have hyes : ((Config.freeWord s.free).toNat % 2 = 0 && wakeSource s t 4) = true := by
      simp [show (Config.freeWord s.free).toNat % 2 = 0 from hlow, hwake]
    exact congrArg done (hends.trans (if_pos hyes))

end Sys2Proof.Machine
end

section
/-! PROOFS. Temperatures: samples, the grace time and the shutdown budget (17_thermal.md R623–R635). -/

namespace Sys2Proof.Machine

/-- The part with a sample recorded, its channel set and its reports made. -/
def chReported (s : State) (c : Nat) (new : ThCh) : State :=
  sampleReports (setCh (recTemp s (chGroup s c) new.eff 4) c new) c (chAt s c) new

/-- A WARN that a sample newly reaches is a wake source; then Critical Warning and the stage are judged. -/
def chJudged (s : State) (c : Nat) (new : ThCh) : State :=
  let s2 := chReported s c new
  judgeStage (judgeCrit1 (if new.got.getD 0 false && !(chAt s c).got.getD 0 false then resumeAfter s2 (wakeEvent 6 s2) else s2))

theorem thmSample_sampled {s : State} {c : Nat} (h : chSampled s c = true) (v : Int) (bad : Bool) :
    let s1 := thermTime s
    let raw := rawReading s1 c v bad
    let new := chNext s1 c (faultCode c v bad raw) raw
    thmSample c v bad s = if new.limit = 2 then hardLimit (chJudged s1 c new) c else chJudged s1 c new := by
  have hno : ¬ (!chSampled s c) = true := by simp [h]
  exact if_neg hno

theorem judgeStage_notify_overdue {s : State} (hn : s.stage = .notify) (hcrit : anyLevel s 2 = false) (hthrot : anyLevel s 1 = true)
    (hdue : s.therm.stageAt + graceNs s ≤ s.now) : judgeStage s = enterEnforce s := by
  have hnone : (List.range 32).find? (fun c => chOn s c && (chAt s c).got.getD 2 false) = none :=
    List.find?_eq_none.mpr (List.any_eq_false.mp hcrit)
  have hstage : s.stage ≠ .critical := by
    rw [hn]
    decide
  rw [judgeStage, if_neg hstage, hnone]
  simp only [hn, hthrot, Bool.not_true, Bool.false_eq_true, if_false, if_pos hdue]

theorem shdnExpiry_due {s : State} {t : Nat} (hs : s.therm.stop = some t) (hnot : s.therm.shdn = false)
    (hdue : t + max 1 (getF s .thm 0 F.THM_THR_CTRL_SHDN_MS) * 1000000 ≤ s.now) :
    shdnExpiry s = shdnLow { s with plRun := s.plRun.map (fun p => { p with ended := true }) } := by
  have hends : (!s.therm.shdn && decide (t + max 1 (getF s .thm 0 F.THM_THR_CTRL_SHDN_MS) * 1000000 ≤ s.now)) = true := by
    rw [hnot, decide_eq_true hdue]
    rfl
  rw [shdnExpiry, hs]
  exact if_pos hends

/-- Settles O55: the count of samples over the limit decides what follows a sample, the levels what follows the grace time. -/
theorem temperaturesComplete : Obligations.TemperaturesComplete := by
  unfold Obligations.TemperaturesComplete
  refine ⟨fun c v bad s h => ?sample, fun s => ?grace, fun t s hs hnot hdue => congrArg done (shdnExpiry_due hs hnot hdue)⟩
  case sample =>
    have hsample := thmSample_sampled h v bad
    exact ⟨fun hbelow => congrArg done (hsample.trans (if_neg hbelow)), fun hlimit => congrArg done (hsample.trans (if_pos hlimit))⟩
  case grace =>
    intro s1 hn hcrit hthrot hdue
    have hstage : s1.stage = .notify := hn
    exact congrArg done ((if_pos hn).trans (judgeStage_notify_overdue hstage hcrit hthrot hdue))

end Sys2Proof.Machine
end

section
/-! PROOFS. What seconds and minutes bring, the end of a freeze, and METER_READ (18_recorder_and_metering.md R643–R663). -/

namespace Sys2Proof.Machine

theorem recRuns_asleep {s : State} (h : s.mode = .doze ∨ s.mode = .hold) : recRuns s = false := by
  rcases h with h | h <;> simp [recRuns, h]

/-! ### Seconds (R643) -/

/-- The part with POS one second on. -/
def posCounted (s : State) : State :=
  { s with pos := min 0xFFFFFFFFFF (s.pos + 1), aon := { s.aon with posAt := s.aon.posAt + 1000000000 } }

theorem posSecond_runs {s : State} (h : recRuns s = true) : let s2 := ageBands (meterSecond (posCounted s))
    posSecond s = recCopy (if s2.pos % (60 * max 1 (getF s2 .recd 0 F.REC_CFG_PERIOD_MIN)) = 0
      then periodClose s2 (((List.range 32).filter (chOn s2)).map (chGroup s2)) else s2) :=
  if_pos (show recRuns (posCounted s) = true from h)

theorem posSecond_stands {s : State} (h : recRuns s = false) :
    let s1 := posCounted s
    let s2 := { s1 with recd := { s1.recd with savedPos := s1.pos, savedPcyc := s1.pcyc } }
    posSecond s = if s.mode = .doze ∨ s.mode = .hold then meterSecond s2 else s2 := by
  have hstands : ¬ recRuns (posCounted s) = true := Bool.eq_false_iff.mp h
  refine (if_neg hstands).trans ?_
  simp only [Bool.or_eq_true, decide_eq_true_eq]
  rfl

/-! ### Minutes (R656, R661) -/

/-- A minute that wall time has left is closed, noted or passed over, and the next is counted. -/
theorem minuteBoundary_due {s : State} {w : Nat} (hw : wallNow s = some w) (hdue : s.meter.minute + 1 ≤ w / 60) :
    let s1 := if recRuns s then closeMinute s s.meter.minute false
      else if s.mode = .doze ∨ s.mode = .hold then noteMinute s s.meter.minute else s
    minuteBoundary s = { s1 with meter := { s1.meter with minute := s.meter.minute + 1 } } := by
  rw [minuteBoundary, hw]
  simp only [if_pos hdue, Bool.or_eq_true, decide_eq_true_eq]

/-! ### Freezes (R652) -/

theorem freezeTimeout_due {s : State} {t : Nat} (hf : s.recd.frozenAt = some t)
    (hdue : t + max 1 (getF s .recd 0 F.REC_CFG_FREEZE_MAX_S) * 1000000000 ≤ s.now) :
    freezeTimeout s = raise (recUnfreeze s) .recd 0 F.REC_INT_RAW_FREEZE_END := by
  rw [freezeTimeout, hf]
  exact if_pos hdue

/-! ### METER_READ (R663) -/

theorem meterRead_ready {q : Capsule} {i : Instr} {s : State} (h : Ready s q fnMF) (hb : OnlyBits q [0x1FF, 0x3FF, 0, 0, 0, 0])
    {first count : Nat} (hfirst : first = bitsOf q.dw10 8 0) (hcount : count = bitsOf q.dw11 9 0) (hsome : 0 < count)
    (hlast : first + count ≤ 512) (hlen : 3856 * count ≤ q.len) :
    let s1 := served s fnMF
    let s2 := postOk s1 q.conn q.cid 0 (((List.range count).map (fun i => meterTenant s1 (first + i))).flatten)
    inTurn q i false (meterRead q) s = { s2 with meter := { s2.meter with rings := s2.meter.rings.map (fun p =>
      if first ≤ p.1 && p.1 < first + count then (p.1, p.2.map (fun r => { r with read := true })) else p) } } := by
  subst hfirst hcount
  refine vendor_yes h hb (fun n => ?_) (if_neg (Nat.not_lt.mpr hlen))
  simp [Nat.ne_of_gt hsome, Nat.not_lt.mpr hlast]

/-- Settles O56: whether the recorder runs, and else whether the part is in DOZE or HOLD, decides what a second and a minute bring. -/
theorem recordsComplete : Obligations.RecordsComplete := by
  unfold Obligations.RecordsComplete
  refine ⟨fun s hdue => ?second, fun w s hw => ?minute, fun t s hf hdue => congrArg done (freezeTimeout_due hf hdue),
    fun q s h => ?read⟩
  case second =>
    have htick : posTick s = posSecond s := if_pos hdue
    exact ⟨fun hruns => congrArg done (htick.trans (posSecond_runs hruns)),
      fun hstands => congrArg done (htick.trans (posSecond_stands hstands))⟩
  case minute =>
    intro m hdue passed
    have hminute := minuteBoundary_due hw hdue
    refine ⟨fun hruns => congrArg done (hminute.trans ?closed), fun hsleeps => congrArg done (hminute.trans ?noted),
      fun hstands hdoze hhold => congrArg done (hminute.trans ?passedOver)⟩
    case closed => simp only [if_pos hruns]; rfl
    case noted => simp only [recRuns_asleep hsleeps, Bool.false_eq_true, if_false, if_pos hsleeps]; rfl
    case passedOver => simp only [hstands, Bool.false_eq_true, if_false, if_neg (not_or.mpr ⟨hdoze, hhold⟩)]; rfl
  case read =>
    intro s1 first count hb hsome hlast hlen
    exact congrArg done (meterRead_ready h hb rfl rfl hsome hlast hlen)

end Sys2Proof.Machine
end

section
/-! PROOFS. SERVICE mode: board profiles, debug tokens and provisioning on request (20_boot_and_firmware.md R702, R703, R705, R706,
R708). -/

namespace Sys2Proof.Machine

section Service

variable {q : Capsule} {s : State} {i : Instr} (h : ServiceReady s q)

include h

theorem served_inService : (served s fnMF).mode = .service := h.1

/-- A command that MF alone accepts comes to what it executes in SERVICE mode too. -/
theorem mfOnly_yes_inService {w : Bool} {masks : List Nat} {run : Nat → State → Verdict} {t : State} (hb : OnlyBits q masks)
    (hr : run fnMF (served s fnMF) = .yes t) : inTurn q i w (admin q (mfOnly masks) run) s = t :=
  service_yes h mfOnly_has rfl hb hr

/-- So does a vendor command with no dword at fault. -/
theorem vendor_yes_inService {run : State → Verdict} {t : State} (hb : OnlyBits q [0, 0, 0, 0, 0, 0])
    (hr : run (served s fnMF) = .yes t) : inTurn q i false (vendor q [0, 0, 0, 0, 0, 0] noField run) s = t := by
  refine mfOnly_yes_inService h rfl ?_
  rw [firstBad_none hb (fun _ => rfl)]
  exact hr

/-! ### Board profiles (R702, R703) -/

/-- A Firmware Commit whose dword 10 names its action runs it. -/
theorem fwCommit_inService {ca : Nat} {run : State → State} (hb : OnlyBits q [0x3F, 0, 0, 0, 0, 0]) (hca : bitsOf q.dw10 5 3 = ca) :
    inTurn q i false (fwCommit q ca run) s = run (served s fnMF) := by
  refine mfOnly_yes_inService h rfl ?_
  have hfields : (decide (bitsOf q.dw10 5 3 ≠ ca) || (badDword q [0x3F, 0, 0, 0, 0, 0]).isSome) = false := by
    rw [show badDword q [0x3F, 0, 0, 0, 0, 0] = none from hb, hca]
    simp
  simp only [hfields, Bool.false_eq_true, if_false]

theorem fwReplace_profile {p : Profile} {w : SlotEnd} (hb : OnlyBits q [0x3F, 0, 0, 0, 0, 0]) (hca : bitsOf q.dw10 5 3 = 0)
    (hkind : pkgKind (served s fnMF).dlBuf = 2) (hgood : bufCheck (served s fnMF) [2] = none) :
    inTurn q i false (fwReplace q p w) s = fwDone { fwPassed (served s fnMF) with sealedProfile := some p } q stOk := by
  refine (fwCommit_inService h hb hca).trans ?_
  rw [if_pos hkind, if_neg (not_not.mpr (served_inService h)), hgood]

/-! ### Debug tokens (R705, R706) -/

/-- What a debug token of 256 bytes comes to. -/
theorem debugToken_judged {data : List Nat} (hb : OnlyBits q [0, 0, 0, 0, 0, 0]) (hlen : 256 ≤ q.len) :
    let s1 := served s fnMF; let t := fitBytes 256 data
    inTurn q i false (debugToken q data) s =
      if debugOk s1 t then postOk (newChallenge (setF (setF (setF (zeroKeys s1)
        .dbg 0 F.DBG_TOKEN_ACCEPTED 1) .dbg 0 F.DBG_TOKEN_SINCE_POR 1) .dbg 0 F.DBG_TOKEN_SCOPE (pkgField t 4 1 % 4))) q.conn q.cid 0 []
      else postSt (newChallenge (bump s1 .dbg 0 F.DBG_FAILS_COUNT)) q.conn q.cid stInvalidField := by
  intro s1 t
  refine vendor_yes_inService h hb ?_
  rw [if_neg (not_not.mpr (served_inService h)), if_neg (Nat.not_lt.mpr hlen)]
  exact (apply_ite Verdict.yes _ _ _).symm

/-! ### Provisioning on request (R708) -/

theorem provisionReset_empty (hb : OnlyBits q [0, 0, 0, 0, 0, 0]) (hfree : ∀ t ∈ s.tenants, t.2.state = .free) (hsets : s.diesets = []) :
    let s1 := served s fnMF
    inTurn q i false (provisionReset q) s = postOk { s1 with
      geometry := false, oos := { cores := s1.oos.cores }, eraseBook := keepErases s1, blks := [], dieRecs := [] } q.conn q.cid 0 [] := by
  intro s1
  have hnone : s1.tenants.all (fun t => decide (t.2.state = .free)) = true :=
    List.all_eq_true.mpr fun t ht => decide_eq_true (hfree t ht)
  have hempty : (decide (s1.mode = .service) && s1.tenants.all (fun t => decide (t.2.state = .free)) && s1.diesets.isEmpty) = true := by
    rw [decide_eq_true (served_inService h), hnone, show s1.diesets = [] from hsets]
    rfl
  exact vendor_yes_inService h hb (congrArg Verdict.yes (if_pos hempty))

end Service

/-- Settles O58: each command passes its admission in SERVICE mode; whether a token verifies decides what it comes to. -/
theorem serviceCommandsComplete : Obligations.ServiceCommandsComplete := by
  unfold Obligations.ServiceCommandsComplete
  intro q s h s1
  refine ⟨fun p w hb hca hkind hgood => congrArg done (fwReplace_profile h hb hca hkind hgood),
    fun hb => ⟨fun data hlen => ?token, fun hfree hsets => congrArg done (provisionReset_empty h hb hfree hsets)⟩⟩
  have htoken := debugToken_judged (i := .debugToken q data) (data := data) h hb hlen
  exact ⟨fun hgood => congrArg done (htoken.trans (if_pos hgood)),
    fun hbad => congrArg done (htoken.trans (if_neg (Bool.eq_false_iff.mp hbad)))⟩

end Sys2Proof.Machine
end

section
/-! PROOFS. The sealed memories: uncorrectable bytes, the patrol and the test windows (14_memories_buffers_dram.md R552, R554–R556;
19_faults_and_resets.md R678, R679). -/

namespace Sys2Proof.Machine

/-! ### A byte of a test window (R556) -/

section Window

variable {s : State} {m o : Nat}

/-- A byte with one check bit inverted is written back corrected. -/
theorem windowRead_corrected (h : (winAt s m o).flips = 1) :
    windowRead s m o = sealedCe (setWin s m o { winAt s m o with flips := 0 }) m (windowBase m + o) := by
  have hfinds : (winAt s m o).finds = .corrected := by
    rw [TestByte.finds, h]
    rfl
  simp only [windowRead, hfinds, h, if_true, sealedRead]

/-- A byte with more of them inverted stays as it is and resets the part. -/
theorem windowRead_uncorrectable (h : 2 ≤ (winAt s m o).flips) :
    windowRead s m o = partReset 4 m (windowBase m + o) 0 (setWin s m o (winAt s m o)) := by
  have hfinds : (winAt s m o).finds = .uncorrectable := by
    obtain ⟨n, hn⟩ : ∃ n, (winAt s m o).flips = n + 2 := ⟨_, (Nat.sub_add_cancel h).symm⟩
    rw [TestByte.finds, hn]
    rfl
  have hback : ({ winAt s m o with flips := if (winAt s m o).flips = 1 then 0 else (winAt s m o).flips } : TestByte) = winAt s m o := by
    rw [if_neg (by omega)]
  simp only [windowRead, hback, hfinds, sealedRead]

end Window

/-! ### The patrol (R555) -/

/-- The byte that the patrol reads next of a memory. -/
def patrolByte (s : State) (m off : Nat) : Nat := if m = 0 then getF s .sea 0 F.SEA_SCRUB_STAT_POS else off

/-- The part with the patrol of MRAM one byte on. -/
def patrolMoved (s : State) (m : Nat) : State :=
  if m = 0 then setF s .sea 0 F.SEA_SCRUB_STAT_POS ((getF s .sea 0 F.SEA_SCRUB_STAT_POS + 1) % 0x08000000) else s

theorem winAt_patrolMoved (s : State) (m n o : Nat) : winAt (patrolMoved s m) n o = winAt s n o := by
  unfold patrolMoved
  split <;> rfl

section Patrol

variable {s : State} (m : Fin 7) {off : Nat} (r : ReadFinds) (hon : getF s .sea 0 F.SEA_SCRUB_CTRL_PERIOD_H ≠ 0)

include hon

theorem scrubRead_on : scrubRead m off r s =
    if windowBase m ≤ patrolByte s m off && patrolByte s m off < windowBase m + 64 then
      windowRead (patrolMoved s m) m (patrolByte s m off - windowBase m)
    else sealedRead m (patrolByte s m off) r (patrolMoved s m) := by
  rw [scrubRead, if_neg hon, patrolByte, patrolMoved]
  split <;> rfl

theorem scrubRead_outside (hout : patrolByte s m off < windowBase m ∨ windowBase m + 64 ≤ patrolByte s m off) :
    scrubRead m off r s = sealedRead m (patrolByte s m off) r (patrolMoved s m) := by
  rw [scrubRead_on m r hon, if_neg]
  rw [Bool.and_eq_true, decide_eq_true_eq, decide_eq_true_eq]
  omega

theorem scrubRead_window (hlo : windowBase m ≤ patrolByte s m off) (hhi : patrolByte s m off < windowBase m + 64) :
    scrubRead m off r s = windowRead (patrolMoved s m) m (patrolByte s m off - windowBase m) := by
  rw [scrubRead_on m r hon, if_pos]
  rw [decide_eq_true hlo, decide_eq_true hhi]
  rfl

end Patrol

/-- Settles O26: the patrol's byte lies in the test window or outside it; there its check bits, here what the read finds decides. -/
theorem sealedMemoriesComplete : Obligations.SealedMemoriesComplete := by
  unfold Obligations.SealedMemoriesComplete
  refine fun m off s => ⟨rfl, fun hon => ?patrol⟩
  intro pos o s1 base reads
  refine ⟨fun hout r => ?outside, fun hlo hhi r => ?window⟩
  case outside =>
    refine congrArg done ((scrubRead_outside m r hon hout).trans ?_)
    cases r <;> rfl
  case window =>
    intro b
    have hread : scrubRead m off r s = windowRead s1 m (o - base) := scrubRead_window m r hon hlo hhi
    have hb : winAt s1 m (o - base) = b := winAt_patrolMoved s m m (o - base)
    have ho : windowBase m + (o - base) = o := Nat.add_sub_cancel' hlo
    refine ⟨fun h => congrArg done (hread.trans ?_), fun h => congrArg done (hread.trans ?_), fun h => congrArg done (hread.trans ?_)⟩
    · rw [windowRead_good (by rw [hb]; exact h), hb]
    · rw [windowRead_corrected (by rw [hb]; exact h), hb, ho]
      rfl
    · rw [windowRead_uncorrectable (by rw [hb]; exact h), hb, ho]

end Sys2Proof.Machine
end

section
/-! PROOFS. DRAM: retrain pauses, corrected errors of a rank, the end of a copy, and lines that are lost (14_memories_buffers_dram.md
R541, R544–R547, R550, R562). -/

namespace Sys2Proof.Machine

/-! ### Retrain pauses (R541) -/

theorem dramRetrain_due {ch : Fin 8} (ns : Nat) {s : State} {n : Nat} (hn : n = (s.now - ch.val * retrainPeriod s / 8) / retrainPeriod s + 1)
    (hon : getF s .drx 0 F.DRX_RETRAIN_ENABLE = 1) (hm : s.mode = .run ∨ s.mode = .guard ∨ s.mode = .service)
    (hbegun : ch.val * retrainPeriod s / 8 ≤ s.now) (hnew : mgetD s.dram.pauses ch.val 0 < n) :
    dramRetrain ch ns s = setF (bump { s with dram := { s.dram with pauses := mset s.dram.pauses ch.val n } }
      .drc ch.val F.DRC_RETRAIN_STAT_COUNT) .drc ch.val F.DRC_RETRAIN_STAT_LAST_NS (min 1500 ns) := by
  subst hn
  have hmode : (decide (s.mode = .run) || decide (s.mode = .guard) || decide (s.mode = .service)) = true := by
    simpa [or_assoc] using hm
  simp only [dramRetrain, hon, hmode, hbegun, hnew, decide_true, Bool.and_self, if_true]

/-! ### Corrected errors (R544) -/

section Corrected

variable {s : State} {r : Nat}

/-- Corrected errors of a rank that still count. -/
def ceTimes (s : State) (r : Nat) : List Nat := (mgetD s.dram.ce r []).filter (fun t => s.now < t + ceWindow s)

/-- The part with one more of them, and the ranks that exceed the threshold. -/
def ceKept (s : State) (r : Nat) (above : List Nat) : State :=
  { bump s .drc (r / 2) (rankFld r F.DRC_CE_RANK0 F.DRC_CE_RANK1) with
    dram := { s.dram with ce := mset s.dram.ce r (s.now :: ceTimes s r), above := above } }

theorem ceFld_off_lt (r : Nat) : (rankFld r F.DRC_CE_RANK0 F.DRC_CE_RANK1).off < 0x1000 := by
  unfold rankFld
  split <;> decide

/-- Counting the error leaves the threshold and the window. -/
theorem spareWord_ceKept (hr : r < 16) (above : List Nat) : rd (ceKept s r above) .drx 0 0x10C = rd s .drx 0 0x10C :=
  spareWord_setF_drc s _ _ hr (ceFld_off_lt r)

theorem ceThr_ceKept (hr : r < 16) (above : List Nat) :
    getF (ceKept s r above) .drx 0 F.DRX_SPARE_CTRL_CE_THR = getF s .drx 0 F.DRX_SPARE_CTRL_CE_THR :=
  getF_of_rd_eq F.DRX_SPARE_CTRL_CE_THR (spareWord_ceKept hr above)

theorem ceWindow_ceKept (hr : r < 16) (above : List Nat) : ceWindow (ceKept s r above) = ceWindow s := by
  rw [ceWindow, ceWindow, getF_of_rd_eq F.DRX_SPARE_CTRL_CE_WIN_H (spareWord_ceKept hr above)]

/-- The new error counts, with those that already did. -/
theorem ceCount_ceKept (hr : r < 16) (above : List Nat) : ceCount (ceKept s r above) r = (ceTimes s r).length + 1 := by
  have hnow : s.now < s.now + ceWindow s := by
    unfold ceWindow
    omega
  have htimes : mgetD (ceKept s r above).dram.ce r [] = s.now :: ceTimes s r := mgetD_mset_same ..
  have hkept : (ceTimes s r).filter (fun t => decide (s.now < t + ceWindow s)) = ceTimes s r := by
    simp [ceTimes, List.filter_filter]
  rw [ceCount, htimes, ceWindow_ceKept hr]
  show ((s.now :: ceTimes s r).filter (fun t => decide (s.now < t + ceWindow s))).length = _
  rw [List.filter_cons_of_pos (p := fun t => decide (s.now < t + ceWindow s)) (decide_eq_true hnow), hkept, List.length_cons]

theorem dramCe_kept (h0 : rankState s r ≠ 0) (h4 : rankState s r ≠ 4) : dramCe r s = ceJudge (ceKept s r
    (s.dram.above.filter (fun x => x ≠ r || getF s .drx 0 F.DRX_SPARE_CTRL_CE_THR < (ceTimes s r).length))) r := by
  have hno : ¬ (decide (rankState s r = 0) || decide (rankState s r = 4)) = true := by simp [h0, h4]
  rw [dramCe, if_neg hno]
  rfl

variable (hr : r < 16) (h0 : rankState s r ≠ 0) (h4 : rankState s r ≠ 4)

include hr h0 h4

theorem dramCe_below (h : (ceTimes s r).length + 1 ≤ getF s .drx 0 F.DRX_SPARE_CTRL_CE_THR) :
    dramCe r s = ceKept s r (s.dram.above.filter (· ≠ r)) := by
  have hless : ¬ getF s .drx 0 F.DRX_SPARE_CTRL_CE_THR < (ceTimes s r).length := by omega
  rw [dramCe_kept h0 h4, ceJudge, if_pos (by rw [ceCount_ceKept hr, ceThr_ceKept hr]; exact h)]
  simp [ceKept, hless]

theorem dramCe_crosses (h : getF s .drx 0 F.DRX_SPARE_CTRL_CE_THR < (ceTimes s r).length + 1)
    (hnew : (ceTimes s r).length ≤ getF s .drx 0 F.DRX_SPARE_CTRL_CE_THR ∨ s.dram.above.contains r = false) :
    dramCe r s = rankFail (raise (blockError (ceKept s r (r :: s.dram.above.filter (· ≠ r))) .drc (r / 2) 2 (r % 2) 0 0) .drc (r / 2)
      F.DRC_INT_RAW_CE_THR) r := by
  have habove : s.dram.above.filter (fun x => x ≠ r || getF s .drx 0 F.DRX_SPARE_CTRL_CE_THR < (ceTimes s r).length) =
      s.dram.above.filter (· ≠ r) := by
    rcases hnew with hless | habsent
    · simp [Nat.not_lt.mpr hless]
    · refine List.filter_congr fun x hx => ?_
      have hne : x ≠ r := fun he => by simp [← he, hx] at habsent
      simp [hne]
  have hnone : ¬ (s.dram.above.filter (· ≠ r)).contains r = true := by simp
  rw [dramCe_kept h0 h4, habove, ceJudge, if_neg (by rw [ceCount_ceKept hr, ceThr_ceKept hr]; omega)]
  exact if_neg hnone

theorem dramCe_above (h : getF s .drx 0 F.DRX_SPARE_CTRL_CE_THR < (ceTimes s r).length) (hin : s.dram.above.contains r = true) :
    dramCe r s = ceKept s r s.dram.above := by
  have habove : s.dram.above.filter (fun x => x ≠ r || getF s .drx 0 F.DRX_SPARE_CTRL_CE_THR < (ceTimes s r).length) = s.dram.above := by
    simp [h]
  rw [dramCe_kept h0 h4, habove, ceJudge, if_neg (by rw [ceCount_ceKept hr, ceThr_ceKept hr]; omega)]
  exact if_pos hin

end Corrected

/-! ### Copies and lost lines (R545–R547, R550) -/

theorem copyDone_due {s : State} (hs : getF s .drx 0 F.DRX_SPARE_STATE = 1) (hdue : rankBytes s ≤ 2 * (s.now - s.dram.copyAt)) :
    copyDone s = raise (setF (setF (setRank (setRank s (failedRank s) 4) (spareRank s) 1) .drx 0 F.DRX_COPY_PTR_PIECES (rankBytes s / 4096))
      .drx 0 F.DRX_SPARE_STATE 2) .drx 0 F.DRX_INT_RAW_SPARE_DONE :=
  if_pos (by rw [decide_eq_true hs, decide_eq_true hdue]; rfl)

/-- Settles O25: the errors of a rank within the window, and whether the rank exceeds the threshold already, decide what a further one
does. -/
theorem dramCompletes : Obligations.DramCompletes := by
  unfold Obligations.DramCompletes
  refine ⟨fun ch ns s => ?retrain, fun r s h0 h4 => ?corrected, fun s hs hdue => congrArg done (copyDone_due hs hdue),
    fun r a c replaced s h => ?lost⟩
  case retrain => exact fun hon hm hbegun hnew => congrArg done (dramRetrain_due ns rfl hon hm hbegun hnew)
  case corrected =>
    exact ⟨fun hless => congrArg done (dramCe_below r.isLt h0 h4 hless),
      fun hmore hnew => congrArg done (dramCe_crosses r.isLt h0 h4 hmore hnew),
      fun hmore hin => congrArg done (dramCe_above r.isLt h0 h4 hmore hin)⟩
  case lost =>
    have hreached : ¬ (!reached s r a) = true := by simp [h]
    exact congrArg done (if_neg hreached)

end Sys2Proof.Machine
end

section
/-! PROOFS. Transit SRAM: requests, shares and releases of buffers, and words that are uncorrectable (14_memories_buffers_dram.md R528,
R530–R533, R535, R559). -/

namespace Sys2Proof.Machine

/-! ### A free buffer of a pool (R531) -/

theorem bufKey_div (p : Nat) {i : Nat} (h : i < 2 ^ 20) : bufKey p i / 2 ^ 20 = p := by
  unfold bufKey
  omega

theorem poolCount_le (p : Nat) : poolCount p ≤ 65536 := by
  unfold poolCount
  match p with
  | 0 | 1 | 2 | 3 | 4 => decide
  | n + 5 => simp

/-- The buffers of a pool that are in use. -/
def poolUsedKeys (s : State) (p : Nat) : List Nat := s.basil.used.filter (fun b => b / 2 ^ 20 = p)

/-- Going round a pool from a buffer on, two steps short of a full turn that meet are the same. -/
theorem eq_of_add_mod_eq {N n a b : Nat} (ha : a < N) (hb : b < N) (h : (n + a) % N = (n + b) % N) : a = b := by
  have hmod : a ≡ b [MOD N] := Nat.ModEq.add_left_cancel' n h
  exact Nat.ModEq.eq_of_lt_of_lt hmod ha hb

/-- A pool with a free buffer has one among as many as there are buffers in use and one more, from any buffer on. -/
theorem exists_unused {s : State} {p : Nat} (n : Nat) (hfree : 0 < poolFree s p) :
    ∃ a, a < s.basil.used.length + 1 ∧ s.basil.used.contains (bufKey p ((n + a) % poolCount p)) = false := by
  by_contra hnone
  simp only [not_exists, not_and, Bool.not_eq_false, List.contains_iff_mem] at hnone
  have hN : (poolUsedKeys s p).length < poolCount p := Nat.lt_of_sub_pos hfree
  let m := min (s.basil.used.length + 1) (poolCount p)
  let keys := (List.range m).map (fun a => bufKey p ((n + a) % poolCount p))
  have hnodup : keys.Nodup := by
    refine List.Nodup.map_on (fun a ha b hb hab => ?_) List.nodup_range
    rw [List.mem_range] at ha hb
    exact eq_of_add_mod_eq (n := n) (by omega) (by omega) (Nat.add_left_cancel hab)
  have hsub : keys ⊆ poolUsedKeys s p := by
    intro k hk
    obtain ⟨a, ha, rfl⟩ := List.mem_map.mp hk
    rw [List.mem_range] at ha
    have hlt : (n + a) % poolCount p < 2 ^ 20 := by
      have := Nat.mod_lt (n + a) (show 0 < poolCount p by omega)
      have := poolCount_le p
      omega
    exact List.mem_filter.mpr ⟨hnone a (by omega), decide_eq_true (bufKey_div p hlt)⟩
  have hlen : m ≤ (poolUsedKeys s p).length := by
    simpa [keys] using (hnodup.subperm hsub).length_le
  have hused : (poolUsedKeys s p).length ≤ s.basil.used.length := List.length_filter_le ..
  omega

/-- The buffer that is picked is one of the pool that is not in use. -/
theorem pickBuffer_free {s : State} {p : Nat} (n : Nat) (hfree : 0 < poolFree s p) :
    pickBuffer s p n < poolCount p ∧ s.basil.used.contains (bufKey p (pickBuffer s p n)) = false := by
  obtain ⟨a, ha, hunused⟩ := exists_unused n hfree
  have hsome : (((List.range (s.basil.used.length + 1)).map (fun i => (n + i) % poolCount p)).find?
      (fun i => !s.basil.used.contains (bufKey p i))).isSome = true := by
    rw [List.find?_isSome]
    exact ⟨(n + a) % poolCount p, List.mem_map.mpr ⟨a, List.mem_range.mpr ha, rfl⟩, by rw [hunused]; rfl⟩
  obtain ⟨i, hi⟩ := Option.isSome_iff_exists.mp hsome
  have hpick : pickBuffer s p n = i := by rw [pickBuffer, hi]; rfl
  obtain ⟨b, -, rfl⟩ := List.mem_map.mp (List.mem_of_find?_eq_some hi)
  rw [hpick]
  exact ⟨Nat.mod_lt _ (Nat.lt_of_lt_of_le hfree (Nat.sub_le ..)), by simpa using List.find?_some hi⟩

/-! ### Requests (R530–R532) -/

/-- The part with a buffer given to a client, before the client is told of it. -/
def bufferGiven (s : State) (r : BasilReq) (p i : Nat) : State :=
  let s1 := if (eligible r).head? = some p then s else bump s .bas 0 F.BAS_FALLBACK_COUNT
  { s1 with basil := { s.basil with count := mset s.basil.count (bufKey p i) r.holders, used := bufKey p i :: s.basil.used } }

theorem giveBuffer_eq (s : State) {r : BasilReq} (p i : Nat) (hmax : r.holders ≤ 255) : giveBuffer s r p i = emit (match r.client with
    | .parity h code => setAcc (bufferGiven s r p i) h code (fun a => { a with place := .buffer (bufKey p i) })
    | _ => bufferGiven s r p i) (.buffer r.client p i) := by
  have hholders : r.holders % 256 = r.holders := Nat.mod_eq_of_lt (by omega)
  unfold giveBuffer bufferGiven
  rw [hholders]
  split <;> rfl

section Request

variable {s : State} {r : BasilReq} (hmin : 1 ≤ r.size) (hmax : r.size ≤ 262144) (hone : 1 ≤ r.holders) (hall : r.holders ≤ 255)

include hmin hmax hone hall

theorem basilAllocate_takes {p : Nat} (hp : (eligible r).find? (fun p => decide (0 < poolFree s p)) = some p) :
    basilAllocate r s = giveBuffer { s with free := s.free + 1 } r p (pickBuffer s p ((Config.freeWord s.free).toNat % poolCount p)) := by
  have hgood : ¬ (decide (r.size = 0) || decide (262144 < r.size) || decide (r.holders = 0) || decide (255 < r.holders)) = true := by
    simp only [Bool.or_eq_true, decide_eq_true_eq]
    omega
  rw [basilAllocate, if_neg hgood, hp]
  rfl

theorem basilAllocate_stalls (hnone : ∀ p ∈ eligible r, poolFree s p = 0) : basilAllocate r s =
    raise (bump { s with basil := { s.basil with stalled := s.basil.stalled ++ [r] } } .bas 0 F.BAS_STALLS_COUNT) .bas 0
      F.BAS_INT_RAW_STALL := by
  have hgood : ¬ (decide (r.size = 0) || decide (262144 < r.size) || decide (r.holders = 0) || decide (255 < r.holders)) = true := by
    simp only [Bool.or_eq_true, decide_eq_true_eq]
    omega
  have hfind : (eligible r).find? (fun p => decide (0 < poolFree s p)) = none :=
    List.find?_eq_none.mpr fun p hp => by simp [hnone p hp]
  rw [basilAllocate, if_neg hgood, hfind]

end Request

/-! ### Releases (R535) -/

section Release

variable {s : State} {b n : Nat}

theorem releaseBuffer_none (h : bufCount s b + n = 0) : releaseBuffer s b n = s := if_pos h

/-- The part with the count of a buffer one lower, after the shares of the same cycle. -/
def bufferLeft (s : State) (b n : Nat) : State :=
  { s with basil := { s.basil with count := mput s.basil.count b 0 ((bufCount s b + n - 1) % 256) } }

theorem releaseBuffer_held (h : 1 ≤ bufCount s b + n) (hmore : (bufCount s b + n - 1) % 256 ≠ 0) :
    releaseBuffer s b n = bufferLeft s b n := by
  rw [releaseBuffer, if_neg (by omega)]
  exact if_neg hmore

/-- A buffer whose last holder goes is free, for the oldest stalled request that may take it. -/
theorem releaseBuffer_freed (h : 1 ≤ bufCount s b + n) (hlast : (bufCount s b + n - 1) % 256 = 0)
    (hused : s.basil.used.contains b = true) :
    let left := bufferLeft s b n
    let freed := { left with basil := { left.basil with used := s.basil.used.erase b } }
    releaseBuffer s b n = (s.basil.stalled.find? (fun r => (eligible r).contains (b / 2 ^ 20))).elim freed (fun r =>
      giveBuffer { freed with basil := { freed.basil with stalled := s.basil.stalled.erase r } } r (b / 2 ^ 20) (b % 2 ^ 20)) := by
  intro left freed
  have hin : ¬ (!left.basil.used.contains b) = true := by
    rw [show left.basil.used = s.basil.used from rfl, hused]
    decide
  have hfree : releaseBuffer s b n = freeBuffer left b := by
    rw [releaseBuffer, if_neg (by omega)]
    exact if_pos hlast
  rw [hfree, freeBuffer, if_neg hin]
  cases hw : s.basil.stalled.find? (fun r => (eligible r).contains (b / 2 ^ 20)) <;> simp only [left, bufferLeft, hw] <;> rfl

end Release

/-- Settles O24: whether a pool has a buffer decides what a request comes to, the count of its holders what a release does. -/
theorem transitBuffersComplete : Obligations.TransitBuffersComplete := by
  unfold Obligations.TransitBuffersComplete
  refine ⟨fun client size holders s => ?request, fun pool off n s => ?release, fun off s => ⟨fun conn => rfl, fun conn cid o => rfl,
    fun h code => rfl, rfl⟩⟩
  case request =>
    intro r hmin hmax hone hall
    have hrequest : basilRequest r client.minPool s = basilAllocate r s := if_pos rfl
    refine ⟨fun p hp => ?takes, fun hnone => congrArg done (hrequest.trans (basilAllocate_stalls hmin hmax hone hall hnone))⟩
    have hfree : 0 < poolFree s p := by simpa using List.find?_some hp
    obtain ⟨hlt, hunused⟩ := pickBuffer_free ((Config.freeWord s.free).toNat % poolCount p) hfree
    refine ⟨_, hlt, hunused, congrArg done ?_⟩
    rw [hrequest, basilAllocate_takes hmin hmax hone hall hp, giveBuffer_eq _ _ _ hall]
    cases client <;> rfl
  case release =>
    intro b c left freed waits
    refine ⟨rfl, fun h => congrArg (done ∘ pump) (releaseBuffer_none h), fun h hmore => congrArg (done ∘ pump) (releaseBuffer_held h hmore),
      fun h hlast hused => ?freed⟩
    have hfreed := releaseBuffer_freed h hlast hused
    exact ⟨fun hnone => congrArg (done ∘ pump) (hfreed.trans (congrArg (Option.elim · _ _) hnone)),
      fun r hsome => congrArg (done ∘ pump) (hfreed.trans (congrArg (Option.elim · _ _) hsome))⟩

end Sys2Proof.Machine
end

section
/-! PROOFS. Registers of time, of the recorder and of the pads: the timer, the captures of high words, wall time, freezes and clears,
and PAD_HOLD (16_power_modes.md R603, R604; 18_recorder_and_metering.md R645, R652, R654, R665). -/

namespace Sys2Proof.Machine

/-! ### Wall time (R645, R664) -/

/-- The wall time that a write of WALL_SET_HI commits. -/
def wallWritten (s : State) (hi : Nat) : Nat := hi % 256 * 2 ^ 32 + rd s .mtr 0 0x100

/-- The part with a wall time set at an instant, and the minute with it. -/
def wallTaken (s : State) (now w : Nat) : State :=
  { s with aon := { s.aon with wall := if w = 0 then none else some (w, now) }, meter := { s.meter with minute := w / 60 } }

section Wall

variable {s : State} {hi : Nat}

theorem wallSet_sameMinute (h : s.aon.wall.isSome = true ∧ wallWritten s hi / 60 = s.meter.minute) :
    wallSet s hi = wallFlags (wallTaken s s.now (wallWritten s hi)) true false := by
  have hsame : (s.aon.wall.isSome && decide (wallWritten s hi / 60 = s.meter.minute)) = true := by simpa using h
  unfold wallWritten at hsame
  simp only [wallSet, hsame, if_true]
  rfl

theorem wallSet_otherMinute (h : ¬ (s.aon.wall.isSome = true ∧ wallWritten s hi / 60 = s.meter.minute)) :
    wallSet s hi = wallFlags (wallTaken (wallClose s) s.now (wallWritten s hi)) (!minuteBegun s) true := by
  have hother : (s.aon.wall.isSome && decide (wallWritten s hi / 60 = s.meter.minute)) = false := by
    rw [← Bool.not_eq_true]
    simpa using h
  unfold wallWritten at hother
  simp only [wallSet, hother, Bool.false_eq_true, if_false]
  rfl

end Wall

/-! ### Freezes and clears (R652, R654) -/

theorem recFreeze_running {s : State} (h : s.recd.frozenAt = none) : recFreeze s =
    setF (setF { s with recd := { s.recd with frozenAt := some s.now } } .recd 0 F.REC_HOLD_FREEZE 1) .recd 0 F.REC_RD_SEL_WORD 0 :=
  if_neg (by simp [h])

theorem recUnfreeze_frozen {s : State} {t : Nat} (h : s.recd.frozenAt = some t) : recUnfreeze s =
    s.recd.held.foldl devAdd (setF { s with recd := { s.recd with frozenAt := none, held := [] } } .recd 0 F.REC_HOLD_FREEZE 0) :=
  if_neg (by simp [h])

/-! ### Pads (R603) -/

/-- In RUN a write of PAD_HOLD is stored, and pads that it releases are sampled. -/
theorem padRelease_run {s : State} (hm : s.mode = .run) (v : Nat) : padRelease s v =
    let s1 := storeWord s .pwr 0 0x11C v
    if getF s .pwr 0 F.PWR_PAD_HOLD_GPIO = 1 && getF s1 .pwr 0 F.PWR_PAD_HOLD_GPIO = 0 then gpioFirst s1 else s1 :=
  if_neg (by simp [hm])

/-- Settles O15: an access that its page allows has its register's own effect. -/
theorem timeRegistersComplete : Obligations.TimeRegistersComplete := by
  unfold Obligations.TimeRegistersComplete
  intro p v s hm hp
  have hread {k : PageKind} (off : Nat) (hk : pageIs k 0 = true) (hoff : off < 0x1000 ∧ off % 4 = 0) (hdef : regDefined k off = true) :=
    readReg_open p k 0 off s hk hoff.1 hoff.2 hdef hm hp
  refine ⟨fun h => ?timer, congrArg done (hread 0x10C (by decide) (by decide) (by decide)),
    congrArg done (hread 0x108 (by decide) (by decide) (by decide)), congrArg done (hread 0x108 (by decide) (by decide) (by decide)),
    congrArg done (hread 0x11C (by decide) (by decide) (by decide)), fun h => ?wall, fun h => ?hold, ?pads⟩
  case timer => exact congrArg done (writeReg_block 0x114 v h (by decide) (by decide) (by decide))
  case wall =>
    intro w sets
    have hwrite := writeReg_block 0x104 v h (by decide) (by decide) (by decide)
    exact ⟨fun hsame => congrArg done (hwrite.trans (congrArg (emit · _) (wallSet_sameMinute hsame))),
      fun hother => congrArg done (hwrite.trans (congrArg (emit · _) (wallSet_otherMinute hother)))⟩
  case hold =>
    have hwrite (w : Nat) := writeReg_block 0x100 w h (by decide) (by decide) (by decide)
    exact ⟨fun hruns => congrArg done ((hwrite 1).trans (congrArg (emit · _) (recFreeze_running hruns))),
      fun t hfrozen => congrArg done ((hwrite 4).trans (congrArg (emit · _) (recUnfreeze_frozen hfrozen))),
      congrArg done (hwrite 2)⟩
  case pads =>
    have hopen : RegOpen s .firmware .pwr 0 := ⟨hm, rfl, .inl rfl⟩
    exact congrArg done ((writeReg_block 0x11C v hopen (by decide) (by decide) (by decide)).trans
      (congrArg (emit · _) (padRelease_run hm (v % 2 ^ 32))))

end Sys2Proof.Machine
end

section
/-! PROOFS. Maintenance of the caches: requests, invalid operations, ends, and what an operation does with a line (15_caches.md R576,
R580, R588, R589). -/

namespace Sys2Proof.Machine

/-! ### The pages of the caches -/

theorem pageIs_cache (c : CacheId) : pageIs c.page 0 = true := by cases c <;> decide

@[simp] theorem cacheAt_setCache (s : State) (c : CacheId) (x : Cache) : cacheAt (setCache s c x) c = x := mgetD_mput_same ..

theorem addBad_regs (c : CacheId) (l : List Nat) (s : State) : (addBad c l s).regs = s.regs := by
  unfold addBad
  split <;> rfl

theorem rd_addBad (c : CacheId) (l : List Nat) (s : State) (k : PageKind) (i off : Nat) : rd (addBad c l s) k i off = rd s k i off := by
  unfold rd
  rw [addBad_regs]

theorem getF_addBad (c : CacheId) (l : List Nat) (s : State) (k : PageKind) (i : Nat) (f : Fld) :
    getF (addBad c l s) k i f = getF s k i f := getF_of_rd_eq f (rd_addBad ..)

theorem regOpen_addBad {s : State} {p : Path} {c : CacheId} (h : RegOpen s p c.page 0) (l : List Nat) :
    RegOpen (addBad c l s) p c.page 0 := by
  obtain ⟨hm, hp, hlock⟩ := h
  refine ⟨?_, hp, by rwa [rd_addBad]⟩
  unfold addBad
  split <;> exact hm

theorem getF_storeWord_otherOff (s : State) (k : PageKind) (i : Nat) {off : Nat} (v : Nat) (f : Fld) (h : f.off ≠ off) :
    getF (storeWord s k i off v) k i f = getF s k i f := getF_of_rd_eq f (rd_wr_otherOff s k i _ h)

/-- A write of a cache's register that passes every check has that register's effect. -/
theorem writeReg_cache {s : State} {p : Path} {c : CacheId} (off v : Nat) (h : RegOpen s p c.page 0)
    (hoff : 0x100 ≤ off ∧ off < 0x1000 ∧ off % 4 = 0) (hdef : regDefined c.page off = true ∧ regWritable c.page off = true) :
    writeReg p c.page 0 off v s = emit (cacheWrite s c off (v % 2 ^ 32)) (.access (regAddr c.page 0 off) 0 0) := by
  rw [writeReg_block off v h (pageIs_cache c) hoff hdef]
  cases c <;> simp only [CacheId.page, blockWrite, cacheOf]

/-! ### The word of a request (R576) -/

/-- The word that a maintenance request writes: GO with its operation. -/
def maintWord (op v : Nat) : Nat := putBits v 3 0 (op * 2 + 1) % 2 ^ 32

theorem maintWord_go (op v : Nat) : maintWord op v % 2 = 1 := by
  simp only [maintWord, putBits]
  omega

theorem bitsOf_maintWord {op : Nat} (v : Nat) (h : op < 8) : bitsOf (maintWord op v) 3 1 = op := by
  simp only [maintWord, putBits, bitsOf]
  omega

theorem bitsOf_maintWord_bySet (op v : Nat) : bitsOf (maintWord op v) 4 4 = bitsOf v 4 4 := by
  simp only [maintWord, putBits, bitsOf]
  omega

theorem bitsOf_putBits_zero (v : Nat) : bitsOf (putBits v 4 4 0) 4 4 = 0 := by
  simp only [putBits, bitsOf]
  omega

theorem badOp_lt (v : Nat) : badOp v < 8 := by
  unfold badOp
  split
  · exact bitsOf_lt v 3 1
  · decide

/-- A request runs: 1 to 4 are operations, and preload has the address form only. -/
abbrev OpRuns (op v : Nat) : Prop := 1 ≤ op ∧ op ≤ 4 ∧ (op = 4 → bitsOf v 4 4 = 0)

theorem opRuns_of_lt {op : Nat} (v : Nat) (hmin : 1 ≤ op) (hmax : op < 4) : OpRuns op v := ⟨hmin, hmax.le, fun h => absurd h hmax.ne⟩

/-- The operation that stands for an invalid one does not run. -/
theorem not_opRuns_badOp (v : Nat) : ¬ OpRuns (badOp v) v := by
  rintro ⟨hmin, hmax, hform⟩
  unfold badOp at hmin hmax hform
  split at hmin
  · rename_i hbad
    rw [if_pos hbad] at hmax hform
    simp only [Bool.or_eq_true, Bool.and_eq_true, decide_eq_true_eq] at hbad
    omega
  · omega

/-! ### Requests (R576, R580) -/

section Request

variable {s : State} {c : CacheId} {op v : Nat}

theorem maintGo_runs (hidle : getF s c.page 0 F.CACHE_STAT_MAINT_BUSY = 0) (hop : OpRuns op v) :
    let m : CMaint := ⟨maintWord op v, rd s c.page 0 0x120 % 256 * 2 ^ 32 + rd s c.page 0 0x11C, rd s c.page 0 0x124⟩
    let busy := setF s c.page 0 F.CACHE_STAT_MAINT_BUSY 1
    maintGo c (maintWord op v) s = if getF s c.page 0 F.CACHE_STAT_DRAINING = 1
      then setCache busy c { cacheAt busy c with held := some m } else runMaint c m busy := by
  obtain ⟨hmin, hmax, hform⟩ := hop
  have hgood : ¬ (decide (op = 0) || decide (4 < op) || (decide (op = 4) && decide (bitsOf v 4 4 = 1))) = true := by
    simp only [Bool.or_eq_true, Bool.and_eq_true, decide_eq_true_eq]
    omega
  simp only [maintGo, hidle, bitsOf_maintWord v (show op < 8 by omega), bitsOf_maintWord_bySet, if_neg hgood, Nat.zero_ne_one, if_false]

theorem maintGo_invalid (hidle : getF s c.page 0 F.CACHE_STAT_MAINT_BUSY = 0) (hlt : op < 8) (hop : ¬ OpRuns op v) :
    maintGo c (maintWord op v) s = blockError s c.page 0 3 (maintWord op v % 65536) 0 0 := by
  have hbit := bitsOf_lt v 4 4
  have hbad : (decide (op = 0) || decide (4 < op) || (decide (op = 4) && decide (bitsOf v 4 4 = 1))) = true := by
    simp only [Bool.or_eq_true, Bool.and_eq_true, decide_eq_true_eq]
    unfold OpRuns at hop
    omega
  simp only [maintGo, hidle, bitsOf_maintWord v hlt, bitsOf_maintWord_bySet, if_pos hbad, Nat.zero_ne_one, if_false]

/-- A request is a write of MAINT_CTRL that is stored and then goes. -/
theorem maintWrite_goes {p : Path} (h : RegOpen s p c.page 0) :
    maintWrite p c op v s = emit (maintGo c (maintWord op v) (storeWord s c.page 0 0x128 (maintWord op v)))
      (.access (regAddr c.page 0 0x128) 0 0) := by
  have hwrite := writeReg_cache 0x128 (putBits v 3 0 (op * 2 + 1)) h (by decide) (by cases c <;> decide)
  exact hwrite.trans (congrArg (emit · _) (if_pos (maintWord_go op v)))

end Request

/-- A request that runs sets MAINT_BUSY and runs, or is held by a drain. -/
theorem maintWrite_runs {s : State} {p : Path} {c : CacheId} {op v : Nat} (bad : List Nat) (h : RegOpen s p c.page 0)
    (hidle : getF s c.page 0 F.CACHE_STAT_MAINT_BUSY = 0) (hop : OpRuns op v) :
    let m : CMaint := ⟨maintWord op v, rd s c.page 0 0x120 % 256 * 2 ^ 32 + rd s c.page 0 0x11C, rd s c.page 0 0x124⟩
    let busy := setF (storeWord (addBad c bad s) c.page 0 0x128 (maintWord op v)) c.page 0 F.CACHE_STAT_MAINT_BUSY 1
    maintWrite p c op v (addBad c bad s) = emit (if getF s c.page 0 F.CACHE_STAT_DRAINING = 1
      then setCache busy c { cacheAt busy c with held := some m } else runMaint c m busy) (.access (regAddr c.page 0 0x128) 0 0) := by
  have hget (f : Fld) (hf : f.off ≠ 0x128) :
      getF (storeWord (addBad c bad s) c.page 0 0x128 (maintWord op v)) c.page 0 f = getF s c.page 0 f := by
    rw [getF_storeWord_otherOff _ _ _ _ _ hf, getF_addBad]
  have hrd (off : Nat) (hoff : off ≠ 0x128) :
      rd (storeWord (addBad c bad s) c.page 0 0x128 (maintWord op v)) c.page 0 off = rd s c.page 0 off := by
    rw [storeWord, rd_wr_otherOff _ _ _ _ hoff, rd_addBad]
  rw [maintWrite_goes (regOpen_addBad h bad), maintGo_runs (by rw [hget _ (by decide)]; exact hidle) hop]
  simp only [hget F.CACHE_STAT_DRAINING (by decide), hrd 0x120 (by decide), hrd 0x11C (by decide), hrd 0x124 (by decide)]

theorem maintWrite_invalid {s : State} {p : Path} {c : CacheId} (v : Nat) (h : RegOpen s p c.page 0)
    (hidle : getF s c.page 0 F.CACHE_STAT_MAINT_BUSY = 0) :
    maintWrite p c (badOp v) v s = emit (blockError (storeWord s c.page 0 0x128 (maintWord (badOp v) v)) c.page 0 3
      (maintWord (badOp v) v % 65536) 0 0) (.access (regAddr c.page 0 0x128) 0 0) := by
  rw [maintWrite_goes h, maintGo_invalid _ (badOp_lt v) (not_opRuns_badOp v)]
  rw [getF_storeWord_otherOff _ _ _ _ _ (by decide)]
  exact hidle

theorem maintDone_runs {s : State} {c : CacheId} (hbusy : getF s c.page 0 F.CACHE_STAT_MAINT_BUSY = 1) (hheld : (cacheAt s c).held = none) :
    maintDone c s = raise (setF s c.page 0 F.CACHE_STAT_MAINT_BUSY 0) c.page 0 F.CACHE_INT_RAW_MAINT_DONE :=
  if_pos (by rw [hheld, decide_eq_true hbusy]; rfl)

/-! ### What an operation does with a line (R576, R588) -/

section Line

variable {s : State} {c : CacheId} (hbad : (cacheAt s c).bad = [])

include hbad

theorem parityCheck_clean (key : Nat) : parityCheck s c key = s := if_pos (by simp [hbad])

theorem tagChecks_clean (set : Nat) : tagChecks c set s = s := by rw [tagChecks, hbad]; rfl

theorem maintLine_lines (op key : Nat) : (cacheAt (maintLine c op s key) c).lines =
    if op = 1 then mmod (cacheAt s c).lines key (fun l => { l with dirty := false }) else mdel (cacheAt s c).lines key := by
  simp only [maintLine, parityCheck_clean hbad, cacheAt_setCache]

/-- An operation of the address form on a single line. -/
theorem runMaint_oneLine {m : CMaint} (hop : bitsOf m.ctrl 3 1 ≠ 4) (hform : bitsOf m.ctrl 4 4 = 0) (hone : bitsOf m.ctrl 31 16 = 0) :
    let set := m.addr / 64 % c.sets
    runMaint c m s = (cacheFind (cacheAt s c) set (m.addr / 64 / c.sets)).elim s
      (fun w => maintLine c (bitsOf m.ctrl 3 1) s (lineKey set w)) := by
  intro set
  have hlines : (List.range (bitsOf m.ctrl 31 16 + 1)).map (m.addr / 64 + ·) = [m.addr / 64] := by
    rw [hone]
    rfl
  simp only [runMaint, hform, Nat.zero_ne_one, if_false, if_neg hop, hlines, List.foldl_cons, List.foldl_nil, tagChecks_clean hbad]
  cases hw : cacheFind (cacheAt s c) set (m.addr / 64 / c.sets) <;> simp only [set, Option.elim]

end Line

/-- Settles O22: the word of a request says whether it runs, and whether its line is present what it does. -/
theorem cacheMaintenanceCompletes : Obligations.CacheMaintenanceCompletes := by
  unfold Obligations.CacheMaintenanceCompletes
  refine ⟨fun p c v bad s h hidle => ?requests, fun c s hbusy hheld => congrArg done (maintDone_runs hbusy hheld),
    fun c m s hbad => ?line⟩
  case requests =>
    intro req m busy ran
    have hruns (op x : Nat) (hop : OpRuns op x) : maintWrite p c op x (addBad c bad s) = ran op x := maintWrite_runs bad h hidle hop
    have hpreload : OpRuns 4 (putBits v 4 4 0) := ⟨by decide, by decide, fun _ => bitsOf_putBits_zero v⟩
    exact ⟨congrArg done (hruns 1 v (opRuns_of_lt v (by decide) (by decide))),
      congrArg done (hruns 2 v (opRuns_of_lt v (by decide) (by decide))),
      congrArg done (hruns 3 v (opRuns_of_lt v (by decide) (by decide))),
      congrArg done (hruns 4 _ hpreload), congrArg done (maintWrite_invalid v h hidle)⟩
  case line =>
    intro op hop set tag after
    refine ⟨fun hset => ?bySet, fun hform hone => ?byAddress⟩
    case bySet =>
      rw [runMaint, if_pos hset]
      exact maintLine_lines hbad op _
    case byAddress =>
      have hrun := runMaint_oneLine hbad hop hform hone
      refine ⟨fun w hw => ?present, fun hnone => hrun.trans (congrArg (Option.elim · _ _) hnone)⟩
      have hline : runMaint c m s = maintLine c op s (lineKey set w) := hrun.trans (congrArg (Option.elim · _ _) hw)
      rw [hline]
      exact maintLine_lines hbad op _

end Sys2Proof.Machine
end

section
/-! PROOFS. Enabling, disabling and draining a cache, and its regions (15_caches.md R571, R579, R580, R585, R589). -/

namespace Sys2Proof.Machine

/-! ### Writes of CTRL (R571, R579, R580) -/

theorem cacheAt_storeCtrl (s : State) (p : Path) (k : PageKind) (i v : Nat) (c : CacheId) :
    cacheAt (storeCtrl s p k i v) c = cacheAt s c := by
  unfold storeCtrl
  split <;> split <;> rfl

/-- A write of a cache's CTRL that passes every check stores the word, and the cache follows it. -/
theorem writeReg_cacheCtrl {s : State} {p : Path} {c : CacheId} (v : Nat) (h : RegOpen s p c.page 0) :
    writeReg p c.page 0 0x010 v s = emit (cacheCtrl c (storeCtrl s p c.page 0 (v % 2 ^ 32))) (.access (regAddr c.page 0 0x010) 0 0) := by
  have hreg : regDefined c.page 0x010 = true ∧ regWritable c.page 0x010 = true := by cases c <;> decide
  rw [writeReg_open p c.page 0 0x010 v s (pageIs_cache c) (by decide) (by decide) hreg.1 hreg.2 h]
  cases c <;> rfl

section Ctrl

variable {s : State} {c : CacheId}

theorem cacheCtrl_draining (hdrain : getF s c.page 0 F.CACHE_STAT_DRAINING = 1) :
    cacheCtrl c s = setCache s c { cacheAt s c with enable := decide (getF s c.page 0 F.CACHE_CTRL_ENABLE = 1) } := if_pos hdrain

theorem cacheCtrl_on (hdrain : getF s c.page 0 F.CACHE_STAT_DRAINING = 0) (hon : getF s c.page 0 F.CACHE_CTRL_ENABLE = 1)
    (hoff : getF s c.page 0 F.CACHE_STAT_ENABLED = 0) : cacheCtrl c s = cacheOn c s := by
  simp [cacheCtrl, hdrain, hon, hoff]

theorem cacheCtrl_off (hdrain : getF s c.page 0 F.CACHE_STAT_DRAINING = 0) (hoff : getF s c.page 0 F.CACHE_CTRL_ENABLE = 0)
    (hon : getF s c.page 0 F.CACHE_STAT_ENABLED = 1) : cacheCtrl c s = cacheOff c s := by
  simp [cacheCtrl, hdrain, hon, hoff]

/-- The drain's end, with no operation under way but one that the drain holds. -/
theorem cacheDrained_ends (hdrain : getF s c.page 0 F.CACHE_STAT_DRAINING = 1)
    (hidle : getF s c.page 0 F.CACHE_STAT_MAINT_BUSY = 0 ∨ (cacheAt s c).held.isSome = true) :
    let k := cacheAt s c
    let t1 := k.bad.foldl (fun s b => parityCheck s c (badKey b)) s
    let t2 := raise (setF (setF (setCache t1 c { cacheAt t1 c with lines := [], lru := [], held := none, enable := false })
      c.page 0 F.CACHE_STAT_DRAINING 0) c.page 0 F.CACHE_STAT_ENABLED 0) c.page 0 F.CACHE_INT_RAW_DRAIN_DONE
    let t3 := k.held.elim t2 (fun m => runMaint c m t2)
    cacheDrained c s = if k.enable then cacheOn c t3 else t3 := by
  have hends : (decide (getF s c.page 0 F.CACHE_STAT_DRAINING = 1) &&
      (decide (getF s c.page 0 F.CACHE_STAT_MAINT_BUSY = 0) || (cacheAt s c).held.isSome)) = true := by simp [hdrain, hidle]
  refine (if_pos hends).trans ?_
  cases (cacheAt s c).held <;> rfl

end Ctrl

/-- Settles O23: a write of CTRL by the cache's state, the region registers, and the drain's end. -/
theorem cacheControlCompletes : Obligations.CacheControlCompletes := by
  unfold Obligations.CacheControlCompletes
  refine ⟨fun p c v s h => ?writes, fun c bad s => ?drain⟩
  case writes =>
    intro s1 s0 ans
    have hcache (x : Nat) : cacheAt (storeCtrl s p c.page 0 x) c = cacheAt s c := cacheAt_storeCtrl ..
    have hctrl (x : Nat) : done (writeReg p c.page 0 0x010 x s) = done (ans (cacheCtrl c (storeCtrl s p c.page 0 (x % 2 ^ 32))) 0x010) :=
      congrArg done (writeReg_cacheCtrl x h)
    have hblock (off : Nat) (hoff : 0x100 ≤ off ∧ off < 0x1000 ∧ off % 4 = 0)
        (hdef : regDefined c.page off = true ∧ regWritable c.page off = true) :
        done (writeReg p c.page 0 off v s) = done (ans (cacheWrite s c off (v % 2 ^ 32)) off) := congrArg done (writeReg_cache off v h hoff hdef)
    refine ⟨fun hon hdis hdrain => ?enable, fun hoff hen hdrain => ?disable, fun hon hdrain => ?enableLater, fun hoff hdrain => ?disableLater,
      hblock 0x100 (by decide) (by cases c <;> decide), hblock 0x110 (by decide) (by cases c <;> decide)⟩
    case enable =>
      refine (hctrl _).trans ?_
      rw [cacheCtrl_on hdrain hon hdis, cacheOn, hcache]
      rfl
    case disable =>
      refine (hctrl _).trans ?_
      rw [cacheCtrl_off hdrain hoff hen, cacheOff, hcache]
      rfl
    case enableLater =>
      refine (hctrl _).trans ?_
      rw [cacheCtrl_draining hdrain, hcache, decide_eq_true hon]
      rfl
    case disableLater =>
      refine (hctrl _).trans ?_
      rw [cacheCtrl_draining hdrain, hcache, decide_eq_false (ne_of_eq_of_ne hoff Nat.zero_ne_one)]
      rfl
  case drain =>
    intro t k hdrain hidle
    exact congrArg done (cacheDrained_ends hdrain hidle)

end Sys2Proof.Machine
end

section
/-! PROOFS. Moving a live tenant, the source: the log, what is sent of it, the freeze, the key handoff and the abort (13_tenant_migration.md
R504, R507–R509, R512–R514, R519–R522, R524, R525). -/

namespace Sys2Proof.Machine

section Migration

variable {q : Capsule} {i : Instr} {f op : Nat} {h : KaHdr} {e : Enroll} {s : State}

/-- An accepted migration operation of a tenant whose response is not prepared over time answers what it comes to. -/
theorem mig_answers {body l : List Nat} {ok : MigState → Bool} {run : Nat → State → KaRes} {u : State} {result : Nat} {ready : Bool}
    (ha : KaAccepts s q f op h body e) (hf : f ≠ fnMF) (hs : ok (migOf (kaTaken s q f h e) f).state = true)
    (hr : run f (kaTaken s q f h e) = ⟨u, result, l, ready, 0⟩) :
    inTurn q i false (migSend q op h body ok run) s = kaAnswer u f op result h.ctr l ready s.now := by
  rw [mig_yes ha hf hs, hr]
  rfl

theorem migBegin_yes {mask : Nat} (ha : KaAccepts s q f 0x10 h (leBytes 2 mask ++ [0, 0]) e) (hf : f ≠ fnMF)
    (hidle : (migOf (kaTaken s q f h e) f).state = .idle) (hnamed : maskNamed (kaTaken s q f h e) f mask = true)
    (hroom : mapHeld (kaTaken s q f h e) f + logMib (kaTaken s q f h e) f mask ≤ (tenant (kaTaken s q f h e) f).par.mapMib) :
    inTurn q i false (migBegin q h mask) s = kaAnswer (modMig (kaTaken s q f h e) f
      (fun _ => { state := .copying, mask := mask, live := fullLog mask })) f 0x10 0 h.ctr [] true s.now := by
  unfold migBegin
  refine mig_answers ha hf (decide_eq_true hidle) ?_
  rw [hnamed, if_neg (by decide), if_neg (Nat.not_lt.mpr hroom)]
  rfl

section Log

variable {nsid k : Nat} {n : Ns} (hf : f ≠ fnMF) (hlog : (migOf (kaTaken s q f h e) f).state.logging = true)
  (htarget : migTarget (kaTaken s q f h e) f nsid = .inr (k, n))

include hf hlog htarget

theorem migExport_yes {flags first last maxb : Nat} (visits : Nat) (bad : List Nat)
    (ha : KaAccepts s q f 0x12 h (leBytes 4 nsid ++ leBytes 4 flags ++ leBytes 8 first ++ leBytes 8 last ++ leBytes 4 maxb) e) :
    let s1 := kaTaken s q f h e
    let b := mgetD (migOf s1 f).snap.bits nsid {}
    let r := exportFrom s1 k n bad (fun u => flags % 2 = 1 || b.full || b.units.contains u) last (min maxb 2097088) visits first 16 []
    inTurn q i false (migExport q h nsid flags first last maxb visits bad) s = kaAnswer s1 f 0x12 0 h.ctr
      (leBytes 8 r.1 ++ leBytes 4 r.2.length ++ [0, 0, 0, 0] ++ (r.2.map MigRec.toBytes).flatten) true (s.now + 1) := by
  unfold migExport
  refine (mig_yes ha hf hlog).trans ?_
  dsimp only
  rw [htarget]

theorem migZones_yes {first count : Nat} (ha : KaAccepts s q f 0x14 h (leBytes 4 nsid ++ leBytes 4 first ++ leBytes 4 count) e) :
    inTurn q i false (migZones q h nsid first count) s = kaAnswer (kaTaken s q f h e) f 0x14 0 h.ctr
      ((if n.zoned then ((List.range (min count 65536)).map (first + ·)).filter (· < zoneCount n) else []).map (migDescriptor n)).flatten
      true s.now := by
  unfold migZones
  refine mig_answers ha hf hlog ?_
  rw [htarget]
  rfl

end Log

/-- MIG_KEY_EXPORT of a frozen migration whose freeze has drained, to a destination that proves itself. -/
theorem migKeyExport_yes {x : List Nat} (ha : KaAccepts s q f 0x16 h x e) (hf : f ≠ fnMF)
    (hfrozen : (migOf (kaTaken s q f h e) f).state = .frozen) (hdrained : (migOf (kaTaken s q f h e) f).draining = false)
    (htoken : tokenOk (migOf (kaTaken s q f h e) f) x = true) (hpoint : (ecPoint (tokEpk x)).isSome = true) :
    let s1 := kaTaken s q f h e
    let d := freshScalar s1
    let v := drawBits d.2
    inTurn q i false (migKeyExport q h x) s = kaAnswer
      (modMig v.2 f (fun m => { m with state := .handedOff, peer := some (tokEpk x), live := {}, snap := {} })) f 0x16 0 h.ctr
      (makePkg d.1 (v.1 % 2 ^ 96) (tokEpk x) (pkgText s1 f (tokSerial x) (tokTenant x))) true s.now := by
  have hproved : ¬ (!tokenOk (migOf (kaTaken s q f h e) f) x || (ecPoint (tokEpk x)).isNone) = true := by
    rw [htoken, ← Option.not_isSome, hpoint]
    decide
  have hfirst : ¬ (decide ((migOf (kaTaken s q f h e) f).state = .handedOff) &&
      decide ((migOf (kaTaken s q f h e) f).peer ≠ some (tokEpk x))) = true := by
    simp [hfrozen]
  unfold migKeyExport
  refine mig_answers ha hf (by rw [hfrozen]; rfl) ?_
  rw [if_neg (by rw [hdrained]; decide), if_neg hproved, if_neg hfirst]
  rfl

end Migration

/-- The freeze's response becomes ready when the commands that it waits for are gone. -/
theorem migFreezeDone_drained {t : Nat} {s : State} (hfrozen : (migOf s t).state = .frozen) (hdrain : (migOf s t).draining = true)
    (hgone : ∀ i ∈ (migOf s t).waitFor, mget s.cmds i = none) :
    migFreezeDone t s = readyResp (modMig s t (fun m => { m with draining := false, waitFor := [] })) t :=
  if_pos (by simp [hfrozen, hdrain, cmdsGone_of_none hgone])

/-- MIG_ABORT by MF of a tenant that is not FREE and whose migration may be aborted. -/
theorem migAbortCmd_yes {q : Capsule} {i : Instr} {s : State} (h : Ready s q fnMF) (hb : OnlyBits q [tenantMask, 0, 0, 0, 0, 0])
    (hused : (tenant (served s fnMF) (cmdTenant q)).state ≠ .free)
    (hmig : (migOf (served s fnMF) (cmdTenant q)).state.abortable = true) :
    inTurn q i false (migAbortCmd q) s = postSt (migEnd (served s fnMF) (cmdTenant q)) q.conn q.cid stOk := by
  unfold migAbortCmd
  refine onTenant_yes h hb hused (fun n => ?_) rfl
  rw [hmig, Bool.not_true, Bool.and_false]

/-- Settles O42: an accepted operation in a state that allows it answers what its checks leave. -/
theorem migrationSourceCompletes : Obligations.MigrationSourceCompletes := by
  unfold Obligations.MigrationSourceCompletes
  refine ⟨fun q f h e s hf => ?operations, fun t s hfrozen hdrain hgone => congrArg done (migFreezeDone_drained hfrozen hdrain hgone),
    fun q s hready hbits => ?abortCmd⟩
  case operations =>
    intro s1 st ans
    refine ⟨fun mask ha hidle hnamed hroom => congrArg done (migBegin_yes ha hf hidle hnamed hroom), fun ha hlog => congrArg done ?swap,
      fun nsid k n htarget hlog => ⟨fun flags first last maxb visits bad ha => congrArg done (migExport_yes hf hlog htarget visits bad ha),
        fun first count ha => congrArg done (migZones_yes hf hlog htarget ha)⟩,
      fun ha hlog => congrArg done ?events, fun ha hcopy => congrArg done ?freeze,
      fun x ha hfrozen hdrained htoken hpoint => congrArg done (migKeyExport_yes ha hf hfrozen hdrained htoken hpoint),
      fun ha habort => congrArg done ?abort⟩
    case swap =>
      unfold migSwap
      exact mig_answers ha hf hlog rfl
    case events =>
      unfold migEvents
      exact mig_answers ha hf hlog rfl
    case freeze =>
      unfold migFreeze
      exact mig_answers ha hf (decide_eq_true hcopy) rfl
    case abort =>
      unfold migAbort
      exact mig_answers ha hf habort rfl
  case abortCmd =>
    intro s1 t hused hmig
    exact congrArg done (migAbortCmd_yes hready hbits hused hmig)

end Sys2Proof.Machine
end

section
/-! PROOFS. Moving a live tenant, the destination: the five import requests (13_tenant_migration.md R515–R518, R523). -/

namespace Sys2Proof.Machine

section Import

variable {q : Capsule} {f : Nat} {h : KaHdr} {e : Enroll} {s : State} (hf : f ≠ fnMF)

include hf

/-- IMPORT_BEGIN of importable namespaces keeps a new ephemeral key. -/
theorem importBegin_yes {mask : Nat} (ha : KaAccepts s q f 0x18 h (leBytes 2 mask ++ [0, 0]) e)
    (hidle : (migOf (kaTaken s q f h e) f).state = .idle) (hnamed : maskNamed (kaTaken s q f h e) f mask = true)
    (hfree : (maskIds mask).all (importable (kaTaken s q f h e) f) = true)
    (htoken : getF (kaTaken s q f h e) .dbg 0 F.DBG_TOKEN_SINCE_POR ≠ 1) :
    let s1 := kaTaken s q f h e
    let r := freshScalar s1
    let g := dikSign (recPut r.2 (ekRec f) (.ek r.1)) (importSigned Config.serial f mask (ecPublic r.1))
    inTurn q (.importBegin q h mask) false (importBegin q h mask) s = kaAnswer
      (modMig g.2 f (fun _ => { state := .importing, mask := mask, ek := some r.1, commitAt := jCount s1 })) f 0x18 0 h.ctr
      (ecPublic r.1 ++ [0, 0, 0] ++ g.1) true s.now := by
  have hopen : ¬ (!(maskIds mask).all (importable (kaTaken s q f h e) f) ||
      decide (getF (kaTaken s q f h e) .dbg 0 F.DBG_TOKEN_SINCE_POR = 1)) = true := by
    simp [hfree, htoken]
  unfold importBegin
  refine mig_answers ha hf (decide_eq_true hidle) ?_
  rw [if_neg (by rw [hnamed]; decide), if_neg hopen]
  rfl

variable (himp : (migOf (kaTaken s q f h e) f).state = .importing)

include himp

section Target

variable {nsid k : Nat} {n : Ns} (htarget : migTarget (kaTaken s q f h e) f nsid = .inr (k, n))

include htarget

theorem importData_yes {recs : List Nat} (ha : KaAccepts s q f 0x19 h (leBytes 4 nsid ++ [0, 0, 0, 0] ++ recs) e) :
    let r := applyRecords k n (parseRecs (recs.length / 16) recs) 0 (kaTaken s q f h e)
    inTurn q (.importData q h nsid recs) false (importData q h nsid recs) s =
      kaAnswer (pump r.2.2) f 0x19 (if r.2.1 then 0 else 0xD) h.ctr (leBytes 4 r.1) true s.now := by
  unfold importData
  refine mig_answers ha hf (decide_eq_true himp) ?_
  rw [htarget]

theorem importZone_yes {first count : Nat} {ds : List Nat}
    (ha : KaAccepts s q f 0x1A h (leBytes 4 nsid ++ leBytes 4 first ++ leBytes 4 count ++ ds) e) :
    let r := setZones k n ((chunks 16 (min count (ds.length / 16)) ds).map zoneDesc) first (kaTaken s q f h e)
    inTurn q (.importZone q h nsid ⟨first, count⟩ ds) false (importZone q h nsid first count ds) s =
      kaAnswer r.2 f 0x1A (if r.1 then 0 else 0xD) h.ctr [] true s.now := by
  unfold importZone
  refine mig_answers ha hf (decide_eq_true himp) ?_
  rw [htarget]
  rfl

end Target

end Import

/-- Settles O43: an accepted request of an idle or an importing tenant answers what its checks leave. -/
theorem migrationDestinationCompletes : Obligations.MigrationDestinationCompletes := by
  unfold Obligations.MigrationDestinationCompletes
  intro q f h e s hf s1 st ans
  refine ⟨fun mask ha hidle hnamed hfree htoken => congrArg done (importBegin_yes hf ha hidle hnamed hfree htoken), fun himp => ?importing⟩
  have hst : decide (st = .importing) = true := decide_eq_true himp
  refine ⟨fun nsid k n htarget => ⟨fun recs ha => congrArg done (importData_yes hf himp htarget ha),
      fun first count ds ha => congrArg done (importZone_yes hf himp htarget ha)⟩,
    fun ha => congrArg done ?commit, fun p ha => congrArg done ?key⟩
  case commit =>
    unfold importCommit
    exact mig_answers ha hf hst rfl
  case key =>
    unfold importKey
    exact mig_answers ha hf hst rfl

end Sys2Proof.Machine
end
